-- ==== Sys2Proof/Word.lean ====
section
/-! DEFINITION. The word types of the SDZ3072-CF and the sparse memory type: a register is 32 bits
(18_register_map, opening), bytes are sent least significant first (R8), bit 0 is the least significant (R7). -/

namespace Sys2Proof

/-- A register word (18_register_map). -/
abbrev Word := BitVec 32

/-- A byte of a letter, a container or a meter record. -/
abbrev Byte := BitVec 8

/-- A pixel word (R78). -/
abbrev PixelWord := BitVec 20

/-- A ledger word (R97). -/
abbrev LedgerWord := BitVec 16

/-- Sparse data by key: pairs with keys strictly rising, and no entry equal to what an unlisted key reads as. -/
abbrev SMap (α : Type) := List (Nat × α)

end Sys2Proof
end

