-- ==== Sys2Proof/Syntax.lean ====
section
/-! DEFINITION. The commands of the block: one constructor per row of the table of operations and events
(95_what_each_step_holds), with the operands the world outside supplies. Letters are carried as the bytes received;
a register write that has a row of its own carries how it was addressed (`Via`), the alias it came through and the data. -/

namespace Sys2Proof

/-- The framing of a letter, decided at its first rise (R382). -/
inductive Framing where
  /-- ND3 low: version 2 framing, a nibble a rise. -/
  | v2
  /-- ND1 to ND3 high: version 1 framing, a bit a rise. -/
  | v1
  /-- Anything else: a framing error under order 1 of R365. -/
  | bad
deriving DecidableEq, Repr, Inhabited

/-- A letter as received (R363): its rises, and its bytes field by field. -/
structure Letter where
  /-- Framing found at the first rise (R382). -/
  framing : Framing
  /-- Rises taken while NSTB_N was low (R361, R365 order 1). -/
  rises : Nat
  /-- TYPE byte. -/
  typ : Byte
  /-- ADDR byte: NUMBER, KIND and two reserved bits. -/
  addr : Byte
  /-- TAG byte. -/
  tag : Byte
  /-- The reserved byte at offset 3. -/
  res : Byte
  /-- LENGTH field. -/
  length : Word
  /-- BODY bytes as received. -/
  body : List Byte
  /-- CRC field as received (R364). -/
  crc : BitVec 16
deriving DecidableEq, Repr, Inhabited

/-- How a one-word letter of a register row was addressed: tag, KIND and NUMBER (R363, R366). -/
structure Via where
  tag : Byte
  kind : BitVec 2
  number : BitVec 4
  framing : Framing
deriving DecidableEq, Repr, Inhabited

/-- The four op spaces of a register address (R396, R408). -/
inductive AliasOp where
  | base | set | clear | toggle
deriving DecidableEq, Repr, Inhabited

/-- One channel of an array, or its broadcast or group alias (R397). -/
inductive Sel (n : Nat) where
  | one (i : Fin n)
  | broadcast
  | group
deriving DecidableEq, Repr

/-- How a power-state request arrives: a SCAN letter or a write of `PWR_CTL` whose REQ is the row's request
(R347, R378); `data` is the rest of the written word. -/
inductive ReqForm where
  | scan
  | write (data : Word)
deriving DecidableEq, Repr, Inhabited

/-- Which array alias a pigeonhole action is written through (R218). -/
inductive PghScope where
  | indexed | broadcast | group
deriving DecidableEq, Repr, Inhabited

/-- One stored bit of a frame-store group flips: group number, row × 768 + column group; bit of the 88 (R89, R91). -/
structure BitFlip where
  group : Nat
  bit : Fin 88
deriving DecidableEq, Repr, Inhabited

/-- One stored bit of a ledger word flips: cell; bit of the word's 16 or, at 16, its parity bit (R97). -/
structure LedgerFlip where
  cell : Nat
  bit : Fin 17
deriving DecidableEq, Repr, Inhabited

/-- What a heartbeat carries (R142): engine, slot, low 8 bits of the row number, groups packed. -/
structure Heartbeat where
  engine : Nat
  slot : Nat
  row : BitVec 8
  groups : Nat
deriving DecidableEq, Repr, Inhabited

/-- What arrived from drill place `drill` at a check: nothing, or the heartbeat given. -/
structure HeartbeatIn where
  drill : Fin 14
  sent : Option Heartbeat
deriving DecidableEq, Repr, Inhabited

/-- What a die-bridge transfer carried whose repeat failed (R19). -/
inductive Traffic where
  /-- Source codes of the row. -/
  | codes
  /-- Rail and VCOM commands, gate timing, coulomb totals, ADC results or register traffic. -/
  | other
deriving DecidableEq, Repr, Inhabited

/-- Something a drill sent late, which the two fences judge (R94, R143, R146): a code for a slot, a write to a bank under its own
number, a forward to a bank's owner. -/
inductive LateItem where
  | code (engine slot : Nat)
  | write (engine : Nat) (bank : Fin 128) (epoch : BitVec 8)
  | forward (engine : Nat) (bank : Fin 128) (epoch : BitVec 8)
deriving DecidableEq, Repr, Inhabited

/-- A panel rail's comparator: it has found the condition, or finds it gone (R338, R346). -/
structure RailEdge where
  rail : Fin 8
  present : Bool
deriving DecidableEq, Repr, Inhabited

/-- An auxiliary rail's overvoltage comparator: FBn above the threshold, or back below 105 % (R317). -/
structure AuxEdge where
  rail : Fin 4
  present : Bool
deriving DecidableEq, Repr, Inhabited

/-- Charge that the rails delivered to the segments in one row (R110): segment, source rail 0 to 5, nC. -/
structure Charge where
  seg : Fin 8
  rail : Fin 6
  nC : Nat
deriving DecidableEq, Repr, Inhabited

/-- What the outside of the drills' arithmetic contributes to one row's latch (R19, R91, R97, R110, R142, R146). -/
structure RowInput where
  /-- Die-bridge transfers repeated since the last latch (R19). -/
  repeats : Nat
  /-- A repeat failed as well, and what it carried (R19). -/
  bridgeFail : Option Traffic
  /-- Bit i: codes of slot i's furrow had not arrived by the latch point, for another cause (R20). -/
  missing : BitVec 16
  /-- Heartbeats that are absent or may be wrong; a drill not listed sent the right one (R142). -/
  heartbeats : List HeartbeatIn
  /-- Bits of the frame store that flipped since the last command that lists any. -/
  flips : List BitFlip
  /-- Bits that flipped between the row's write-back and its re-read (R152). -/
  lateFlips : List BitFlip
  /-- Bits of the ledger that flipped. -/
  ledgerFlips : List LedgerFlip
  /-- Charge delivered in this row (R110). -/
  charge : List Charge
  /-- Late items that reached the bridge master and the bank guards since the last latch. -/
  late : List LateItem
deriving DecidableEq, Repr, Inhabited

/-- What flipped in the memories before the start writer and the ledger check read them (R91, R97). -/
structure StartInput where
  flips : List BitFlip
  ledgerFlips : List LedgerFlip
deriving DecidableEq, Repr, Inhabited

/-- A disturbance of one copy of a triplicated field (R14, R63, R398). -/
inductive Triplicated where
  | strap (k : Fin 12)
  | railSet
  | seqPlan
  | lcState
deriving DecidableEq, Repr

/-- One disturbed copy: the field, the copy and the bits flipped. -/
structure Upset where
  field : Triplicated
  copy : Fin 3
  flip : BitVec 4
deriving DecidableEq, Repr

/-- What the end of a slow-round slot delivers (R221): the converter's result for the slot of the round. -/
structure SlotInput where
  /-- Slots 0 to 3: code D of R223. Slots 4 to 9: 1/16 °C. Slots 10 to 31: mV (R326). -/
  reading : Int
  /-- Disturbances of triplicated copies since the last slot. -/
  upsets : List Upset
  /-- FLFB stands at overvoltage: its comparator as the slot ends (R319). -/
  boostOv : Bool
deriving DecidableEq, Repr, Inhabited

/-- The two graced conditions of R235. -/
inductive Graced where
  | plot | die
deriving DecidableEq, Repr, Inhabited

/-- The internal rails of R338. -/
inductive IntRail where
  | vcore | vdrv | vddh | vddio | vdda
deriving DecidableEq, Repr, Inhabited

/-- A domain woken on demand in HOLD (R357). -/
inductive WakeDomain where
  | drills | arrays | bias
deriving DecidableEq, Repr, Inhabited

/-- The registers through which sticky fault bits are cleared (R418, R474). -/
inductive FaultReg where
  | sticky0 | sticky1 | backup
deriving DecidableEq, Repr, Inhabited

/-- The condition of a physical OTP bit (R443). -/
inductive OtpBit where
  | unprogrammed | marginal | programmed
deriving DecidableEq, Repr, Inhabited

/-- How far an OTP operation or counter programming came when it ended (R445, R450, R455): `none` is to its end,
`some k` is that pulses completed on only the first k physical bits in its order (the bit after them, where `marginalNext`
holds, was left marginal). `weak` are places in that order of bits that still read 0 against normal after 8 pulses (R452). -/
structure OtpEnd where
  completed : Option Nat
  marginalNext : Bool
  weak : List Nat
deriving DecidableEq, Repr, Inhabited

/-- What sensing the factory region meets at start-up (R442, R456). -/
structure DeliverySense where
  /-- Bits that have come to read otherwise since the last delivery: bit i of word k at place 39k + i, then the test bits. -/
  flips : List (Fin 13312)
deriving DecidableEq, Repr, Inhabited

/-- What comes in at RPRX (R259, R261). -/
inductive PortInput where
  /-- Bytes as the receiver has taken them. -/
  | bytes (l : List Byte)
  /-- The lead itself from now on, after at least one bit period of mark: its levels in turn, true for mark, and how many SCLK each
  lasts. It ends in mark. -/
  | line (l : List (Bool × Nat))
deriving DecidableEq, Repr, Inhabited

/-- A single die-bridge write of the rail-enable word that E0 attempts, or a disturbance of its copies (R334). -/
inductive EnableWrite where
  /-- The three copies as they stand on two consecutive crystal cycles. -/
  | copies (a b c : BitVec 9)
  /-- A write of all three copies by E0. -/
  | write (word : BitVec 9)
deriving DecidableEq, Repr

/-- The commands: one constructor per row of the table, in the table's order. -/
inductive Instr where
  /-- HELLO (R375). -/
  | hello (l : Letter)
  /-- READ (R376). -/
  | read (l : Letter)
  /-- WRITE (R376). -/
  | write (l : Letter)
  /-- COLLECT (R380). -/
  | collect (l : Letter)
  /-- COLLECT_ARBITRATION (R380): the house numbers of the other devices that compete. -/
  | collectArbitration (others : List (BitVec 4))
  /-- WHY (R378). -/
  | why (l : Letter)
  /-- UPDATE (R196). -/
  | update (l : Letter)
  /-- RESTATE (R205). -/
  | restate (l : Letter)
  /-- STAGE (R182). -/
  | stage (l : Letter)
  /-- REQ_RUN (R347). -/
  | reqRun (via : Via) (form : ReqForm)
  /-- REQ_SLOW (R353). -/
  | reqSlow (via : Via) (form : ReqForm)
  /-- REQ_HOLD (R349). -/
  | reqHold (via : Via) (form : ReqForm)
  /-- REQ_DORMANT (R354). -/
  | reqDormant (via : Via) (form : ReqForm)
  /-- WAKE_FRAME (R386): the rises taken and the bits shifted in. -/
  | wakeFrame (rises : Nat) (frame : BitVec 16)
  /-- LETTER_GAP (R362). -/
  | letterGap
  /-- REPLY_CUT_SHORT (R372): whether the device was driving the lanes. -/
  | replyCutShort (driving : Bool)
  /-- REPLY_DROPPED (R370). -/
  | replyDropped
  /-- SEC_KEY (R401). -/
  | secKey (via : Via) (data : Word)
  /-- ALM_OPEN (R182). -/
  | almOpen (via : Via)
  /-- ALM_CLOSE (R182). -/
  | almClose (via : Via)
  /-- ALM_COMMIT (R185). -/
  | almCommit (via : Via)
  /-- ALM_ABORT (R182). -/
  | almAbort (via : Via)
  /-- ALM_VALIDATION_DONE (R181). -/
  | almValidationDone
  /-- ALM_DRAIN_END (R185). -/
  | almDrainEnd
  /-- ALM_COPY_DONE (R185): whether the CRC recomputed on the bytes written matched (R186). -/
  | almCopyDone (crcMatches : Bool)
  /-- ALM_RECHECK_PASS (R189): whether the pass agreed with the stored CRC. -/
  | almRecheckPass (agrees : Bool)
  /-- PGH_CANCEL (R204). -/
  | pghCancel (via : Via) (scope : PghScope)
  /-- PGH_RELEASE (R200). -/
  | pghRelease (via : Via) (scope : PghScope)
  /-- HIST_CLR (R218). -/
  | histClr (via : Via) (scope : PghScope)
  /-- DRL_TEST (R155). -/
  | drlTest (via : Via) (op : AliasOp) (data : Word)
  /-- DRILL_ROTATE (R155). -/
  | drillRotate
  /-- DRILL_SELF_TEST_DONE (R156): bit d of `which`, drill d's test ends; bit d of `passed`, its outcome. -/
  | drillSelfTestDone (which passed : BitVec 16)
  /-- RAIL_TRIM (R309). -/
  | railTrim (via : Via) (op : AliasOp) (rail : Fin 8) (data : Word)
  /-- VCOM_TRIM (R119). -/
  | vcomTrim (via : Via) (op : AliasOp) (sel : Sel 8) (data : Word)
  /-- VCOM_EN (R120). -/
  | vcomEn (via : Via) (op : AliasOp) (data : Word)
  /-- AUX_EN (R316). -/
  | auxEn (via : Via) (op : AliasOp) (sel : Sel 4) (data : Word)
  /-- LSW_EN (R318). -/
  | lswEn (via : Via) (op : AliasOp) (sel : Sel 4) (data : Word)
  /-- LED_DIM (R321). -/
  | ledDim (via : Via) (op : AliasOp) (sel : Sel 8) (data : Word)
  /-- LED_LATCH_CLEAR (R324). -/
  | ledLatchClear (via : Via) (data : Word)
  /-- WBUD (R234). -/
  | wbud (via : Via) (op : AliasOp) (data : Word)
  /-- FORCE_HOT (R231). -/
  | forceHot (via : Via) (op : AliasOp) (sel : Sel 64) (data : Word)
  /-- RTC_LOAD (R425). -/
  | rtcLoad (via : Via)
  /-- DST_FORWARD (R426). -/
  | dstForward (via : Via)
  /-- DST_BACK (R426). -/
  | dstBack (via : Via)
  /-- OTP_PROGRAM (R445). -/
  | otpProgram (via : Via)
  /-- OTP_STEP (R450). -/
  | otpStep (via : Via)
  /-- OTP_MARGIN (R453). -/
  | otpMargin (via : Via)
  /-- LC_STEP (R458). -/
  | lcStep (via : Via) (op : AliasOp) (data : Word)
  /-- OTP_OP_DONE (R453). -/
  | otpOpDone (e : OtpEnd)
  /-- FLT_INJ (R477). -/
  | fltInj (via : Via) (op : AliasOp) (data : Word)
  /-- INJECT_END (R477). -/
  | injectEnd
  /-- FAULT_CLEAR (R474). -/
  | faultClear (via : Via) (reg : FaultReg) (data : Word)
  /-- POSTED_WRITE_LAND (R394): the block. -/
  | postedWriteLand (block : Fin 16)
  /-- GUARDED_WRITE_REPLY (R403). -/
  | guardedWriteReply
  /-- ON_DEMAND_WAKE_DONE (R357). -/
  | onDemandWakeDone
  /-- DOMAIN_REHOLD (R357). -/
  | domainRehold (d : WakeDomain)
  /-- FRAME_BOUNDARY (R28). -/
  | frameBoundary
  /-- START_SET (R212). -/
  | startSet (i : StartInput)
  /-- ROW_LATCH (R136). -/
  | rowLatch (i : RowInput)
  /-- AGING_TICK (R150): bits of the frame store that flipped before its pass. -/
  | agingTick (flips : List BitFlip)
  /-- HEADLAND_DONE (R123): the four conversions and whether GX4 stood at VGL within 0.2 V. -/
  | headlandDone (codes : Vector (BitVec 12) 4) (gx4AtVgl : Bool)
  /-- SLOW_ROUND_SLOT (R221). -/
  | slowRoundSlot (i : SlotInput)
  /-- GRACE_END (R236). -/
  | graceEnd (c : Graced)
  /-- VIN_RETURN (R355). -/
  | vinReturn
  /-- BACKUP_ALIVE (R423): whether it is VIN that supplies it. -/
  | backupAlive (vinValid : Bool)
  /-- VIN_LOSS (R437). -/
  | vinLoss
  /-- VIN_OV (R338). -/
  | vinOv
  /-- RESET_N_ASSERT (R488). -/
  | resetNAssert
  /-- RESET_N_RELEASE (R480). -/
  | resetNRelease
  /-- SEAL_N_CHANGE (R402): the new filtered level. -/
  | sealNChange (asserted : Bool)
  /-- RAIL_POWER_GOOD (R330). -/
  | railPowerGood
  /-- RAIL_PG_TIMEOUT (R330). -/
  | railPgTimeout
  /-- RAIL_DISCHARGED (R331). -/
  | railDischarged
  /-- DISCH_TIMEOUT (R331). -/
  | dischTimeout
  /-- VGL_HOLD_EXPIRY (R331). -/
  | vglHoldExpiry
  /-- VCOM_RAMP_END (R120). -/
  | vcomRampEnd
  /-- PLAN_AUX_PG (R335). -/
  | planAuxPg
  /-- AUX_PG_TIMEOUT (R335). -/
  | auxPgTimeout
  /-- PLAN_DELAY_END (R335). -/
  | planDelayEnd
  /-- AUX_RAMP_END (R316). -/
  | auxRampEnd (n : Fin 4)
  /-- HOLD_COMMIT (R349): the device's own ATTN_N causes that arise in the wake-race window, and first edges of wake frames lost in
  it (R350). Letters, alarms and attention of the registered port that fall in it are commands of their own. -/
  | holdCommit (attn lost : Nat)
  /-- HOLD_RETURN_RAILUP (R352). -/
  | holdReturnRailup
  /-- DORMANT_COMMIT (R354): the device's own ATTN_N causes that arise in the wake-race window, and first edges of wake frames lost
  in it (R350). -/
  | dormantCommit (attn lost : Nat)
  /-- RAIL_UV (R338). -/
  | railUv (edge : RailEdge)
  /-- RAIL_OV (R338). -/
  | railOv (edge : RailEdge)
  /-- RAIL_OC (R338). -/
  | railOc (edge : RailEdge)
  /-- INT_UV (R338). -/
  | intUv (rail : IntRail)
  /-- GATE_OVERLOAD (R116): the line, numbered as `GOA_STAT.LINE`. -/
  | gateOverload (line : Fin 16)
  /-- VCOM_OVERLOAD (R122). -/
  | vcomOverload (ch : Fin 8)
  /-- AUX_OC (R317). -/
  | auxOc (n : Fin 4)
  /-- AUX_OV (R317): FBn above the threshold, or back below 105 %. -/
  | auxOv (edge : AuxEdge)
  /-- AUX_UV (R317). -/
  | auxUv (n : Fin 4)
  /-- LED_SHORT (R323). -/
  | ledShort (n : Fin 8)
  /-- LED_OPEN (R324). -/
  | ledOpen (n : Fin 8)
  /-- LED_SOFTSTART_END (R322). -/
  | ledSoftstartEnd (n : Fin 8)
  /-- WATCHDOG_EXPIRY (R341). -/
  | watchdogExpiry
  /-- XTAL_LOSS (R295). -/
  | xtalLoss
  /-- PLL_UNLOCK (R288). -/
  | pllUnlock
  /-- RAIL_VOTE (R334). -/
  | railVote (w : EnableWrite)
  /-- PLL_RELOCK (R288). -/
  | pllRelock
  /-- REACTION_DECISION (R469). -/
  | reactionDecision
  /-- RECOVERY_END (R469). -/
  | recoveryEnd
  /-- METER_RECORD (R261, R266): what comes in at RPRX after the hunt's present place. -/
  | meterRecord (input : PortInput)
  /-- SIGNATURE_CHECK_DONE (R267). -/
  | signatureCheckDone
  /-- KEPT_RECORD_WRITTEN (R268). -/
  | keptRecordWritten
  /-- RECORD_REQUEST (R269). -/
  | recordRequest
  /-- RENDER_DONE (R277). -/
  | renderDone
  /-- STALE_EXPIRY (R274). -/
  | staleExpiry
  /-- RECHECK_DONE (R486). -/
  | recheckDone
  /-- RTC_TICK (R424). -/
  | rtcTick
  /-- GAUGE_TEST_START (R433). -/
  | gaugeTestStart
  /-- GAUGE_TEST_DONE (R433): V0, V1 and V20 in 2 mV units. -/
  | gaugeTestDone (v0 v1 v20 : Nat)
  /-- VBAK_CUTOFF (R422). -/
  | vbakCutoff
  /-- VBAK_RESTORE (R421). -/
  | vbakRestore
  /-- XTAL_RUNNING (R286). -/
  | xtalRunning
  /-- OTP_DELIVERY_DONE (R456). -/
  | otpDeliveryDone (d : DeliverySense)
  /-- STRAP_READ_DONE (R62): four results of the converter for each of the twelve straps (R59). -/
  | strapReadDone (codes : Vector (Vector (BitVec 12) 4) 12)
  /-- PLL_LOCK (R287). -/
  | pllLock
  /-- E0_BOOT (R482). -/
  | e0Boot
  /-- E0_RUN (R482). -/
  | e0Run
  /-- LINK_UP (R482). -/
  | linkUp
  /-- STARTUP_COMPLETE (R484). -/
  | startupComplete
  /-- DELIVERY_TIME_LIMIT (R439). -/
  | deliveryTimeLimit
  /-- VBAK_LOW (R439). -/
  | vbakLow
  /-- BACKUP_RUN_IDLE_END (R440). -/
  | backupRunIdleEnd
  /-- BACKUP_RUN_TIME_END (R440). -/
  | backupRunTimeEnd
  /-- VIN_OV_FALLING (R469). -/
  | vinOvFalling
  /-- NO_RELOCK (R312). -/
  | noRelock
  /-- SUPPLY_OK_CHANGE (R455): whether VIN now lies within 11.5 V to 26.0 V, off backup. -/
  | supplyOkChange (ok : Bool)
  /-- RECORD_GAP (R266). -/
  | recordGap
  /-- CHARGER_FULL (R431). -/
  | chargerFull
  /-- CHARGING_RESUMES (R431). -/
  | chargingResumes
deriving DecidableEq, Repr

end Sys2Proof
end

