-- ==== Sys2Proof/WellFormed.lean ====
section
/-! DEFINITION. Which commands are well formed: what the world outside hands in names each place once and lies in the
range its quantity has. Letters of any content are well formed: the device answers bad ones (R365). -/

namespace Sys2Proof

/-- A list of places, strictly rising, all below a bound. -/
def rising (bound : Nat) : List Nat → Bool
  | [] => true
  | [a] => decide (a < bound)
  | a :: b :: l => decide (a < b) && rising bound (b :: l)

/-- Groups of the frame store: 2,048 rows of 768 (R89). -/
def groupBound : Nat := 2048 * 768

/-- Cells of the ledger: 512 rows of 768 (R96). -/
def cellBound : Nat := 512 * 768

/-- A charge list names each segment and rail at most once, and nothing beyond a row's possible charge (R110). -/
def chargeOk (l : List Charge) : Bool := (l.map (fun c => (c.seg, c.rail))).Nodup

/-- Flips lie in the frame store. -/
def flipsOk (l : List BitFlip) : Bool := l.all (fun x => decide (x.group < groupBound))

/-- Flips lie in the ledger. -/
def cellFlipsOk (l : List LedgerFlip) : Bool := l.all (fun x => decide (x.cell < cellBound))

/-- A row's input (R91, R97, R110, R142): a drill's heartbeat is listed once, and a failed repeat is a repeat. -/
def RowInput.wf (i : RowInput) : Bool :=
  flipsOk i.flips && flipsOk i.lateFlips && cellFlipsOk i.ledgerFlips && chargeOk i.charge
    && rising 14 (i.heartbeats.map (fun x => x.drill.val)) && (i.bridgeFail.isNone || decide (0 < i.repeats))

/-- A start writer's input. -/
def StartInput.wf (i : StartInput) : Bool := flipsOk i.flips && cellFlipsOk i.ledgerFlips

/-- A slot's result: a code of 16 bits, a temperature of 16 signed bits or a voltage in mV of as many (R223, R326). -/
def SlotInput.wf (i : SlotInput) : Bool := decide (-32768 ≤ i.reading) && decide (i.reading ≤ 65535)

/-- The house numbers that compete are not repeated (R66, R380). -/
def othersWf (l : List (BitVec 4)) : Bool := l.Nodup

/-- Well-formed commands. -/
def Instr.wf : Instr → Bool
  | .collectArbitration l => othersWf l
  | .rowLatch i => i.wf
  | .startSet i => i.wf
  | .agingTick l => flipsOk l
  | .slowRoundSlot i => i.wf
  | _ => true

end Sys2Proof
end

