-- ==== Sys2Proof/Config.lean ====
section
/-! DEFINITION. What the silicon fixes and the manual does not state, and the free values: opaque constants without a
body, so that nothing can be proved of their values. Each is named in the assumption log. -/

namespace Sys2Proof.Config

/-- A free bit, by the place in the model's own counter (log 4). -/
opaque freeBit : Nat → Bool

/-- A free number, by the place in the model's own counter (log 4). -/
opaque freeNat : Nat → Nat

/-- A free signed number, by the place in the model's own counter (log 4). -/
opaque freeInt : Nat → Int

/-- Which neighbour a value between two representable ones is held as, by place of use, numerator and denominator: the
spec states no rounding there (log 4). -/
opaque roundUp : Nat → Int → Nat → Bool

/-- T_NTC for thermistor data whose formula gives no temperature: code, NTC_RNOM, NTC_BETA (R223; log 4). -/
opaque ntcUnstated : Nat → Nat → Nat → Int

/-- Which of several diodes that read the same highest temperature gives T_DIE, by the mask of those diodes: the spec does not
say (R244; log 4). -/
opaque dieTie : Nat → Nat

/-- `ID_REV`, per silicon (R412; log 10). -/
opaque idRev : Word

/-- Data of the factory region's words 0 to 62 and 64 to 255, as the production tester programmed them (R442; log 10). -/
opaque factoryWord : Nat → Word

/-- The factory region's test bits, as programmed (R442; log 10). -/
opaque factoryTest : BitVec 3328

/-- `ID_SERIAL0` and `ID_SERIAL1`, from words 64 to 255 as E0 reads them; where they lie there is not stated (R412, R442; log 10).
-/
opaque serial0 : List Word → Word
opaque serial1 : List Word → Word

/-- `RTC_COMP`, from words 0 to 62 as delivered (R419, R456; log 10). -/
opaque rtcComp : List Word → Word

/-- CURV of R297, in µV/K², from words 0 to 62 as delivered (R456; log 10). -/
opaque curv : List Word → Int

/-- A pixel of the glyph ROM: font, code, row and column of the cell (R271, R413; log 11). -/
opaque glyph : Nat → Nat → Nat → Nat → Bool

/-- Test controls: the reserved bits of a register in full decode before any factory test (R392; log 12). -/
opaque testControl : Nat → Word

/-- The firmware ROM's images, by image number and address: E0's, E1's and the drills' (R21; log 107). -/
opaque romImage : Nat → Nat → BitVec 20

end Sys2Proof.Config
end

