-- ==== Sys2Proof/Machine/State.lean ====
section
/-! DEFINITION. The state of the SDZ3072-CF as plain data, block by block, the reasons a command can stop, and the
state after reset. Each structure names the rules of spec/ that give its fields. -/

namespace Sys2Proof.Machine

/-! ### Shared shapes -/

/-- A triplicated field: three copies, read as the bitwise majority (R14). -/
structure Trip (w : Nat) where
  a : BitVec w
  b : BitVec w
  c : BitVec w
deriving DecidableEq, Repr, Inhabited

/-- A rectangle of the panel in pixels: rows from `row0`, columns from `col0` (R194, R206). -/
structure Rect where
  row0 : Nat
  height : Nat
  col0 : Nat
  width : Nat
deriving DecidableEq, Repr, Inhabited

/-! ### 03_straps, 01_architecture -/

/-- The strap block: bins in three copies, raw readings, flags and the count of votes (R59 to R63). -/
structure StrapState where
  bins : Vector (Trip 4) 12
  raw : Vector (BitVec 14) 12
  margin : BitVec 12
  rsvd : Bool
  /-- `STRAP_VOTE`. -/
  votes : Nat
deriving DecidableEq, Repr

/-! ### 04_pixel_word_and_memories -/

/-- Owner and ownership epoch of a bank (R94). Owner 0 is no drill. -/
structure Bank where
  owner : Nat
  epoch : BitVec 8
deriving DecidableEq, Repr, Inhabited

/-- Visits of an aging pass: the rows, the tick's number, k of R87 in the first pass after HOLD. -/
structure AgeVisit where
  rows : List Nat
  tick : Nat
  hold : Option (Fin 4)
deriving DecidableEq, Repr, Inhabited

/-- An engine's local store of 16 Kwords (R21): its image with the words that patches replaced, or cleared. -/
structure Store where
  loaded : Bool
  patch : SMap (Option (BitVec 20))
deriving DecidableEq, Repr, Inhabited

/-- Frame store, ledger memory and their counters (R78 to R101). -/
structure MemState where
  /-- Pixel words by row × 3,072 + column; an unlisted pixel holds 0xF_FC06 (R88). -/
  pixels : SMap PixelWord
  /-- Ledger words by cell number; an unlisted cell holds 0x0000 (R97, R100). -/
  ledger : SMap LedgerWord
  /-- Stored bits that have flipped since their group or word was last written, by group and by cell: the 88 bits of a group
  with its check bits, the 17 of a ledger word with its parity bit (R89, R91, R97). -/
  flips : SMap (BitVec 88)
  ledgerFlip : SMap (BitVec 17)
  banks : Vector Bank 128
  /-- `FS_SEC_CNT`, `FS_DED_CNT`, `DRL_STALE`. -/
  secCnt : Nat
  dedCnt : Nat
  stale : Nat
  /-- `FS_DED_LOC`: row and group in the row of the last uncorrectable group; none: none met yet. -/
  dedLoc : Option (Nat × Nat)
  /-- `LDG_SAT_CNT`, `LDG_PERR_CNT` and their sticky bits in `LDG_STAT`. -/
  satCnt : Nat
  perrCnt : Nat
  satFlag : Bool
  perrFlag : Bool
  /-- A cell has saturated in the frame in progress (R99). -/
  satNow : Bool
  /-- Crystal-timed aging: time of tick 0, number of the next tick, HOLD's k to be applied (R87, R150). -/
  tickBase : Option Nat
  tickNum : Nat
  holdAge : Option (Fin 4)
  /-- Rows whose visit by the last aging pass waits for the scan's lock (R154). -/
  ageWait : Option AgeVisit
  /-- Rows whose visit by the last scrub pass waits for the scan's lock (R151, R154). -/
  scrubWait : List Nat
  /-- `BRG_PERR` (R19). -/
  brgPerr : Nat
deriving DecidableEq, Repr

/-! ### 05_panel_outputs -/

/-- The panel timing words in use (R103, R127, R158). -/
structure TimingWords where
  gOn : Nat
  gOff : Nat
  zp : Nat
  scheme : Fin 4
  overlap : Bool
  gxLevel : BitVec 4
  vcomHalf : Nat
  hlMask : BitVec 8
  hlLo : Vector Nat 8
  hlHi : Vector Nat 8
  /-- ROW_T and SLOW_ROW_T as clamped; slow 0 forbids slow scan. -/
  rowT : Nat
  slowRowT : Nat
deriving DecidableEq, Repr

/-- What a VCOM channel's amplifier does (R120). -/
inductive VcomPhase where
  /-- High impedance. -/
  | off
  /-- Ramping from 0 V to its trimmed value, until the time given. -/
  | rampUp (endAt : Nat)
  /-- At its trimmed value after a ramp, until the next boundary gives it the frame's phase. -/
  | atTrim
  /-- In phase A or B of the frame. -/
  | run
  /-- Ramping to 0 V, until the time given. -/
  | rampDown (endAt : Nat)
  /-- Driven to 0 V during rail-down (R47). -/
  | zero
deriving DecidableEq, Repr, Inhabited

/-- One VCOM channel (R117 to R122). -/
structure VcomCh where
  /-- `VCOM_TRIM[n]` as last landed, when it landed and the value it replaced; the code in use since the last boundary
  (R119). -/
  trim : Nat
  trimAt : Nat
  trimWas : Nat
  code : Nat
  phase : VcomPhase
  clip : Bool
  ovl : Bool
deriving DecidableEq, Repr, Inhabited

/-- Class of a headland reading (R124), coded as `HL_STAT` shows it. -/
inductive HlClass where
  | good | open | high | low
deriving DecidableEq, Repr, Inhabited

/-- One headland loop (R123, R124). -/
structure Headland where
  ohm : Nat
  cls : HlClass
  suspect : Bool
deriving DecidableEq, Repr, Inhabited

/-- Panel outputs: VCOM, headland loops, gate-on-array record, charge counters, source codes (R102 to R125). -/
structure PanelState where
  words : TimingWords
  /-- `VCOM_EN` as written. -/
  vcomEn : Word
  vcom : Vector VcomCh 8
  headland : Vector Headland 8
  /-- Loop under measurement in this frame's blanking, 0 to 7 (R123). -/
  hlNow : Option (Fin 8)
  /-- First of the four conversion periods of the last measurement begun: its time (R222). -/
  hlFrom : Option Nat
  /-- `GOA_STAT.LINE` of the last overload and whether one was recorded (R116). -/
  goaLine : BitVec 4
  goaSeen : Bool
  /-- `VCOM_GROUP` and `QC_SEL` (R416). -/
  vcomGroup : BitVec 8
  qcSel : Word
  /-- Running charge counters [segment][rail]; counts latched per plot in this frame; those of the last completed
  frame, which `QC_SEG` shows (R110, R219, R416). -/
  qRun : Vector (Vector Nat 6) 8
  qPlot : Vector (Vector Nat 6) 64
  qLast : Vector (Vector Nat 6) 64
  /-- Drive codes latched in the row in progress, by column; unlisted: code 0. All float under R20. -/
  srcCodes : SMap (BitVec 3)
  srcFloat : Bool
  /-- Those of the row before: a source whose code differs breaks before it makes (R102). -/
  prevCodes : SMap (BitVec 3)
  prevFloat : Bool
  /-- Columns making a zero pass in the row in progress (R104). -/
  zeroPass : List Nat
deriving DecidableEq, Repr

/-! ### 06_scan_and_drills -/

/-- Role of a drill (R134). -/
inductive DrillRole where
  | active | spare | testing | quarantined | failed
deriving DecidableEq, Repr, Inhabited

/-- A unit of candidate cells offered by a sweep (R249). -/
structure Offer where
  /-- First cell number, number of cells, negative integral, largest magnitude, drill that offers, and when its last cell was
  found. -/
  cell : Nat
  count : Nat
  neg : Bool
  mag : Nat
  drill : Nat
  at_ : Nat
deriving DecidableEq, Repr, Inhabited

/-- What a completed sweep leaves of a stripe (R247, R255): cells beyond the bound, UNBALANCED, WINDOW; largest magnitude, its cell
and sign. -/
structure SweepCounts where
  overN : Nat
  unbal : Nat
  win : Nat
  peakMag : Nat
  peakCell : Nat
  peakNeg : Bool
deriving DecidableEq, Repr, Inhabited

/-- No sweep completed. -/
def SweepCounts.none : SweepCounts := { overN := 0, unbal := 0, win := 0, peakMag := 0, peakCell := 0, peakNeg := false }

/-- One of E2 to E15 (R131 to R148, R246 to R249). -/
structure Drill where
  role : DrillRole
  slot : Nat
  miss : Nat
  /-- Declared dead in this frame and fenced (R143). -/
  fenced : Bool
  /-- Epoch last given to it for every in-use bank (R135, R144). -/
  epoch : BitVec 8
  /-- End of its aging pass (R150). -/
  passTo : Nat
  /-- Deferral list (R248). -/
  defer : List Nat
  /-- The last sweep, which ends at `sweepTo`, and the one before it. -/
  sweep : SweepCounts
  sweepTo : Nat
  before : SweepCounts
deriving DecidableEq, Repr, Inhabited

/-- Result code of `DRL_TEST.RESULT` (R155, R156, 18_register_map). -/
inductive TestResult where
  | none | running | pass | fail | noSpare | notEligible | busy
deriving DecidableEq, Repr, Inhabited

/-- Drills' service (R131, R147, R148, R155 to R157). -/
structure DrillsState where
  /-- E2 to E15 at places 0 to 13. -/
  drill : Vector Drill 14
  /-- Start-up's A, and whether the start-up test of all drills is running (R131). -/
  aStart : Nat
  startTest : Bool
  /-- Drill engine number asked to give its slot to a spare at the next boundary for a test (R155). -/
  swap : Option Nat
  /-- Engine numbers whose test runs, and when each began; the one whose outcome a request waits for (R156). -/
  running : List (Nat × Nat)
  asked : Option Nat
  /-- `DRL_TEST.DRILL`, `DRL_TEST.RESULT`, `DRL_CTL` as written. -/
  testDrill : Nat
  result : TestResult
  ctl : Word
  /-- Last drill rotation requested, and when ROTATE's 60 s began. -/
  rotateLast : Nat
  rotateAt : Nat
  /-- Units offered by this frame's sweeps (R250). -/
  offers : List Offer
deriving DecidableEq, Repr

/-- The scan (R127 to R130, R136, R141, R158). -/
structure ScanState where
  scanning : Bool
  /-- An orderly start waits for its first boundary since the time given (R130). -/
  startDue : Option Nat
  /-- `SCAN_FRAME`; no boundary yet since start-up (R129). -/
  frame : Word
  fresh : Bool
  /-- Time zero of the last frame boundary; row slots latched since, 0 to L. -/
  boundaryAt : Nat
  slot : Nat
  /-- Where the panel-converter grid, the auxiliary grid and the PWM run freely from while the scan is stopped (R291). -/
  gridFrom : Nat
  auxGridFrom : Nat
  pwmFreeFrom : Nat
  startSetDone : Bool
  /-- Row time in use, and slow scan. -/
  rowT : Nat
  slow : Bool
  /-- First frame after a start of the scan: E_P = 0 (R130, R220). -/
  firstFrame : Bool
  /-- Row reports of the frame in progress: rows missed, groups lost, pixels completed (R141). -/
  missed : List Nat
  lost : List Nat
  completed : Nat
  /-- Last whole frame: every row delivered and no pixel left ACTIVE (R185, R353). -/
  cleanLast : Bool
  /-- The first frame after an almanac loss cancels every ACTIVE pixel (R189). -/
  cancelAll : Bool
  /-- Readback of the frame in progress: failed window pixels (R280, R281). -/
  rbFailed : Nat
deriving DecidableEq, Repr

/-! ### 07_almanac -/

/-- State of a load (R182). -/
inductive AlmLoad where
  | idle | staging | checking | staged | draining
deriving DecidableEq, Repr, Inhabited

/-- Result of validation (R181). -/
inductive AlmCheck where
  | pass | invalid | wrongClass
deriving DecidableEq, Repr, Inhabited

/-- Almanac RAM, loading and recheck (R160 to R190). -/
structure AlmState where
  /-- Committed container in the almanac RAM; none: the ROM almanac (R188). -/
  image : Option (Array Byte)
  /-- Source of the tables the thermal model uses, changed at the boundary after D (R185, R233). -/
  thermal : Option (Array Byte)
  thermalDue : Bool
  /-- The panel timing words of the almanac in use take effect at the next boundary (R103, R186, R187). -/
  wordsDue : Bool
  /-- Band log by slot × 64 + plot; unlisted: band 11 (R167, R168). -/
  bandLog : SMap (BitVec 4)
  load : AlmLoad
  staged : Array Byte
  /-- `ALM_STAT.STAGED_BYTES`. -/
  stagedBytes : Nat
  stagedPages : List Nat
  check : Option AlmCheck
  /-- When CLOSE, COMMIT were accepted; `ALM_STAT.DRAIN_FRAMES`. -/
  since : Nat
  drainFrames : Nat
  /-- Counter programming for R184 not yet complete. -/
  ctrBusy : Bool
  /-- Starts have stopped for a drain (R185). -/
  drainOn : Bool
  /-- Copy into the RAM in progress since D. -/
  copyAt : Option Nat
  /-- `ALM_CTL.OP` last accepted. -/
  lastOp : BitVec 2
  passes : Nat
  /-- A recheck pass differed and is being repeated (R189). -/
  suspect : Bool
  passAt : Nat
deriving DecidableEq, Repr

/-! ### 08_pigeonholes -/

/-- State of a pigeonhole (R192). -/
inductive PghSt where
  | free | pending | banding | running | done
deriving DecidableEq, Repr, Inhabited

/-- A started unit holding its commitment (R206, R208). -/
structure PghUnit where
  row0 : Nat
  height : Nat
  /-- Forecast held, pJ. -/
  commit : Nat
  /-- Frame in which it started, and its ceiling share per plot (R239): plot, pJ. -/
  frame : Word
  ceiling : List (Nat × Nat)
  complete : Bool
deriving DecidableEq, Repr, Inhabited

/-- Payload in the mailroom: its FORMAT, its pages in chain order and its bytes (R199). -/
structure Payload where
  format : Nat
  pages : List Nat
  bytes : Array Byte
deriving DecidableEq, Repr, Inhabited

/-- One pigeonhole: descriptor fields of R194 and E1's working state. -/
structure Pgh where
  row0 : Nat
  height : Nat
  colg0 : Nat
  widg : Nat
  mode : Fin 4
  preempt : Bool
  format : Fin 4
  prio : Fin 4
  keep : Bool
  ref : Bool
  source : Nat
  page : Nat
  ticket : Nat
  restate : Bool
  waited : Nat
  nextRow : Nat
  bandH : Nat
  state : PghSt
  pixelLost : Bool
  preempted : Bool
  cancelled : Bool
  /-- Cancelled while BANDING or RUNNING: `cancelled` shows it once it reaches DONE (R204). -/
  cancelling : Bool
  /-- Payload it draws: stored for it, or with REF set a copy of what its source keeps. -/
  payload : Option Payload
  /-- Kept payload of an earlier letter, which this letter, bringing none of its own, leaves stored (R200). -/
  own : Option Payload
  /-- Split into row bands (R211). -/
  split : Bool
  units : List PghUnit
  /-- Start sets since the first at which it was eligible (R213). -/
  since : Nat
  /-- Start sets since a hidden unit was filled (R215). -/
  age : Nat
  /-- When its letter was accepted (R197). -/
  acceptedAt : Nat
  /-- A cancel waits for a sieve window, or waits only to free a kept payload (R204, R200). -/
  cancelWaits : Bool
  freeWaits : Bool
  /-- It has had its first start set and is to be DONE at the next boundary (empty, restate). -/
  doneDue : Bool
deriving DecidableEq, Repr, Inhabited

/-- A window of the sieve (R203, R204). -/
structure SieveWin where
  pgh : Nat
  cancel : Bool
  rect : Rect
  /-- TICKET of its pigeonhole. -/
  ticket : Nat
deriving DecidableEq, Repr, Inhabited

/-- Pigeonholes, mailroom, sieve and scheduler (R191 to R218). -/
structure PghState where
  /-- By number: 0 to 2,047 host band, 2,048 + i for hidden H_i; unlisted: FREE with its descriptor at zero. -/
  tab : SMap Pgh
  /-- Next TICKET, modulo 32,768. -/
  ticket : Nat
  sieve : Vector (Option SieveWin) 32
  /-- Pigeonhole 0's own window (R203). -/
  sieve0 : Option SieveWin
  index : Word
  cfg : Word
  /-- `PGH_LOAD` as at the last start set. -/
  loadPending : Nat
  overload : Bool
  deferAge : Bool
  deferLdg : Bool
  load : Nat
  /-- `PGH_EAVAIL`, `PGH_COMMIT` in µJ. -/
  eavail : Nat
  commit : Nat
  lat : Vector Nat 8
  done : Vector Word 64
  /-- B of the frame in progress, pJ (R209, R241). -/
  budget : Nat
deriving DecidableEq, Repr

/-! ### 09_thermal_plots -/

/-- State of a thermistor as `THERM_NTC.STATE` codes it (R226). -/
inductive NtcSt where
  | good | open | short | awaiting
deriving DecidableEq, Repr, Inhabited

/-- A thermistor (R223, R226). -/
structure Ntc where
  code : Nat
  /-- T_NTC, 1/16 °C. -/
  temp : Int
  st : NtcSt
deriving DecidableEq, Repr, Inhabited

/-- A die diode (R225, R226). -/
structure Diode where
  temp : Int
  /-- It has given a reading since start-up (R225). -/
  seen : Bool
  bad : Bool
  /-- One good reading since it was bad. -/
  half : Bool
deriving DecidableEq, Repr, Inhabited

/-- A thermal plot (R219, R228 to R231, R239). -/
structure Plot where
  /-- T_P in 1/65,536 °C (R228). -/
  t : Int
  /-- Band n of R230, band published, forced. -/
  band : Nat
  pub : Nat
  forced : Bool
  clamp : Bool
  sat : Bool
  /-- E_P of the last frame, nJ (THERM_EN). -/
  e : Nat
  /-- Consecutive frames with r_P above 0. -/
  overN : Nat
  /-- `THERM_CFG[P]` as written. -/
  cfg : Word
deriving DecidableEq, Repr, Inhabited

/-- One condition of R235 with grace: in force, grace running until, enforced. -/
structure GracedCond where
  inForce : Bool
  graceTo : Option Nat
  /-- Its grace has ended, so it imposes at the next boundary. -/
  ripe : Bool
  enforced : Bool
  /-- A sensor broke while its grace ran: EASE_BUDGET is enforced already (R243). -/
  broke : Bool
deriving DecidableEq, Repr, Inhabited

/-- Thermal loop (R219 to R244). -/
structure ThermState where
  plot : Vector Plot 64
  ntc : Vector Ntc 4
  diode : Vector Diode 6
  /-- Last T_DIE read from a good diode since start-up. -/
  lastDie : Option Int
  /-- Slow round: next slot, rounds completed since start-up, time the slot in progress began. -/
  slot : Nat
  rounds : Nat
  slotAt : Nat
  slowOn : Bool
  /-- The first boundary after a completed round has set T_P (R229). -/
  started : Bool
  /-- `THERM_CTL` with WBUD clamped. -/
  ctl : Word
  group0 : Word
  group1 : Word
  hot : Bool
  sensor : Bool
  plotC : GracedCond
  dieC : GracedCond
  easeReq : Bool
  enforced : Bool
  easeChange : Bool
  impose : Nat
  /-- Enforced budget in mW, if any, and W of R209 at the last boundary. -/
  budget : Option Nat
  w : Nat
  /-- WBUD in force since the last boundary (R234). -/
  wbudNow : Nat
  eTot : Nat
  residCount : Nat
  residPlot : Nat
  /-- Runs of R240 and R241; `THERM_DIE.RISE`, BOND. -/
  bondRun : Nat
  bond : Bool
  rise : Nat
  overrun : Nat
  /-- E_TOT of the last 64 s of frames: time, nJ, frame time (R240). -/
  drive : List (Nat × Nat × Nat)
  /-- A rail drop began in this slow round (R242). -/
  roundBlank : Bool
deriving DecidableEq, Repr

/-! ### 10_dc_ledger -/

/-- Ledger registers that are not memory (R255). -/
structure LedgerState where
  deferFull : Bool
  compDone : Nat
  compQueued : Nat
  cellSel : Word
deriving DecidableEq, Repr

/-! ### 11_registered_window -/

/-- A meter record as its bytes (R263). -/
abbrev Record := List Byte

/-- A slot of the kept record in the backup domain (R268). -/
structure KeptSlot where
  record : Record
  /-- Sequence floor written with it. -/
  floor : Word
  /-- Marker valid; order of writing, larger is newer. -/
  marker : Bool
  age : Nat
deriving DecidableEq, Repr, Inhabited

/-- The status word of R274, as coded. -/
inductive RwStatus where
  | wait | idle | finl | nrsv | live | rstr | stal | fail | noky | poff | void
deriving DecidableEq, Repr, Inhabited

/-- A frame the device sends on the registered port (R269). -/
structure PortFrame where
  kind : Byte
  code : Byte
  seq : Word
deriving DecidableEq, Repr, Inhabited

/-- Which renders of the window a readback mismatch asked for: the one being typeset, the one due after it, the one that waits,
the one that fills pigeonhole 0 and the one it draws (R277, R281). -/
structure Redraw where
  typeset : Bool
  again : Bool
  waiting : Bool
  filled : Bool
  drawn : Bool
deriving DecidableEq, Repr, Inhabited

/-- No readback redraw asked for. -/
def Redraw.none : Redraw := { typeset := false, again := false, waiting := false, filled := false, drawn := false }

/-- The registered window and its port (R256 to R284). -/
structure RwState where
  /-- Window present, descriptor in use, key of the current epoch expanded (x, y), read at boot (R256, R258). -/
  present : Bool
  desc : Vector Word 8
  epoch : Nat
  key : Option (Nat × Nat)
  /-- Bytes received and not yet consumed by the hunt. -/
  rx : List Byte
  /-- Record under check, with the code orders 2 to 8 gave (none: signature decides), and when its check time ends. -/
  checking : Option (Record × Option Byte × Nat)
  /-- Record received and waiting for its check time. -/
  waiting : Option Record
  /-- Sequence floor in force (R268). -/
  floor : Word
  /-- Record drawn: last verified or restored (R273). -/
  drawn : Option Record
  restored : Bool
  /-- A record failed order 9 since the last verified one. -/
  failed : Bool
  /-- STALE has expired in the live session. -/
  stale : Bool
  lastVerified : Nat
  /-- Live session (R270). -/
  session : Option Word
  /-- POFF in force. -/
  poff : Bool
  /-- Frames sent on RPTX, newest last; a request waits for the port (R269). -/
  sent : List PortFrame
  txUntil : Nat
  /-- End of the last stop bit received (R269). -/
  rxAt : Nat
  requestDue : Option Nat
  requestWaits : Bool
  /-- Kept-record writes in progress or queued (R268). -/
  writes : List (Record × Word)
  /-- Re-check of the kept record running, and first render after start-up still due (R277, R486). -/
  recheck : Bool
  firstDraw : Bool
  boundarySeen : Bool
  /-- When the typesetting in progress ends, and its bitmap; another is due after it; bitmap waiting for pigeonhole 0;
  bitmap of pigeonhole 0 as filled; bitmap of its latest start. -/
  typesetting : Option (Nat × Array Bool)
  typesetAgain : Bool
  waitingMap : Option (Array Bool)
  filled : Option (Array Bool)
  reference : Option (Array Bool)
  /-- Buffer of the latest start: false A, true B (R276). -/
  bufB : Bool
  changeDue : Bool
  /-- Registered-port attention: a verified record's drawing has not started (R279). -/
  attention : Bool
  /-- Readback: where redraws stand, their run, last redraw's DONE frame, stuck (R281). -/
  redraw : Redraw
  rbRun : Nat
  rbDoneAt : Option Word
  stuck : Bool
  /-- Registers of R284. -/
  statusShown : RwStatus
  lastRej : Byte
  rejected : Nat
  verified : Nat
  abandon : Nat
  rbFrames : Nat
  rbRedraws : Nat
  rbLast : Nat
  flag : BitVec 6
  cfg : Word
  recSel : Word
  postSeal : Nat
  postRp : Nat
deriving DecidableEq, Repr

/-! ### 12_clock -/

/-- Progress of a relock after a takeover (R288). -/
inductive Relock where
  | none | running | done | failed
deriving DecidableEq, Repr, Inhabited

/-- The clock block (R286 to R298). -/
structure ClockState where
  /-- Crystal running under R286; crystal edges stopped (R295). -/
  xtalOk : Bool
  xtalStopped : Bool
  pllLock : Bool
  relock : Relock
  /-- When the PLL was last enabled again (R287, R288). -/
  relockAt : Nat
  onRc : Bool
  /-- Where a takeover stood when the crystal was lost in it: step of R342 × 16 + rail step (R296). -/
  rcStep : Option Nat
  /-- `CLK_REF`: TARGET and APPLIED in 50 µV units. -/
  target : Int
  applied : Int
deriving DecidableEq, Repr
/-! ### 13_power_tree -/

/-- Reference ramp of an auxiliary rail (R316). -/
inductive AuxRamp where
  | none
  | up (endAt : Nat)
  | down (endAt : Nat)
deriving DecidableEq, Repr, Inhabited

/-- One auxiliary buck controller (R316, R317). -/
structure Aux where
  en : Bool
  /-- `AUX_CTL.OC`; latched off until EN is cleared and set (R317). -/
  oc : Bool
  latched : Bool
  running : Bool
  pg : Bool
  /-- Its checks are armed: it has been power-good since it began to run (R338). -/
  armed : Bool
  /-- FBn is above the overvoltage threshold: HGn off, LGn held on until it falls below 105 % (R317). -/
  ov : Bool
  ramp : AuxRamp
  /-- The plan has raised it and not dropped it. -/
  raised : Bool
  /-- AUX_UV blanked until (R340). -/
  blankTo : Nat
deriving DecidableEq, Repr, Inhabited

/-- One load-switch enable (R318). -/
structure Lsw where
  en : Bool
  asserted : Bool
  raised : Bool
deriving DecidableEq, Repr, Inhabited

/-- One front-light channel (R321 to R324). -/
structure Led where
  en : Bool
  cur : Nat
  dim : Nat
  /-- Soft-starting until the time given. -/
  soft : Option Nat
  /-- Set on by its values as written. -/
  on : Bool
  /-- Start of the PWM period at which the last change takes effect; what was in force until then (R321). -/
  due : Nat
  onWas : Bool
  curWas : Nat
  dimWas : Nat
  short : Bool
  openL : Bool
deriving DecidableEq, Repr, Inhabited

/-- The power tree (R299 to R328). -/
structure TreeState where
  vinValid : Bool
  vinOv : Bool
  startReg : Bool
  /-- RAIL_SET.SET, triplicated; pump mode fixed at start-up (R304). -/
  railSet : Trip 4
  pump : Nat
  /-- Field trims as landed and in use, 0.1 % (R309), rails in the order of `RAIL_TRIM`. -/
  trim : Vector Int 8
  trimNow : Vector Int 8
  /-- When each trim landed, and the value it replaced: one that lands in a boundary's cycle waits for the next (R327). -/
  trimAt : Vector Nat 8
  trimWas : Vector Int 8
  pg : BitVec 8
  disch : BitVec 8
  railsUp : Bool
  /-- PWR_MEAS[10] to [31]. -/
  meas : Vector Int 22
  aux : Vector Aux 4
  auxGroup : BitVec 4
  lsw : Vector Lsw 4
  lswGroup : BitVec 4
  led : Vector Led 8
  ledGroup : BitVec 8
  ratio : Nat
  /-- The factor s of R325 in 1/32,768, and whether P exceeds 8.0 W. -/
  scale : Nat
  pclamp : Bool
  /-- P of R325 where it exceeds 8.0 W, in µW × 4,096; 0: no factor. -/
  power : Nat
  /-- FLFB is at overvoltage (R319). -/
  boostOv : Bool
deriving DecidableEq, Repr

/-! ### 14_sequencing_and_supervision -/

/-- A step of a sequence plan (R335): raise AUXn, assert LSWn_N (n from 0), or a delay in ms. -/
inductive PlanStep where
  | aux (n : Fin 4)
  | lsw (n : Fin 4)
  | delay (ms : Nat)
deriving DecidableEq, Repr, Inhabited

/-- `SEQ_STAT.PHASE` (R346). -/
inductive SeqPhase where
  | idle | plan | railUp | up | railDown | items | delivery | hedge
deriving DecidableEq, Repr, Inhabited

/-- What follows a rail-down when its last step ends (R337, R342, R343, R349, R354, R438, R469). -/
inductive After where
  | nothing | hold | dormant | reaction | dark | hedge | reset | delivery
deriving DecidableEq, Repr, Inhabited

/-- How the plan list in progress is being run (R337). -/
inductive PlanRun where
  | none | powerUp | holdReturn | holdDrop | dormantDrop | hedgeDrop | resetDrop
deriving DecidableEq, Repr, Inhabited

/-- What `SUP_FIRST` captured (R338, R346). -/
structure SupEvent where
  source : Nat
  kind : Nat
  frame : Nat
deriving DecidableEq, Repr, Inhabited

/-- Sequencer, supervisors and hedge (R329 to R346). -/
structure SeqState where
  phase : SeqPhase
  plan : Trip 4
  /-- Plan list in progress: remaining steps, place counted from 1, when its step began. -/
  run : PlanRun
  steps : List PlanStep
  place : Nat
  stepAt : Nat
  /-- Rail step in progress, 1 to 9, of a rail-up or of a rail-down; 0 none; when it began. -/
  rising : Bool
  railStep : Nat
  railAt : Nat
  /-- Start of the rail-up or rail-down in progress; `SEQ_TIME.UP`, `SEQ_TIME.DOWN`. -/
  beganAt : Nat
  timeUp : Nat
  timeDown : Nat
  after : After
  /-- VGL held while a source rail has not discharged (R331). -/
  vglHold : Bool
  /-- Rails whose step ended by its limit: not below 1 V then (R331). -/
  stuckRails : BitVec 8
  /-- A DISCH_TIMEOUT was raised in this rail-down. -/
  dischRaised : Bool
  /-- Rail-enable word in three copies, and the word that the sequencer's stages follow (R334). -/
  enable : Trip 9
  acted : BitVec 9
  /-- Items dropped on entry to HOLD, to be raised on the return. -/
  droppedAux : BitVec 4
  droppedLsw : BitVec 4
  /-- Comparators now: current limit, above 110 %, below 90 %. -/
  oc : BitVec 8
  ov : BitVec 8
  uv : BitVec 8
  /-- Blanking ends: per rail, VCOM_OVERLOAD, GATE_OVERLOAD (R340). -/
  blankTo : Vector Nat 8
  blankOv : Vector Nat 8
  vcomBlankTo : Nat
  gateBlankTo : Nat
  first : Option SupEvent
  /-- The hedge (R341, R342): active, step, causes WDOG, XTAL, PLL, RAIL_VOTE (bits 0 to 3). -/
  hedge : Bool
  hedgeStep : Nat
  /-- When the takeover began. -/
  hedgeAt : Nat
  hedgeCause : BitVec 4
  /-- Steps of the order that still wait after VGL's: the front light, then the auxiliary items (2), the items (1), none
  (0); and when the ramps end. -/
  tail : Nat
  hedgeEnd : Nat
  /-- Last kick of E0, while the watchdog counts. -/
  kickAt : Option Nat
  /-- Rails skipped by final delivery's rail-up (R333): bit k. -/
  skip : BitVec 8
  /-- The step in progress was asked for by a write of the rail-enable word alone, so none follows it (R334). -/
  lone : Bool
deriving DecidableEq, Repr

/-! ### 15_power_states -/

/-- State or passage the device is in (R347): the eight of `PWR_STAT.STATE`, and those in which no register is served. -/
inductive PwrSt where
  | run | slow | enterHold | hold | ret | enterDormant | delivery | hedge
  /-- Reset condition and start-up before the link is up. -/
  | startup
  | dormant
  /-- Neither VIN nor VBAK. -/
  | unpowered
deriving DecidableEq, Repr, Inhabited

/-- A request of `PWR_CTL.REQ` (R347). -/
inductive PwrReq where
  | run | slow | hold | dormant
deriving DecidableEq, Repr, Inhabited

/-- `PWR_STAT.RESULT`. -/
inductive PwrResult where
  | none | accepted | refused | abandoned
deriving DecidableEq, Repr, Inhabited

/-- Power states (R347 to R360). -/
structure PwrState where
  st : PwrSt
  /-- Slow scan change accepted and waiting for its boundary (R353). -/
  change : Option Bool
  req : PwrReq
  alarmWake : Bool
  result : PwrResult
  refuser : Nat
  resume : Bool
  refuse : Vector Nat 9
  raceHeld : Nat
  raceLost : Nat
  holdT : Nat
  /-- `PWR_WAKE` bits, kept. -/
  wake : BitVec 8
  /-- `PWR_MATCH`: HOUSE, POST_A, POST_B, BAKSET. -/
  mHouse : BitVec 4
  mPostA : BitVec 4
  mPostB : BitVec 4
  mBak : BitVec 4
  /-- Entry to DORMANT without its pigeonhole wait (R354). -/
  noWait : Bool
  /-- The entry has reached its commit point; a wake event is held until it completes. -/
  committed : Bool
  held : Bool
  /-- Registered-port attention has been counted in the wake-race window, and causes of the device's own ATTN_N that arose in it
  wait until the entry completes, by bit of `NOV_ATTN` (R350). -/
  portHeld : Bool
  attnHeld : BitVec 5
  /-- When that commit point was: the wake-race window is its cycle and three more (R350). -/
  commitAt : Nat
  /-- Alarms that matched, or were found set, past the commit point of an entry to DORMANT (R350, R359). -/
  heldAlarm : BitVec 2
  /-- A return's target is slow scan; its wake event, until its rail-up has begun; when HOLD clock D began. -/
  retSlow : Bool
  retAt : Option Nat
  holdFrom : Option Nat
  /-- On-demand wakes of drills, arrays, bias: awake since last access; wake in progress until. -/
  awake : Vector (Option Nat) 3
  waking : Vector (Option Nat) 3
  /-- Domains already awake when a return began, or woken since by an access of HOLD (R357). -/
  retUp : BitVec 3
  /-- VIN has been not valid at some moment of this DORMANT (R355). -/
  vinGone : Bool
deriving DecidableEq, Repr

/-! ### 16_novlet_link, 17_register_behaviour -/

/-- A reply due or being driven (R369 to R372). -/
structure Reply where
  bytes : List Byte
  readyAt : Nat
  /-- Short reply in the house-number slot (R371). -/
  short : Bool
deriving DecidableEq, Repr, Inhabited

/-- The record of R387. -/
structure Recorded where
  typ : Byte
  tag : Byte
  crc : BitVec 16
  reply : List Byte
deriving DecidableEq, Repr, Inhabited

/-- A register letter being served (R376, R390): what is left of its range. -/
structure Serving where
  typ : Byte
  addr : Byte
  tag : Byte
  crc : BitVec 16
  write : Bool
  /-- End of the letter; its reply is still wanted: no letter has begun since. -/
  at_ : Nat
  reply : Bool
  /-- The access that waits has been counted in `REG_STAT.HELD`. -/
  held : Bool
  /-- Next register address, words still to write (or count still to read as dummy words), words read so far. -/
  next : Nat
  todo : List Word
  got : List Word
deriving DecidableEq, Repr, Inhabited

/-- A posted write in flight (R394). -/
structure Posted where
  block : Fin 16
  /-- Listed address of the register, with the alias in bits [13:12]. -/
  addr : Nat
  data : Word
  /-- Taken in full decode (R392); in the backup domain, so that a takeover does not lose it (R395). -/
  full : Bool
  backup : Bool
  /-- Lands at. -/
  due : Nat
deriving DecidableEq, Repr, Inhabited

/-- The guard groups of R400. -/
inductive Group where
  | almanac | trims | otp | test
deriving DecidableEq, Repr, Inhabited

/-- A guarded write awaiting its reply (R403). -/
structure Guarded where
  typ : Byte
  addr : Byte
  tag : Byte
  crc : BitVec 16
  /-- Listed address of the register, with the alias in bits [13:12]. -/
  reg : Nat
  data : Word
  full : Bool
  /-- Its reply is still wanted: no letter has begun since. -/
  reply : Bool
  /-- Reason found at the letter, if it is to be refused. -/
  why : Option Nat
  /-- It needs the seal, asserted in every cycle so far. -/
  needsSeal : Bool
  sealed : Bool
  due : Nat
deriving DecidableEq, Repr, Inhabited

/-- The Novlet link (R361 to R389). -/
structure LinkState where
  /-- 0 closed, 1 version 1, 2 version 2.0, 3 version 2.1. -/
  version : Nat
  recorded : Option Recorded
  lastTag : Byte
  reply : Option Reply
  /-- A collection round is in progress; this device has replied in it; it is its winner and replies now. -/
  inRound : Bool
  replied : Bool
  winner : Bool
  /-- Tag of the round's COLLECT letter. -/
  roundTag : Byte
  /-- Status of the round's COLLECT under order 5 (R365). -/
  roundStatus : Byte
  errFrame : Nat
  errCrc : Nat
  abort : Nat
  gap : Nat
  dup : Nat
  letters : Nat
  cfg : BitVec 2
  attnFault : Bool
  attnState : Bool
  serving : List Serving
deriving DecidableEq, Repr

/-- Register access, keys and seal (R390 to R406). -/
structure AccessState where
  /-- A HELLO has been accepted since start-up (R393). -/
  helloSeen : Bool
  rsvdDiff : Nat
  heldCnt : Nat
  voteCnt : Nat
  voteAddr : Nat
  armed : Option Group
  /-- Factory test mode (R392). -/
  testMode : Bool
  /-- Test controls changed in factory test mode, by address: the reserved bits' values. -/
  testCtl : SMap Word
  posted : List Posted
  guarded : List Guarded
  refusals : Nat
  why : Nat
  /-- Filtered SEAL_N asserted (R402). -/
  sealIn : Bool
  /-- Bits of W1C registers that the hardware set last, by the register's address, and when (R13). -/
  hwSet : SMap (Nat × Word)
deriving DecidableEq, Repr
/-! ### 19_rtc_and_backup -/

/-- Calendar time and date (R419, R424). -/
structure Calendar where
  sec : Nat
  min : Nat
  hour : Nat
  day : Nat
  month : Nat
  year : Nat
  weekday : Nat
deriving DecidableEq, Repr, Inhabited

/-- Real-time clock, backup selector, charger, gauge and delivery path (R421 to R441). -/
structure RtcState where
  cal : Calendar
  stageT : Word
  stageD : Word
  badSet : Bool
  alm1F : Bool
  alm2F : Bool
  /-- `RTC_ALM1`, `RTC_ALM1D`, `RTC_ALM2`, `RTC_ALM2D`. -/
  alm1 : Word
  alm1D : Word
  alm2 : Word
  alm2D : Word
  /-- Net of pending summer-time commands in hours, of those of the last landing's cycle apart, and when that was; whether
  any is pending (R426). -/
  dst : Int
  dstNew : Int
  dstAt : Nat
  dstPending : Bool
  /-- `RTC_COMP` as delivered, `RTC_ADJ`; second of the 64 s period next to complete; when the second in progress began. -/
  comp : Word
  temp : Int
  adj : Int
  period : Nat
  secondAt : Nat
  /-- SCLK of the second in progress that a stopped crystal has left (R295). -/
  subHeld : Nat
  /-- `RTC_CHG`. -/
  chgEn : Bool
  chgCur : Nat
  full : Bool
  charging : Bool
  /-- `RTC_GAUGE`, and the test in progress since. -/
  gVbak : Nat
  usable : Nat
  liveOk : Bool
  wakeOk : Bool
  testing : Option Nat
  /-- Time of the gauge test that the 64 s or 86,400 s of R433 run from. -/
  gaugeAt : Option Nat
  /-- Backup domain alive, taken from VBAK; VBAK connected (R421, R422). -/
  alive : Bool
  onBackup : Bool
  vbakConn : Bool
  /-- When the backup domain came alive (`ID_UPTIME`), in SCLK, put off by the time a stopped crystal lost; when it
  stopped. -/
  aliveAt : Nat
  stopAt : Nat
  /-- The delivery path runs: delivery switch armed, LXP1 in reverse; the VIN isolation switch is open, up to the next start-up with
  VIN valid (R435). -/
  path : Bool
  isolated : Bool
  /-- When VIN was last lost. -/
  vinLostAt : Nat
  /-- Final delivery in progress since; a backup run (R440), when completed, last letter or drawing in it. -/
  deliveryAt : Option Nat
  /-- The delivery's drawing has ended: rail-down runs. -/
  deliveryDone : Bool
  backupRun : Bool
  runDoneAt : Option Nat
  quietAt : Nat
  /-- VIN has returned during a delivery (R441). -/
  vinBack : Bool
  /-- Wake matcher armed, and RESET_N asserted / deferred until DORMANT. -/
  armed : Bool
  resetN : Bool
  resetDue : Bool
  /-- The kept record's two slots (R268). -/
  kept0 : KeptSlot
  kept1 : KeptSlot
  /-- `FLT_BAK`: XTAL_STOP, TIME_LOST, HEDGE_TAKEOVER, OTP_FAIL, OTP_HEALED. -/
  bak : BitVec 5
  /-- Causes collected since the last start-up's time zero (R481). -/
  causes : BitVec 8
deriving DecidableEq, Repr

/-! ### 20_otp_and_life_cycle -/

/-- A word of the ECC region: bits reading 1 against normal, and bits marginal (R443, R444). -/
structure OtpWord where
  bits : BitVec 39
  marginal : BitVec 39
deriving DecidableEq, Repr, Inhabited

/-- The three copies of a logical bit of the thermometer region (R442). -/
structure Thermo where
  a : OtpBit
  b : OtpBit
  c : OtpBit
deriving DecidableEq, Repr, Inhabited

/-- What an OTP operation in progress does (R450, R451, R453, R461). -/
inductive OtpOp where
  | program (word : Nat) (data : Word)
  /-- Raise the counter of the number given to a target, starting from a value. -/
  | raise (counter : Nat) (fromV : Nat) (toV : Nat)
  /-- A margin read of a counter, or of a word where the counter is 6 or 7. -/
  | margin (counter : Nat) (word : Nat)
  /-- Programming for R184. -/
  | commit (fromV : Nat) (toV : Nat)
  /-- A seal opening. -/
  | sealCount
  | heal
deriving DecidableEq, Repr, Inhabited

/-- OTP and life-cycle (R442 to R462). -/
structure OtpState where
  /-- ECC region by word; unlisted: unprogrammed. -/
  words : SMap OtpWord
  /-- Thermometer region by logical bit; unlisted: all copies unprogrammed. -/
  thermo : SMap Thermo
  /-- Bits of the factory region that read otherwise than the tester programmed them: bit i of word k at place 39k + i, then the
  3,328 test bits (R442). -/
  factory : BitVec 13312
  /-- Words 0 to 62 as last delivered to their users, and words 64 to 255 as E0 read them at boot (R442, R456). -/
  trims : List Word
  secondary : List Word
  /-- `OTP_ADDR`, `OTP_DATA`, `OTP_CTL.OP` last accepted. -/
  addr : Word
  data : Word
  lastOp : BitVec 3
  op : Option OtpOp
  /-- When the counter that the operation raises comes to read its target: copy B's first pulse ends (R450). -/
  shownAt : Nat
  supplyOk : Bool
  marginBits : Nat
  /-- Life-cycle state in force, in three copies; patch level as delivered. -/
  lc : Trip 2
  patch : Nat
  /-- Openings not yet counted; healing still to run; its first pulse made since start-up. -/
  openings : Nat
  healDue : Bool
  healed : Bool
  /-- COMMIT's counter programming still waits or was cut: the counter's value at the COMMIT, and the target. -/
  commitTo : Option (Nat × Nat)
deriving DecidableEq, Repr

/-! ### 21_faults -/

/-- The reactions of the ladder (R463). -/
inductive Reaction where
  | note | ease | hold | safe | dark
deriving DecidableEq, Repr, Inhabited

/-- Stage of a HOLD or SAFE reaction (R469). -/
inductive ReactStage where
  /-- HOLD's wait for the frame boundary. -/
  | waitBoundary
  | railDown
  /-- Between the end of rail-down and the decision point. -/
  | toDecision
  /-- At D, waiting for the conditions named. -/
  | waitCond
  | railUp
  /-- From the first boundary to the end of its frame. -/
  | frame
  /-- In HOLD: waits for the return. -/
  | waitReturn
deriving DecidableEq, Repr, Inhabited

/-- A HOLD or SAFE reaction and its recovery. -/
structure Reacting where
  level : Reaction
  fault : Nat
  stage : ReactStage
  /-- When the stage's time counts from. -/
  at_ : Nat
  /-- ALM_CRC's repair is due. -/
  repair : Bool
  /-- Faults raised meanwhile, judged at the checkpoints (R472). -/
  later : List Nat
  /-- Faults whose condition the rail-up waits on at D. -/
  waits : List Nat
deriving DecidableEq, Repr, Inhabited

/-- Fault collection (R463 to R479). -/
structure FaultState where
  sticky0 : Word
  sticky1 : Word
  /-- `FLT_FIRST`: fault number and low 16 bits of the frame. -/
  first : Option (Nat × Nat)
  /-- `FLT_INJ` as last accepted (GO reads 0) and the injections being presented: fault and end. -/
  inj : Word
  injecting : List (Nat × Nat)
  /-- Drill whose self-test an injected DRILL_TEST_FAIL meets: its place (R478). -/
  injDrill : Nat
  react : Option Reacting
  /-- A DARK reaction carried out by E0 is in force (R463). -/
  dark : Bool
  /-- Beginnings of HOLD and SAFE reactions in the last 10 s (R471). -/
  history : List Nat
  /-- The die-hot condition as its detector last saw it (R473). -/
  dieHot : Bool
  /-- INT_UV's comparator. -/
  intUv : Bool
deriving DecidableEq, Repr

/-! ### 22_start_up -/

/-- How far the start-up has come (R480 to R488). -/
inductive Stage where
  /-- No main domain runs: DORMANT, or nothing supplied. -/
  | off
  /-- RESET_N asserted, or its order before the reset condition still running. -/
  | held
  /-- Waits for VIN valid and the crystal (R482 before 0). -/
  | wait
  | otp
  /-- Integrity failure: held in reset (R457). -/
  | otpFail
  | straps
  | pll
  | boot
  | e0
  /-- E0 runs; link not yet up. -/
  | linkWait
  /-- Link up; plan steps still running. -/
  | plan
  | complete
deriving DecidableEq, Repr, Inhabited

/-- Start-up. -/
structure UpState where
  stage : Stage
  /-- When the stage began. -/
  at_ : Nat
  /-- The plan's power-up steps have ended (R484). -/
  planDone : Bool
  /-- The first rail-up waits for a reaction's decision point (R469). -/
  firstUp : Bool
  /-- Local stores of E0 to E15 (R21). -/
  stores : Vector Store 16
  /-- RSTOUT_N asserted, ALARM_N follows the alarm flags. -/
  rstOut : Bool
deriving DecidableEq, Repr

/-- The whole device. -/
structure State where
  /-- Commands waiting, first in first out. -/
  pending : List Instr
  /-- SCLK cycles since the origin of the run. -/
  now : Nat
  /-- The model's own counter of free values drawn; the spec gives it no part. -/
  free : Nat
  strap : StrapState
  mem : MemState
  panel : PanelState
  drills : DrillsState
  scan : ScanState
  alm : AlmState
  pgh : PghState
  therm : ThermState
  ledger : LedgerState
  rw : RwState
  clock : ClockState
  tree : TreeState
  seq : SeqState
  pwr : PwrState
  link : LinkState
  acc : AccessState
  rtc : RtcState
  otp : OtpState
  flt : FaultState
  up : UpState
deriving DecidableEq, Repr

/-- No command ends in a fault: the block has no behaviour the spec calls undefined as a command (NOTES.md, Stops).
The type is empty. -/
inductive Fault where
deriving DecidableEq, Repr

/-- Reasons a command is refused. -/
inductive Refusal where
  /-- Raised by a dispatch arm of a command without a meaning yet. Safe: nothing is said of it. -/
  | notModelled (mnemonic : String)
deriving DecidableEq, Repr

/-! ### Reset

Every block at the value the spec gives for reset; a value the spec does not give is named in log 2. The backup domain has
just come alive from no supply (R423), the main domains are in the reset condition (R480), VIN is not valid yet. -/

/-- Straps not read yet: bin 15 in every copy (log 2). -/
def StrapState.reset : StrapState :=
  { bins := Vector.replicate 12 { a := 15, b := 15, c := 15 }, raw := Vector.replicate 12 0, margin := 0, rsvd := false
    votes := 0 }

/-- Memories at their start-up contents (R88, R95, R100). -/
def MemState.reset : MemState :=
  { pixels := [], ledger := [], flips := [], ledgerFlip := [], banks := Vector.replicate 128 { owner := 0, epoch := 0 }, secCnt := 0, dedCnt := 0
    stale := 0, dedLoc := none, satCnt := 0, perrCnt := 0, satFlag := false, perrFlag := false, satNow := false
    tickBase := none, tickNum := 0, holdAge := none, ageWait := none, scrubWait := [], brgPerr := 0 }

/-- The ROM almanac's timing words (R103, R127, R188). -/
def TimingWords.reset : TimingWords :=
  { gOn := 96, gOff := 64, zp := 24, scheme := 0, overlap := false, gxLevel := 0, vcomHalf := 0, hlMask := 0
    hlLo := Vector.replicate 8 0, hlHi := Vector.replicate 8 4000, rowT := 0, slowRowT := 0 }

/-- Panel outputs at reset (R416). -/
def PanelState.reset : PanelState :=
  { words := TimingWords.reset, vcomEn := 0xFF
    vcom := Vector.replicate 8 { trim := 0, trimAt := 0, trimWas := 0, code := 0, phase := .off, clip := false, ovl := false }
    headland := Vector.replicate 8 { ohm := 0, cls := .good, suspect := false }
    hlNow := none, hlFrom := none, goaLine := 0, goaSeen := false, vcomGroup := 0, qcSel := 0
    qRun := Vector.replicate 8 (Vector.replicate 6 0), qPlot := Vector.replicate 64 (Vector.replicate 6 0)
    qLast := Vector.replicate 64 (Vector.replicate 6 0), srcCodes := [], srcFloat := true,
    prevCodes := [], prevFloat := true, zeroPass := [] }

/-- Drills before their start-up test (R131). -/
def DrillsState.reset : DrillsState :=
  { drill := Vector.replicate 14
      { role := .testing, slot := 0, miss := 0, fenced := false, epoch := 0, passTo := 0, defer := []
        sweep := SweepCounts.none, sweepTo := 0, before := SweepCounts.none }
    aStart := 0, startTest := false, swap := none, running := [], asked := none, testDrill := 0, result := .none, ctl := 0
    rotateLast := 0, rotateAt := 0, offers := [] }

/-- No scan runs (R130). -/
def ScanState.reset : ScanState :=
  { scanning := false, startDue := none, frame := 0, fresh := true, boundaryAt := 0, slot := 0
    gridFrom := 0, auxGridFrom := 0, pwmFreeFrom := 0, startSetDone := false
    rowT := 0, slow := false, firstFrame := true, missed := [], lost := [], completed := 0, cleanLast := false
    cancelAll := false, rbFailed := 0 }

/-- The ROM almanac, no load (R182, R188). -/
def AlmState.reset : AlmState :=
  { image := none, thermal := none, thermalDue := false, wordsDue := false, bandLog := [], load := .idle, staged := #[], stagedBytes := 0, stagedPages := []
    check := none, since := 0, drainFrames := 0, ctrBusy := false, drainOn := false, copyAt := none, lastOp := 0
    passes := 0, suspect := false, passAt := 0 }

/-- All pigeonholes FREE, sieve empty, mailroom free (R217, R218). -/
def PghState.reset : PghState :=
  { tab := [], ticket := 0, sieve := Vector.replicate 32 none, sieve0 := none, index := 0, cfg := 0, loadPending := 0
    overload := false, deferAge := false, deferLdg := false, load := 0, eavail := 0, commit := 0
    lat := Vector.replicate 8 0, done := Vector.replicate 64 0, budget := 0 }

/-- A graced condition not in force. -/
def GracedCond.reset : GracedCond := { inForce := false, graceTo := none, ripe := false, enforced := false, broke := false }

/-- Thermal loop before its first slow round (R243, R244). -/
def ThermState.reset : ThermState :=
  { plot := Vector.replicate 64
      { t := 0, band := 11, pub := 11, forced := false, clamp := false, sat := false, e := 0, overN := 0, cfg := 0 }
    ntc := Vector.replicate 4 { code := 0, temp := 0, st := .good }
    diode := Vector.replicate 6 { temp := 0, seen := false, bad := false, half := false }
    lastDie := none, slot := 0, rounds := 0, slotAt := 0, slowOn := false, started := false, ctl := 0, group0 := 0, group1 := 0
    hot := false, sensor := false, plotC := GracedCond.reset, dieC := GracedCond.reset, easeReq := false, enforced := false
    easeChange := false, impose := 0, budget := none, w := 0, wbudNow := 0, eTot := 0, residCount := 0, residPlot := 0
    bondRun := 0, bond := false, rise := 0, overrun := 0, drive := [], roundBlank := false }

/-- Ledger registers at reset (R255). -/
def LedgerState.reset : LedgerState := { deferFull := false, compDone := 0, compQueued := 0, cellSel := 0 }

/-- No window, no record (R284). -/
def RwState.reset : RwState :=
  { present := false, desc := Vector.replicate 8 0, epoch := 0, key := none, rx := [], checking := none
    waiting := none, floor := 0, drawn := none, restored := false, failed := false, stale := false, lastVerified := 0
    session := none, poff := false, sent := [], txUntil := 0, rxAt := 0, requestDue := none, requestWaits := false, writes := []
    recheck := false, firstDraw := false, boundarySeen := false, typesetting := none, typesetAgain := false
    waitingMap := none, filled := none, reference := none, bufB := false, changeDue := false, attention := false
    redraw := Redraw.none, rbRun := 0
    rbDoneAt := none, stuck := false, statusShown := .void, lastRej := 0, rejected := 0, verified := 0, abandon := 0
    rbFrames := 0, rbRedraws := 0, rbLast := 0, flag := 0, cfg := 0, recSel := 0, postSeal := 0, postRp := 0 }

/-- Crystal not running yet, PLL not locked (R286, R298, R482). -/
def ClockState.reset : ClockState :=
  { xtalOk := false, xtalStopped := false, pllLock := false, relock := .none, relockAt := 0, onRc := false, rcStep := none, target := 0, applied := 0 }

/-- Every rail down, every item off (R299 to R328). -/
def TreeState.reset : TreeState :=
  { vinValid := false, vinOv := false, startReg := false, railSet := { a := 15, b := 15, c := 15 }, pump := 0
    trim := Vector.replicate 8 0, trimNow := Vector.replicate 8 0, trimAt := Vector.replicate 8 0
    trimWas := Vector.replicate 8 0, pg := 0, disch := 0xFF, railsUp := false
    meas := Vector.replicate 22 0
    aux := Vector.replicate 4
      { en := true, oc := false, latched := false, running := false, pg := false, armed := false
        ov := false, ramp := .none, raised := false, blankTo := 0 }
    auxGroup := 0, lsw := Vector.replicate 4 { en := true, asserted := false, raised := false }, lswGroup := 0
    led := Vector.replicate 8
      { en := true, cur := 0, dim := 0, soft := none, on := false, due := 0, onWas := false, curWas := 0, dimWas := 0
        short := false, openL := false }
    ledGroup := 0, ratio := 0, scale := 0x8000, pclamp := false, power := 0, boostOv := false }

/-- The sequencer at rest (R346). -/
def SeqState.reset : SeqState :=
  { phase := .idle, plan := { a := 15, b := 15, c := 15 }, run := .none, steps := [], place := 0, stepAt := 0, rising := false, railStep := 0
    railAt := 0, beganAt := 0, timeUp := 0, timeDown := 0, after := .nothing, vglHold := false, stuckRails := 0
    dischRaised := false, enable := { a := 0, b := 0, c := 0 }, acted := 0, droppedAux := 0, droppedLsw := 0
    oc := 0, ov := 0, uv := 0, blankTo := Vector.replicate 8 0, blankOv := Vector.replicate 8 0, vcomBlankTo := 0
    gateBlankTo := 0, first := none, hedge := false, hedgeStep := 0, hedgeAt := 0, hedgeCause := 0, tail := 0, hedgeEnd := 0, kickAt := none, skip := 0
    lone := false }

/-- The reset condition (R347, R360). -/
def PwrState.reset : PwrState :=
  { st := .startup, change := none, req := .run, alarmWake := false, result := .none, refuser := 0, resume := false
    refuse := Vector.replicate 9 0, raceHeld := 0, raceLost := 0, holdT := 0, wake := 0x20, mHouse := 0, mPostA := 0
    mPostB := 0, mBak := 0, noWait := false, committed := false, held := false, portHeld := false, attnHeld := 0, commitAt := 0, heldAlarm := 0, retSlow := false
    retAt := none, holdFrom := none, awake := Vector.replicate 3 none, waking := Vector.replicate 3 none, retUp := 0, vinGone := false }

/-- The link closed (R389). -/
def LinkState.reset : LinkState :=
  { version := 0, recorded := none, lastTag := 0, reply := none, inRound := false, replied := false, winner := false
    roundTag := 0, roundStatus := 0, errFrame := 0, errCrc := 0, abort := 0, gap := 0, dup := 0, letters := 0, cfg := 0, attnFault := false
    attnState := false, serving := [] }

/-- Nothing armed, nothing in flight (R406). -/
def AccessState.reset : AccessState :=
  { helloSeen := false, rsvdDiff := 0, heldCnt := 0, voteCnt := 0, voteAddr := 0, armed := none, testMode := false
    testCtl := [], posted := [], guarded := [], refusals := 0, why := 0, sealIn := false, hwSet := [] }

/-- The kept record absent (R268). -/
def KeptSlot.reset : KeptSlot := { record := [], floor := 0, marker := false, age := 0 }

/-- The backup domain alive from no supply: the values kept from there (R419, R423, R474, R481). -/
def RtcState.reset : RtcState :=
  { cal := { sec := 0, min := 0, hour := 0, day := 1, month := 1, year := 0, weekday := 6 }
    stageT := 0, stageD := 0, badSet := false, alm1F := false, alm2F := false, alm1 := 0x00204040, alm1D := 0x00091121
    alm2 := 0x00204040, alm2D := 0x00091121, dst := 0, dstNew := 0, dstAt := 0, dstPending := false, comp := 0, temp := 0, adj := 0, period := 0
    secondAt := 0, subHeld := 0, chgEn := true, chgCur := 0, full := false, charging := false, gVbak := 0, usable := 0, liveOk := false
    wakeOk := false, testing := none, gaugeAt := none, alive := true, onBackup := true, vbakConn := true, aliveAt := 0, stopAt := 0, path := false
    isolated := false, vinLostAt := 0
    deliveryAt := none, deliveryDone := false, backupRun := false, runDoneAt := none, quietAt := 0, vinBack := false
    armed := false, resetN := false, resetDue := false, kept0 := KeptSlot.reset, kept1 := KeptSlot.reset, bak := 2
    causes := 0x20 }

/-- A blank part in Fallow (R443, R458; log 2). -/
def OtpState.reset : OtpState :=
  { words := [], thermo := [], factory := 0, trims := [], secondary := [], addr := 0, data := 0, lastOp := 0, op := none, shownAt := 0, supplyOk := false, marginBits := 0
    lc := { a := 0, b := 0, c := 0 }, patch := 0, openings := 0, healDue := false, healed := false, commitTo := none }

/-- No fault (R418). -/
def FaultState.reset : FaultState :=
  { sticky0 := 0, sticky1 := 0, first := none, inj := 0, injecting := [], injDrill := 0, react := none, dark := false, history := []
    dieHot := false, intUv := false }

/-- Start-up waits for VIN and the crystal (R480, R482). -/
def UpState.reset : UpState :=
  { stage := .wait, at_ := 0, planDone := false, firstUp := false
    stores := Vector.replicate 16 { loaded := false, patch := [] }, rstOut := true }

/-- The device right after reset: the reset condition entered because the backup domain came alive from no supply. -/
def State.reset : State :=
  { pending := [], now := 0, free := 0, strap := StrapState.reset, mem := MemState.reset, panel := PanelState.reset
    drills := DrillsState.reset, scan := ScanState.reset, alm := AlmState.reset, pgh := PghState.reset
    therm := ThermState.reset, ledger := LedgerState.reset, rw := RwState.reset, clock := ClockState.reset
    tree := TreeState.reset, seq := SeqState.reset, pwr := PwrState.reset, link := LinkState.reset
    acc := AccessState.reset, rtc := RtcState.reset, otp := OtpState.reset, flt := FaultState.reset, up := UpState.reset }

end Sys2Proof.Machine
end

