-- ==== Sys2Proof/Machine/Ops.lean ====
section
/-! DEFINITION. The shared operations: sparse memories, vectors, bit fields, counters, triplicated fields, time,
free values, and the two cyclic redundancy checks. -/

namespace Sys2Proof.Machine

/-! ### Sparse memories -/

/-- Reads a key; an unlisted key reads `d`. -/
def sget {α : Type} (d : α) : SMap α → Nat → α
  | [], _ => d
  | (k, v) :: m, i => if i = k then v else if i < k then d else sget d m i

/-- An entry in front, unless it equals what an unlisted key reads as. -/
def scons {α : Type} [DecidableEq α] (d : α) (k : Nat) (v : α) (m : SMap α) : SMap α :=
  if v = d then m else (k, v) :: m

/-- Writes a key and keeps the canonical form. -/
def sset {α : Type} [DecidableEq α] (d : α) : SMap α → Nat → α → SMap α
  | [], i, x => scons d i x []
  | (k, v) :: m, i, x =>
    if i = k then scons d i x m
    else if i < k then scons d i x ((k, v) :: m)
    else (k, v) :: sset d m i x

/-- Rewrites the keys of a rising list, listed or not; `fuel` bounds the walk. -/
def sapplyFuel {α : Type} [DecidableEq α] (d : α) (f : Nat → α → α) : Nat → SMap α → List Nat → SMap α
  | 0, m, _ => m
  | _ + 1, m, [] => m
  | n + 1, [], k :: ks => scons d k (f k d) (sapplyFuel d f n [] ks)
  | n + 1, (j, v) :: m, k :: ks =>
    if j < k then (j, v) :: sapplyFuel d f n m (k :: ks)
    else if j = k then scons d k (f k v) (sapplyFuel d f n m ks)
    else scons d k (f k d) (sapplyFuel d f n ((j, v) :: m) ks)

/-- Rewrites the keys of a rising list, listed or not. -/
def sapply {α : Type} [DecidableEq α] (d : α) (f : Nat → α → α) (m : SMap α) (ks : List Nat) : SMap α :=
  sapplyFuel d f (m.length + ks.length) m ks

/-- Rewrites every listed entry. -/
def smap {α : Type} [DecidableEq α] (d : α) (f : Nat → α → α) : SMap α → SMap α
  | [] => []
  | (k, v) :: m => scons d k (f k v) (smap d f m)

/-- Every key is above the bound given, keys rise strictly, and no entry equals the unlisted value. -/
def swfFrom {α : Type} [DecidableEq α] (d : α) : Nat → SMap α → Bool
  | _, [] => true
  | b, (k, v) :: m => decide (b ≤ k) && decide (v ≠ d) && swfFrom d (k + 1) m

/-- The canonical form. -/
def swf {α : Type} [DecidableEq α] (d : α) (m : SMap α) : Bool := swfFrom d 0 m

/-! ### Vectors and lists -/

/-- Element at a place, or the type's default beyond the end. -/
def vget {α : Type} [Inhabited α] {n : Nat} (v : Vector α n) (i : Nat) : α := v.toArray.getD i default

/-- Writes a place; beyond the end nothing changes. -/
def vset {α : Type} {n : Nat} (v : Vector α n) (i : Nat) (x : α) : Vector α n := v.setIfInBounds i x

/-- Rewrites one place. -/
def vmod {α : Type} [Inhabited α] {n : Nat} (v : Vector α n) (i : Nat) (f : α → α) : Vector α n := vset v i (f (vget v i))

/-- Rewrites every place with its number. -/
def vmapIdx {α β : Type} {n : Nat} (f : Nat → α → β) (v : Vector α n) : Vector β n := v.mapIdx f

/-- A vector from a function of the place. -/
def vgen {α : Type} (n : Nat) (f : Nat → α) : Vector α n := Vector.ofFn (fun i => f i.val)

/-- Sum of a function over 0 to n − 1. -/
def sumTo (n : Nat) (f : Nat → Nat) : Nat := (List.range n).foldl (fun a i => a + f i) 0

/-- Sum of a signed function over 0 to n − 1. -/
def isumTo (n : Nat) (f : Nat → Int) : Int := (List.range n).foldl (fun a i => a + f i) 0

/-- Whether some number below n passes. -/
def anyTo (n : Nat) (p : Nat → Bool) : Bool := (List.range n).any p

/-- Whether every number below n passes. -/
def allTo (n : Nat) (p : Nat → Bool) : Bool := (List.range n).all p

/-- The lowest number below n that passes. -/
def firstTo (n : Nat) (p : Nat → Bool) : Option Nat := (List.range n).find? p

/-! ### Bits and fields -/

/-- Field [lo + len − 1 : lo] of a word (R7). -/
def fld (w : Word) (lo len : Nat) : Nat := (w.toNat >>> lo) % 2 ^ len

/-- Bit of a word. -/
def bit (w : Word) (i : Nat) : Bool := w.getLsbD i

/-- A word from a number. -/
def wd (n : Nat) : Word := BitVec.ofNat 32 n

/-- A bit's weight when set. -/
def bw (b : Bool) (i : Nat) : Nat := if b then 2 ^ i else 0

/-- Two's complement of n bits. -/
def twos (n : Nat) (x : Int) : Nat := (x % (2 ^ n : Nat)).toNat

/-- The signed value of n bits. -/
def sgn (n : Nat) (x : Nat) : Int :=
  let y := x % 2 ^ n
  if y < 2 ^ (n - 1) then y else (y : Int) - (2 ^ n : Nat)

/-- Clamp into a range. -/
def clampI (lo hi x : Int) : Int := if x < lo then lo else if hi < x then hi else x

/-- Clamp into a range. -/
def clampN (lo hi x : Nat) : Nat := if x < lo then lo else if hi < x then hi else x

/-- Division toward zero, as pseudocode's `/` (R16). -/
def tdiv (a b : Int) : Int := Int.tdiv a b

/-- Division toward minus infinity. -/
def fdiv (a b : Int) : Int := Int.fdiv a b

/-- Nearest integer to a ratio with positive denominator, halves away from zero (R429). -/
def roundRat (num : Int) (den : Nat) : Int :=
  if 0 ≤ num then Int.fdiv (2 * num + den) (2 * den) else -(Int.fdiv (2 * (-num) + den) (2 * den))

/-- A counter that saturates at its cap. -/
def satAdd (cap n k : Nat) : Nat := min cap (n + k)

/-- 16-bit and 32-bit saturating steps. -/
def sat16 (n k : Nat) : Nat := satAdd 65535 n k
def sat32 (n k : Nat) : Nat := satAdd 0xFFFFFFFF n k

/-- Number of bits set among the n lowest of a number. -/
def popcount (n : Nat) (w : Nat) : Nat := sumTo n (fun i => if w.testBit i then 1 else 0)

/-- Sets or clears one bit. -/
def setBit {n : Nat} (w : BitVec n) (i : Nat) (b : Bool) : BitVec n :=
  if b then w ||| BitVec.ofNat n (2 ^ i) else w &&& ~~~ (BitVec.ofNat n (2 ^ i))

/-- Little-endian bytes of a number (R8). -/
def leBytes (len n : Nat) : List Byte := (List.range len).map (fun i => BitVec.ofNat 8 (n >>> (8 * i)))

/-- The number of little-endian bytes (R8). -/
def leNat : List Byte → Nat
  | [] => 0
  | b :: bs => b.toNat + 256 * leNat bs

/-- The number of big-endian bytes (R8). -/
def beNat (bs : List Byte) : Nat := bs.foldl (fun a b => a * 256 + b.toNat) 0

/-- Byte of a list at a place, 0 beyond. -/
def byteAt (l : List Byte) (i : Nat) : Byte := l.getD i 0

/-- Two bytes at a place, least significant first. -/
def half (l : List Byte) (i : Nat) : Nat := (byteAt l i).toNat + 256 * (byteAt l (i + 1)).toNat

/-- Four bytes at a place, least significant first. -/
def quad (l : List Byte) (i : Nat) : Nat := half l i + 65536 * half l (i + 2)

/-! ### Triplicated fields (R14, R398) -/

/-- Bitwise majority of the copies. -/
def Trip.maj {w : Nat} (t : Trip w) : BitVec w := (t.a &&& t.b) ||| (t.a &&& t.c) ||| (t.b &&& t.c)

/-- All three copies written at once. -/
def Trip.all {w : Nat} (x : BitVec w) : Trip w := { a := x, b := x, c := x }

/-- A copy differs from the majority. -/
def Trip.differs {w : Nat} (t : Trip w) : Bool := !(t.a == t.maj && t.b == t.maj && t.c == t.maj)

/-- The number of copies that differ. -/
def Trip.bad {w : Nat} (t : Trip w) : Nat :=
  (if t.a == t.maj then 0 else 1) + (if t.b == t.maj then 0 else 1) + (if t.c == t.maj then 0 else 1)

/-- A disturbance of one copy. -/
def Trip.flip {w : Nat} (t : Trip w) (copy : Nat) (m : BitVec w) : Trip w :=
  if copy = 0 then { t with a := t.a ^^^ m } else if copy = 1 then { t with b := t.b ^^^ m } else { t with c := t.c ^^^ m }

/-! ### Time and free values -/

/-- SCLK cycles in a crystal cycle (R287). -/
def cycle : Nat := 6144

/-- SCLK cycles in a second (R287). -/
def sclkHz : Nat := 201326592

/-- SCLK cycles of a span in microseconds, rounded up. -/
def usToSclk (us : Nat) : Nat := (us * sclkHz + 999999) / 1000000

/-- The moment a command marks: time goes there unless it is already later. -/
def State.reach (s : State) (t : Nat) : State := { s with now := max s.now t }

/-- Draws a free value's place and advances the model's counter. -/
def State.draw (s : State) : Nat × State := (s.free, { s with free := s.free + 1 })

/-- An injected condition of a fault is being presented at its detector (R477). -/
def State.injected (s : State) (n : Nat) : Bool := s.flt.injecting.any (fun x => x.1 == n)

/-- It is presented for a HOLD_MS that has not passed: every evaluation of the detector meets it (R477). -/
def State.held (s : State) (n : Nat) : Bool := s.flt.injecting.any (fun x => x.1 == n && decide (s.now < x.2))

/-! ### Bits cleared by a 1 (R13) -/

/-- The hardware sets bits of the W1C register at an address now. -/
def State.hwSet (s : State) (a : Nat) (m : Word) : State :=
  let x := sget (0, 0) s.acc.hwSet a
  { s with acc.hwSet := sset (0, 0) s.acc.hwSet a (s.now, if x.1 = s.now then x.2 ||| m else m) }

/-- Bits that the hardware has set in the cycle of `span` SCLK now in progress: a write of 1 leaves them set. -/
def State.hwFresh (s : State) (a span : Nat) : Word :=
  let x := sget (0, 0) s.acc.hwSet a
  if s.now < x.1 + span then x.2 else 0

/-- The cycle before, whose values a read returns where the hardware updates a field in the cycle of the read. -/
def State.before (s : State) : State := { s with now := s.now - 1 }

/-! ### Cyclic redundancy checks -/

/-- One bit of CRC-16-CCITT, most significant first (R364). -/
def crc16Bit (c : BitVec 16) : BitVec 16 := if c.getLsbD 15 then (c <<< 1) ^^^ 0x1021#16 else c <<< 1

/-- One byte of CRC-16-CCITT. -/
def crc16Byte (c : BitVec 16) (b : Byte) : BitVec 16 :=
  Nat.repeat crc16Bit 8 (c ^^^ (b.setWidth 16 <<< 8))

/-- CRC-16 of R364. -/
def crc16 (l : List Byte) : BitVec 16 := l.foldl crc16Byte 0xFFFF#16

/-- One bit of the reflected CRC-32 (R179). -/
def crc32Bit (c : BitVec 32) : BitVec 32 := if c.getLsbD 0 then (c >>> 1) ^^^ 0xEDB88320#32 else c >>> 1

/-- One byte of the reflected CRC-32. -/
def crc32Byte (c : BitVec 32) (b : Byte) : BitVec 32 :=
  Nat.repeat crc32Bit 8 (c ^^^ b.setWidth 32)

/-- CRC-32 of R179. -/
def crc32 (l : List Byte) : BitVec 32 := (l.foldl crc32Byte 0xFFFFFFFF#32) ^^^ 0xFFFFFFFF#32

end Sys2Proof.Machine
end

