-- ==== Sys2Proof/Machine/Sha.lean ====
section
/-! DEFINITION. SHA-256 (FIPS 180-4) and ECDSA P-256 verification (FIPS 186-4), which R265 names; their constants are
the standards' (log 13, PRESUMED). -/

namespace Sys2Proof.Machine

/-- The largest number whose k-th power is at most n, of 36 bits. -/
def rootDown (k n : Nat) : Nat :=
  (List.range 36).foldl (fun r i => if (r + 2 ^ (35 - i)) ^ k ≤ n then r + 2 ^ (35 - i) else r) 0

/-- The first 64 primes. -/
def shaPrimes : List Nat :=
  (List.range 312).filter (fun n => decide (2 ≤ n) && (List.range 18).all (fun d => decide (d < 2) || decide (n ≤ d) || !(n % d == 0)))

/-- First 32 bits of the fraction of a prime's k-th root, the standard's source of its constants. -/
def rootFraction (k p : Nat) : Word := BitVec.ofNat 32 (rootDown k (p * 2 ^ (32 * k)))

/-- Exclusive or of a word's rotations. -/
def xorRotated (rs : List Nat) (x : Word) : Word := rs.foldl (fun a r => a ^^^ x.rotateRight r) 0

/-- A block's work in progress: the 16 words from W(t) on, and the last four values each of the two sequences that the eight working
variables run through (a to d, e to h), newest first. -/
structure ShaWork where
  ws : List Word
  as : List Word
  es : List Word
deriving DecidableEq, Repr, Inhabited

/-- Step t: W(t + 16) joins the words, and each sequence gains its next value. -/
def ShaWork.next (x : ShaWork) (k : Word) : ShaWork :=
  let w := fun i => x.ws.getD i 0
  let a := fun i => x.as.getD i 0
  let e := fun i => x.es.getD i 0
  let wNew := w 0 + (xorRotated [7, 18] (w 1) ^^^ (w 1 >>> 3)) + w 9 + (xorRotated [17, 19] (w 14) ^^^ (w 14 >>> 10))
  let choice := e 2 ^^^ (e 0 &&& (e 1 ^^^ e 2))
  let most := (a 0 &&& a 1) ||| (a 2 &&& (a 0 ||| a 1))
  let gain := k + w 0 + e 3 + xorRotated [6, 11, 25] (e 0) + choice
  { ws := x.ws.drop 1 ++ [wNew]
    as := (gain + xorRotated [2, 13, 22] (a 0) + most) :: x.as.take 3
    es := (gain + a 3) :: x.es.take 3 }

/-- One block's compression of the eight hash words. -/
def shaBlock (h : List Word) (blk : List Word) : List Word :=
  let x := shaPrimes.foldl (fun (x : ShaWork) p => x.next (rootFraction 3 p)) { ws := blk, as := h.take 4, es := h.drop 4 }
  List.zipWith (· + ·) h (x.as ++ x.es)

/-- The padded message. -/
def shaPad (m : List Byte) : List Byte :=
  let z := (119 - m.length % 64) % 64
  m ++ [0x80#8] ++ List.replicate z 0#8 ++ (leBytes 8 (8 * m.length)).reverse

/-- Big-endian words of a block starting at a place. -/
def shaWords (m : Array Byte) (i : Nat) : List Word :=
  (List.range 16).map (fun j =>
    (List.range 4).foldl (fun (a : Word) b => (a <<< 8) ||| (m.getD (i + 4 * j + b) 0).setWidth 32) 0)

/-- SHA-256 as a number, big-endian. -/
def sha256 (m : List Byte) : Nat :=
  let p := (shaPad m).toArray
  let h := (List.range (p.size / 64)).foldl (fun h i => shaBlock h (shaWords p (64 * i)))
    ((shaPrimes.take 8).map (rootFraction 2))
  h.foldl (fun a w => a * 2 ^ 32 + w.toNat) 0

/-- Field prime, group order and coefficient b of P-256. -/
def p256P : Nat := 0xffffffff00000001000000000000000000000000ffffffffffffffffffffffff
def p256N : Nat := 0xffffffff00000000ffffffffffffffffbce6faada7179e84f3b9cac2fc632551
def p256B : Nat := 0x5ac635d8aa3a93e7b3ebbd55769886bc651d06b0cc53b0f63bce3c3e27d2604b

/-- Base point. -/
def p256G : Nat × Nat :=
  (0x6b17d1f2e12c4247f8bce6e563a440f277037d812deb33a0f4a13945d898c296,
   0x4fe342e2fe1a7f9b8ee7eb4a7c0f9e162bce33576b315ececbb6406837bf51f5)

/-- Power modulo m by squaring over the exponent's bits, highest first. -/
def powMod (m b e : Nat) : Nat :=
  (List.range 256).foldl (fun r i =>
    let r2 := r * r % m
    if e.testBit (255 - i) then r2 * b % m else r2) 1

/-- Inverse modulo a prime. -/
def invMod (m a : Nat) : Nat := powMod m (a % m) (m - 2)

/-- Difference modulo m. -/
def subMod (m a b : Nat) : Nat := (a + (m - b % m)) % m

/-- A point in projective coordinates (X : Y : Z) with x = X ÷ Z², y = Y ÷ Z³; Z = 0 is the point at infinity. -/
structure JPoint where
  x : Nat
  y : Nat
  z : Nat
deriving DecidableEq, Repr, Inhabited

/-- Doubling. -/
def jDouble (p : JPoint) : JPoint :=
  let q := p256P
  let zz := p.z * p.z % q
  let yy := p.y * p.y % q
  let b := p.x * yy % q
  let al := 3 * (subMod q p.x zz * ((p.x + zz) % q) % q) % q
  let x3 := subMod q (al * al % q) (8 * b % q)
  let z3 := 2 * p.y * p.z % q
  let y3 := subMod q (al * subMod q (4 * b % q) x3 % q) (8 * (yy * yy % q) % q)
  { x := x3, y := y3, z := z3 }

/-- Addition. -/
def jAdd (p r : JPoint) : JPoint :=
  let q := p256P
  if p.z = 0 then r
  else if r.z = 0 then p
  else
    let z1 := p.z * p.z % q
    let z2 := r.z * r.z % q
    let u1 := p.x * z2 % q
    let u2 := r.x * z1 % q
    let s1 := p.y * (r.z * z2 % q) % q
    let s2 := r.y * (p.z * z1 % q) % q
    if u1 = u2 then
      if s1 = s2 then jDouble p else { x := 1, y := 1, z := 0 }
    else
      let h := subMod q u2 u1
      let rr := subMod q s2 s1
      let hh := h * h % q
      let hhh := h * hh % q
      let v := u1 * hh % q
      let x3 := subMod q (subMod q (rr * rr % q) hhh) (2 * v % q)
      let y3 := subMod q (rr * subMod q v x3 % q) (s1 * hhh % q)
      { x := x3, y := y3, z := h * (p.z * r.z % q) % q }

/-- Scalar multiple. -/
def jMul (k : Nat) (p : JPoint) : JPoint :=
  (List.range 256).foldl (fun a i =>
    let d := jDouble a
    if k.testBit (255 - i) then jAdd d p else d) { x := 1, y := 1, z := 0 }

/-- Whether a point lies on the curve. -/
def onCurve (x y : Nat) : Bool :=
  x < p256P && y < p256P && y * y % p256P == (x * x % p256P * x + (p256P - 3) * x + p256B) % p256P

/-- Expands a compressed point of 33 bytes (SEC 1; R265). -/
def expandKey (bs : List Byte) : Option (Nat × Nat) :=
  let pre := (byteAt bs 0).toNat
  let x := beNat (bs.drop 1)
  let q := p256P
  let rhs := (x * x % q * x + (q - 3) * x + p256B) % q
  let r := powMod q rhs ((q + 1) / 4)
  let y := if r % 2 = pre % 2 then r else (q - r) % q
  if (pre = 2 || pre = 3) && bs.length = 33 && x < q && onCurve x y && y % 2 == pre % 2 then some (x, y) else none

/-- ECDSA P-256 verification of R265: digest, signature (r, s) and public key. -/
def verifySig (msg : List Byte) (r s : Nat) (key : Nat × Nat) : Bool :=
  let n := p256N
  if r = 0 || s = 0 || n ≤ r || n ≤ s then false
  else
    let w := invMod n s
    let u1 := sha256 msg % n * w % n
    let u2 := r * w % n
    let pt := jAdd (jMul u1 { x := p256G.1, y := p256G.2, z := 1 }) (jMul u2 { x := key.1, y := key.2, z := 1 })
    if pt.z = 0 then false
    else
      let zi := invMod p256P pt.z
      pt.x * (zi * zi % p256P) % p256P % n == r

end Sys2Proof.Machine
end

