-- ==== Sys2Proof/Machine/Straps.lean ====
section
/-! DEFINITION. What the straps select (03_straps, R60 to R76): bins from readings, and each strap's table. Every user
of a strap reads the majority of its copies (R63). -/

namespace Sys2Proof.Machine

/-! ### Reading (R59 to R61) -/

/-- Thresholds between the bins, in Ω (R60, as tabled; log 14). -/
def strapThresholds : List Nat :=
  [500, 1170, 1600, 2180, 2980, 4070, 5550, 7590, 10400, 14100, 19300, 26400, 36100, 49300, 67300]

/-- Nominal resistors of bins 0 to 14, in Ω (R60). -/
def strapNominal : List Nat :=
  [0, 1000, 1370, 1870, 2550, 3480, 4750, 6490, 8870, 12100, 16500, 22600, 30900, 42200, 57600]

/-- The bin of a raw reading; a reading on a threshold belongs to the higher bin (R60). -/
def strapBin (raw : Nat) : Nat := (strapThresholds.filter (fun t => decide (t ≤ 5 * raw))).length

/-- The raw reading: the sum of the four results of the converter (R59). -/
def strapRaw (codes : Vector (BitVec 12) 4) : BitVec 14 := BitVec.ofNat 14 (sumTo 4 (fun i => (vget codes i).toNat))

/-- Whether a raw reading lies in its bin's margin zone (R61). -/
def strapMargin (raw : Nat) : Bool :=
  let r := 5 * raw
  let b := strapBin raw
  if b = 0 then decide (200 < r)
  else if b = 15 then decide (r < 80000)
  else
    let n := strapNominal.getD b 0
    decide (r * 100 < n * 92) || decide (n * 108 < r * 100)

/-! ### The straps in use -/

/-- Majority bin of strap k, HOUSE 0 to AUXKEEP 11 (R65). -/
def State.bin (s : State) (k : Nat) : Nat := (vget s.strap.bins k).maj.toNat

/-- House number and postcodes; postcode 0 is none (R66). -/
def State.house (s : State) : Nat := s.bin 0
def State.postA (s : State) : Nat := s.bin 1
def State.postB (s : State) : Nat := s.bin 2

/-- Columns of a PANEL class (R67). -/
def panelCols (c : Nat) : Nat :=
  [1024, 1024, 1280, 1536, 1536, 2048, 2048, 2048, 2560, 2560, 2560, 3072, 3072, 3072, 3072, 3072].getD c 3072

/-- Rows of a PANEL class (R67). -/
def panelRows (c : Nat) : Nat :=
  [768, 1536, 960, 1152, 2048, 1152, 1536, 2048, 1440, 1600, 2048, 1024, 1280, 1536, 1792, 2048].getD c 2048

/-- PANEL class in use, its columns, rows, and the size of a thermal plot (R67). -/
def State.panelClass (s : State) : Nat := s.bin 3
def State.cols (s : State) : Nat := panelCols s.panelClass
def State.rows (s : State) : Nat := panelRows s.panelClass
def State.plotW (s : State) : Nat := s.cols / 8
def State.plotH (s : State) : Nat := s.rows / 8

/-- Plot of a pixel: 8 × plot row + plot column (R67, R219). -/
def State.plotOf (s : State) (row col : Nat) : Nat := 8 * (row / s.plotH) + col / s.plotW

/-- Panel drive budget class in mW (R68). -/
def budgetClass (b : Nat) : Nat := [500, 1000, 1500, 2000, 2500, 3000].getD b (if b = 15 then 1500 else 500)
def State.budgetMw (s : State) : Nat := budgetClass (s.bin 4)

/-- Bins 6 to 14 of BUDGET are reserved (R68). -/
def budgetReserved (b : Nat) : Bool := decide (6 ≤ b) && decide (b ≤ 14)

/-- RAILSET: VSP15, VSP10, VSP5, VGH and the magnitude of VGL, in mV (R69). -/
def railSetRow (b : Nat) : List Nat :=
  ([[12000, 8000, 4000, 22000, 18000], [12000, 8000, 4000, 25000, 20000], [12000, 8000, 4000, 27000, 22000],
    [13500, 9000, 4500, 22000, 18000], [13500, 9000, 4500, 25000, 20000], [13500, 9000, 4500, 27000, 22000],
    [15000, 10000, 5000, 22000, 18000], [15000, 10000, 5000, 25000, 20000], [15000, 10000, 5000, 30000, 25000],
    [16500, 11000, 5500, 25000, 20000], [16500, 11000, 5500, 27000, 22000], [16500, 11000, 5500, 30000, 25000],
    [17000, 11330, 5670, 27000, 22000], [17000, 11330, 5670, 30000, 25000], [15000, 10000, 5000, 27000, 25000],
    [15000, 10000, 5000, 27000, 22000]] : List (List Nat)).getD b []

/-- VCOMSET's start code (R70). -/
def vcomStart (b : Nat) : Nat := if b = 15 then 480 else 60 * (b + 1)

/-- Clamp of a VCOM trim to its window (R70, R76). -/
def State.vcomClamp (s : State) (c : Nat) : Nat :=
  let v := vcomStart (s.bin 6)
  clampN (v - 64) (min 1023 (v + 64)) c

/-- LEDSET: channels used and the ceiling in mA (R71). -/
def ledUsed (b : Nat) : Nat := [8, 2, 2, 2, 4, 4, 4, 6, 6, 6, 8, 8, 8, 8, 4, 0].getD b 0
def ledCeiling (b : Nat) : Nat := [10, 20, 40, 80, 20, 40, 80, 20, 40, 80, 20, 40, 60, 80, 10, 0].getD b 0

/-- BAKSET: whether the charger runs, its terminal voltage in mV, its current in tenths of mA, and backup wake (R72). -/
def bakCharger (b : Nat) : Bool := !(b == 0 || b == 1 || b == 15)
def bakVolts (b : Nat) : Nat := [0, 0, 3100, 3100, 2900, 2900, 4100, 4100, 4200, 2500, 2600, 2600, 4200, 4200, 4200, 0].getD b 0
def bakTenths (b : Nat) : Nat := [0, 0, 5, 10, 10, 20, 20, 50, 100, 100, 50, 200, 100, 200, 200, 0].getD b 0
def bakWake (b : Nat) : Bool := [1, 3, 5, 6, 8, 9, 11, 13, 14].contains b

/-- Chemistry groups of BAKSET, for "the same element" (R72, R76): bins that name the same element. -/
def bakElement (b : Nat) : Nat := [0, 0, 1, 1, 2, 2, 3, 3, 3, 4, 4, 4, 5, 5, 3, 6].getD b 6

/-- SCANSET: spare drills and grace time in milliseconds (R73). -/
def scanSpares (b : Nat) : Nat := if b < 5 then 0 else if b < 10 then 1 else if b < 15 then 2 else 1
def scanGraceMs (b : Nat) : Nat := if b = 15 then 2000 else [500, 1000, 2000, 4000, 8000].getD (b % 5) 2000

/-- AUXKEEP keeps AUXk and LSWk_N, k − 1 given (R75). -/
def State.auxKept (s : State) (k : Nat) : Bool := (s.bin 11).testBit k

/-- A majority-wise rewrite of strap copies, counting the copies rewritten (R63). -/
def State.strapVotes (s : State) : Nat := sumTo 12 (fun k => (vget s.strap.bins k).bad)

end Sys2Proof.Machine
end

