-- ==== Sys2Proof/Machine/AlmTab.lean ====
section
/-! DEFINITION. The almanac as bytes (07_almanac): the ROM almanac of R188, the fields of a container (R171 to R178),
sequences (R160 to R164) and the validation of R181. -/

namespace Sys2Proof.Machine

/-- Length of a container (R171). -/
def almLen : Nat := 430084

/-- Low or high byte of a 16-bit value at an even offset. -/
def byteOf (v i : Nat) : Nat := if i % 2 = 0 then v % 256 else v / 256 % 256

/-- The ROM almanac as container bytes (R188), its row times apart: those are the class's defaults. -/
def romByte (i : Nat) : Nat :=
  if i < 0x28 then
    if i = 0x20 then 96 else if i = 0x21 then 64 else if i = 0x22 then 24 else 0
  else if 0x38 ≤ i ∧ i < 0x48 then byteOf 4000 i
  else if 0x48 ≤ i ∧ i < 0x4C then 2
  else if 0x4C ≤ i ∧ i < 0x4E then byteOf 2047 i
  else if 0x100 ≤ i ∧ i < 0x116 then
    byteOf (twos 16 (([-320, -160, 0, 80, 160, 240, 320, 400, 480, 640, 800] : List Int).getD ((i - 0x100) / 2) 0)) i
  else if 0x118 ≤ i ∧ i < 0x11A then byteOf 960 i
  else if 0x11A ≤ i ∧ i < 0x11C then byteOf 1600 i
  else if 0x11C ≤ i ∧ i < 0x11E then byteOf 500 i
  else if 0x120 ≤ i ∧ i < 0x122 then byteOf 1000 i
  else if 0x122 ≤ i ∧ i < 0x124 then byteOf 3435 i
  else if 0x200 ≤ i ∧ i < 0xA00 then
    ([5000 % 256, 5000 / 256, 5000 % 256, 5000 / 256, 2000 % 256, 2000 / 256, 52429 % 256, 52429 / 256,
      64, 64, 64, 64] : List Nat).getD (i % 32) 0
  else if 0xA00 ≤ i ∧ i < 0xA60 then byteOf 3000 i
  else if 0x1000 ≤ i ∧ i < 0x61000 then
    let t := (i - 0x1000) / 2 % 32
    if 16 ≤ t ∧ t < 31 then byteOf 5 i else 0
  else if 0x61000 ≤ i ∧ i < 0x69000 then
    ([0x66, 0xE6, 0x66, 0xE6, 0, 0xE6, 0x66, 0xE6, 0x66, 0] : List Nat).getD (i - 0x61000) 0
  else 0

/-- A container in the almanac RAM; none is the ROM almanac. -/
abbrev Alm := Option (Array Byte)

/-- One byte of the almanac. -/
def aByte (a : Alm) (i : Nat) : Nat :=
  match a with
  | none => romByte i
  | some x => (x.getD i 0).toNat

/-- Two and four bytes, least significant first (R8). -/
def aHalf (a : Alm) (i : Nat) : Nat := aByte a i + 256 * aByte a (i + 1)
def aQuad (a : Alm) (i : Nat) : Nat := aHalf a i + 65536 * aHalf a (i + 2)

/-- Two signed bytes. -/
def aInt (a : Alm) (i : Nat) : Int := sgn 16 (aHalf a i)

/-! ### Header (R172) -/

def almVersion (a : Alm) : Nat := aHalf a 4
def almRollback (a : Alm) : Nat := aHalf a 0x0C
def almId (a : Alm) : Nat := aQuad a 0x14
def almBound (a : Alm) : Nat := aHalf a 0x4C

/-- A version 3 container (R180). -/
def almV3 (a : Alm) : Bool := almVersion a == 3

/-- Stride K of a mode (R163, R173, R180). -/
def strideK (a : Alm) (m : Nat) : Nat := if almV3 a then 1 else 2 ^ (aByte a (0x48 + m) % 4)

/-- Lead-in length L: 0 when K is 1, 1 otherwise (R163). -/
def leadL (a : Alm) (m : Nat) : Nat := if strideK a m = 1 then 0 else 1

/-- Lead-in code (R163, R173). -/
def leadCode (a : Alm) (m : Nat) : Nat := if (aByte a (0x48 + m)).testBit 2 then 4 else 0

/-- Limits and default of the row time for L rows (R127, R158). -/
def rowTMin (l : Nat) : Nat := sclkHz / (120 * l)
def rowTDef (l : Nat) : Nat := sclkHz / (85 * l)
def rowTMax (l : Nat) : Nat := sclkHz / (50 * l)
def slowTMax (l : Nat) : Nat := sclkHz / l

/-- The panel timing words of an almanac, clamped, for a frame of `l` rows (R103, R127, R158, R188). -/
def timingOf (a : Alm) (l : Nat) : TimingWords :=
  let goa := aByte a 0x23
  { gOn := clampN 64 255 (aByte a 0x20)
    gOff := clampN 32 255 (aByte a 0x21)
    zp := clampN 0 48 (aByte a 0x22)
    scheme := Fin.ofNat 4 goa
    overlap := goa.testBit 2
    gxLevel := BitVec.ofNat 4 (aByte a 0x24)
    vcomHalf := clampN 0 219 (aHalf a 0x26)
    hlMask := BitVec.ofNat 8 (aByte a 0x25)
    hlLo := vgen 8 (fun n => clampN 0 4095 (aHalf a (0x28 + 2 * n)))
    hlHi := vgen 8 (fun n => clampN 0 4095 (aHalf a (0x38 + 2 * n)))
    rowT := match a with
      | none => rowTDef l
      | some _ => clampN (rowTMin l) (rowTMax l) (aQuad a 0x18)
    slowRowT := match a with
      | none => 0
      | some _ => if aQuad a 0x1C = 0 then 0 else clampN (rowTMax l) (slowTMax l) (aQuad a 0x1C) }

/-! ### Sequences (R160 to R164) -/

/-- Index entry number (R160). -/
def entryNo (mode band age cur tgt : Nat) : Nat := (((mode * 12 + band) * 4 + age) * 32 + cur) * 32 + tgt

/-- START of an entry (R161). -/
def entryStart (a : Alm) (idx : Nat) : Nat := aHalf a (0x1000 + 2 * idx) % 32768

/-- RPT in ticks of a step byte (R162). -/
def stepTicks (b : Nat) : Nat := if b % 32 = 0 then 32 else b % 32

/-- The steps, code and ticks, from a pool address up to the end byte; `none` where the end byte is not reached in
`fuel` bytes or before the pool's end. -/
def stepsFrom (a : Alm) : Nat → Nat → Option (List (Nat × Nat))
  | 0, _ => none
  | fuel + 1, p =>
    if 32768 ≤ p then none
    else
      let b := aByte a (0x61000 + p)
      if b = 0 then some []
      else (stepsFrom a fuel (p + 1)).map (fun l => (b / 32, stepTicks b) :: l)

/-- The sequence of an entry: at most 32 steps and the end byte (R162, R164). -/
def sequenceOf (a : Alm) (idx : Nat) : Option (List (Nat × Nat)) := stepsFrom a 33 (entryStart a idx)

/-- Number of ticks N (R162). -/
def ticksOf (l : List (Nat × Nat)) : Nat := l.foldl (fun n x => n + x.2) 0

/-- Code of the step that holds tick q, and whether q is that step's last tick (R164, R165). -/
def stepAtTick : List (Nat × Nat) → Nat → Nat × Bool
  | [], _ => (0, true)
  | (c, r) :: l, q => if q < r then (c, q + 1 == r) else stepAtTick l (q - r)

/-- Level number of a drive code, −3 to +3 (R98). -/
def levelOf (c : Nat) : Int := if 1 ≤ c ∧ c ≤ 3 then c else if 5 ≤ c ∧ c ≤ 7 then 4 - (c : Int) else 0

/-- Net drive of a sequence in level-ticks (R181). -/
def netDrive (l : List (Nat × Nat)) : Int := l.foldl (fun n x => n + levelOf x.1 * x.2) 0

/-! ### Thermal table, plots, energy, balance (R175 to R178) -/

/-- BAND_EDGE[k], k from 1 to 11. -/
def bandEdge (a : Alm) (k : Nat) : Int := aInt a (0x100 + 2 * (k - 1))
def throttlePlot (a : Alm) : Int := aInt a 0x118
def throttleDie (a : Alm) : Int := aInt a 0x11A
def easeBudget (a : Alm) : Nat := aHalf a 0x11C
def ntcRnom (a : Alm) : Nat := aHalf a 0x120
def ntcBeta (a : Alm) : Nat := aHalf a 0x122

/-- Offset of plot P's record; version 3 uses record 0 for every plot (R176, R180). -/
def plotRec (a : Alm) (p : Nat) : Nat := 0x200 + 32 * (if almV3 a then 0 else p)
def plotCap (a : Alm) (p : Nat) : Nat := aHalf a (plotRec a p)
def plotAmb (a : Alm) (p : Nat) : Nat := aHalf a (plotRec a p + 2)
def plotNbr (a : Alm) (p : Nat) : Nat := aHalf a (plotRec a p + 4)
def plotEta (a : Alm) (p : Nat) : Nat := aHalf a (plotRec a p + 6)
def plotWeight (a : Alm) (p i : Nat) : Nat := aByte a (plotRec a p + 8 + i)
def plotDie (a : Alm) (p : Nat) : Nat := aHalf a (plotRec a p + 12)
def plotOffset (a : Alm) (p : Nat) : Int := aInt a (plotRec a p + 14)

/-- E_FRAME of a mode and band, pJ (R177). -/
def eFrame (a : Alm) (m b : Nat) : Nat := aHalf a (0xA00 + 2 * (m * 12 + b))

/-- Mode that compensates a band, sign and state, if offered (R178, R180). -/
def balanceMode (a : Alm) (b s t : Nat) : Option Nat :=
  let x := aByte a (0xB00 + 64 * b + 32 * s + t)
  if almV3 a || !x.testBit 7 || t == 31 then none else some (x % 4)

/-! ### Validation (R181) -/

/-- Bytes that are reserved as a whole (R171, R172, R175, R176). -/
def reservedByte (i : Nat) : Bool :=
  (0x06 ≤ i && i < 0x08) || (0x12 ≤ i && i < 0x14) || (0x4E ≤ i && i < 0x100) || (0x116 ≤ i && i < 0x118)
    || (0x11E ≤ i && i < 0x120) || (0x124 ≤ i && i < 0x200) || (0x200 ≤ i && i < 0xA00 && 16 ≤ i % 32)
    || (0xA60 ≤ i && i < 0xB00) || (0xE00 ≤ i && i < 0x1000)

/-- Bits that are reserved within a byte (R172, R173, R178, R181). -/
def reservedBits (i : Nat) : Nat :=
  if reservedByte i then 0xFF
  else if i = 0x23 then 0xF8
  else if i = 0x24 then 0xF0
  else if 0x48 ≤ i ∧ i < 0x4C then 0xF8
  else if 0xB00 ≤ i ∧ i < 0xE00 then (if i % 32 = 31 then 0xFF else 0x7C)
  else if 0x1000 ≤ i ∧ i < 0x61000 ∧ i % 2 = 1 then 0x80
  else 0

/-- Form: MAGIC, VERSION, LENGTH and the number of bytes staged. -/
def almFormOk (x : Array Byte) : Bool :=
  let a : Alm := some x
  aQuad a 0 == 0x4E554452 && (almVersion a == 3 || almVersion a == 4) && aQuad a 8 == almLen && x.size == almLen

/-- Integrity: the CRC of R179. -/
def almCrcOk (x : Array Byte) : Bool := (crc32 (x.toList.take 0x69000)).toNat == aQuad (some x) 0x69000

/-- Class: PANEL and RAILSET bins. -/
def almClassOk (x : Array Byte) (panel rails : Nat) : Bool :=
  (aHalf (some x) 0x0E).testBit panel && (aHalf (some x) 0x10).testBit rails

/-- Reserved content; in version 3 plot records 1 to 63 hold 0x00 as well (R180; log 16). -/
def almReservedOk (x : Array Byte) : Bool :=
  let a : Alm := some x
  allTo 0x61000 (fun i => aByte a i &&& reservedBits i == 0)
    && (!almV3 a || allTo 2016 (fun i => aByte a (0x220 + i) == 0))

/-- Index and unknown rows. -/
def almIndexOk (x : Array Byte) : Bool :=
  let a : Alm := some x
  allTo 196608 (fun idx =>
    let m := idx / 49152
    if idx % 32 = 31 then aHalf a (0x1000 + 2 * idx) == 0
    else
      match sequenceOf a idx with
      | none => false
      | some l => decide (ticksOf l ≤ 32 - leadL a m))

def almUnknownOk (x : Array Byte) : Bool :=
  allTo 192 (fun k => allTo 31 (fun t =>
    match sequenceOf (some x) ((k * 32 + 31) * 32 + t) with
    | none => false
    | some l => decide (1 ≤ ticksOf l)))

/-- Bands, plots and bound. -/
def almBandsOk (x : Array Byte) : Bool := allTo 10 (fun k => decide (bandEdge (some x) (k + 1) < bandEdge (some x) (k + 2)))

def almPlotsOk (x : Array Byte) : Bool :=
  let a : Alm := some x
  allTo 64 (fun p => decide (1 ≤ plotCap a p) && sumTo 4 (plotWeight a p) == 256)

def almBoundOk (x : Array Byte) : Bool := decide (1 ≤ almBound (some x)) && decide (almBound (some x) ≤ 2047)

/-- Balance: the sign of every sequence that a valid byte names. -/
def almBalanceOk (x : Array Byte) : Bool :=
  let a : Alm := some x
  almV3 a || allTo 12 (fun b => allTo 2 (fun sn => allTo 31 (fun t =>
    match balanceMode a b sn t with
    | none => true
    | some m => allTo 4 (fun ag =>
      match sequenceOf a (entryNo m b ag t t) with
      | none => false
      | some l => if sn = 0 then decide (netDrive l < 0) else decide (0 < netDrive l)))))

/-- The first failing check of R181 in the table's order: Class gives its own result. -/
def validate (x : Array Byte) (panel rails : Nat) : AlmCheck :=
  if !almFormOk x || !almCrcOk x then .invalid
  else if !almClassOk x panel rails then .wrongClass
  else if almReservedOk x && almIndexOk x && almUnknownOk x && almBandsOk x && almPlotsOk x && almBoundOk x
    && almBalanceOk x then .pass
  else .invalid

end Sys2Proof.Machine
end

