-- ==== Sys2Proof/Machine/Panel.lean ====
section
/-! DEFINITION. Pixel words (04_pixel_word_and_memories), VCOM values and phases, headland classes, and the timing of
the row (05_panel_outputs). -/

namespace Sys2Proof.Machine

/-! ### The pixel word (R78) -/

/-- The fields of a pixel word. -/
structure Pixel where
  target : Nat
  current : Nat
  step : Nat
  mode : Nat
  age : Nat
  active : Bool
deriving DecidableEq, Repr, Inhabited

/-- Fields of a word. -/
def pixelOf (w : PixelWord) : Pixel :=
  let n := w.toNat
  { target := n >>> 15, current := (n >>> 10) % 32, step := (n >>> 5) % 32, mode := (n >>> 3) % 4, age := (n >>> 1) % 4
    active := n.testBit 0 }

/-- Word of the fields. -/
def pixelWord (p : Pixel) : PixelWord :=
  BitVec.ofNat 20 (p.target % 32 * 32768 + p.current % 32 * 1024 + p.step % 32 * 32 + p.mode % 4 * 8 + p.age % 4 * 2
    + (if p.active then 1 else 0))

/-- The word of start-up and of an uncorrectable group (R83, R88). -/
def unknownWord : PixelWord := 0xFFC06#20

/-- Key of a pixel in the frame store. -/
def pixelKey (row col : Nat) : Nat := row * 3072 + col

/-- Word of a pixel. -/
def State.pixel (s : State) (row col : Nat) : PixelWord := sget unknownWord s.mem.pixels (pixelKey row col)

/-- Rows of R83. Each takes the word before. -/
def pixelStart (tgt mode : Nat) (p : Pixel) : Pixel :=
  { p with target := tgt, step := 0, mode := mode, active := true }
def pixelPreempt (tgt mode : Nat) (_ : Pixel) : Pixel :=
  { target := tgt, current := 31, step := 0, mode := mode, age := 0, active := true }
def pixelComplete (p : Pixel) : Pixel := { p with current := p.target, step := 0, age := 0, active := false }
def pixelCancel (p : Pixel) : Pixel := { p with target := 31, current := 31, step := 0, age := 0, active := false }
def pixelRestate (st : Nat) (p : Pixel) : Pixel := { p with target := st, current := st, step := 0, age := 3, active := false }
def pixelLostStart (tgt mode : Nat) (_ : Pixel) : Pixel :=
  { target := tgt, current := 31, step := 0, mode := mode, age := 3, active := true }

/-- The aging visit of tick number n (R85). -/
def pixelAge (n : Nat) (p : Pixel) : Pixel :=
  if p.active then p
  else
    let visit := p.age = 0 ∨ (p.age = 1 ∧ n % 32 = 0) ∨ (p.age = 2 ∧ n % 1920 = 0)
    let limit := if p.age = 0 then 16 else 30
    if p.age = 3 ∨ ¬ visit then p
    else if limit ≤ p.step + 1 then { p with age := p.age + 1, step := 0 }
    else { p with step := p.step + 1 }

/-- The first aging pass after HOLD (R87). -/
def pixelHoldAge (k : Nat) (p : Pixel) : Pixel := if p.active then p else { p with age := max p.age k, step := 0 }

/-! ### Frames and rows -/

/-- L: rows of a frame with blanking (R127). -/
def State.frameRows (s : State) : Nat := s.rows + 32

/-- Frame time in SCLK at the row time in use (R127). -/
def State.frameTime (s : State) : Nat := s.frameRows * s.scan.rowT

/-- Latch point of the slot after `n` have passed, counted from the boundary: row r latches at (32 + r) row times. -/
def State.slotTime (s : State) (n : Nat) : Nat := s.scan.boundaryAt + n * s.scan.rowT

/-! ### Switching grids and the PWM (R289 to R291) -/

/-- Place in a switching grid of `p` SCLK while the scan runs: it restarts at the boundary, and the cycle that the next boundary
meets is lengthened to end there. -/
def State.gridInFrame (s : State) (p : Nat) : Nat :=
  let t := s.now - s.scan.boundaryAt
  t - p * min (t / p) (s.frameTime / p - 1)

/-- Where a grid that goes on freely from here has begun; a lengthened cycle ends with the scan (DESIGN CHOICE, log 46). -/
def State.gridOrigin (s : State) (p : Nat) : Nat := s.now - (if s.gridInFrame p < p then s.gridInFrame p else 0)

/-- The grids and the PWM run freely from where the scan stops. -/
def State.freeGrids (s : State) : State :=
  if s.scan.scanning then
    let t := s.now - s.scan.boundaryAt
    { s with scan.gridFrom := s.gridOrigin 96, scan.auxGridFrom := s.gridOrigin 192
             scan.pwmFreeFrom := s.now - (if t < s.frameTime then t % 40960 else 0) }
  else s

/-- Where the PWM's periods are counted from. -/
def State.pwmFrom (s : State) : Nat := if s.scan.scanning then s.scan.boundaryAt else s.scan.pwmFreeFrom

/-! ### VCOM (R117 to R120) -/

/-- Effective half-separation H' (R117). -/
def vcomHalfOf (h c : Nat) : Nat := min h (min c (1023 - c))

/-- Output code of a channel in a frame's phase; even frames run in phase A (R117, R118). -/
def vcomPhaseCode (h c : Nat) (even : Bool) : Nat := if even then c + vcomHalfOf h c else c - vcomHalfOf h c

/-- Output voltage of a DAC code in µV (R70). -/
def vcomMicrovolts (code : Nat) : Int := -3000000 + ((code * 3500000 : Nat) : Int) / 1023

/-- A trim lands; one that landed in an earlier cycle stays the value of a boundary in this one (R119). -/
def VcomCh.land (c : VcomCh) (now x : Nat) : VcomCh :=
  { c with trim := x, trimAt := now, trimWas := if c.trimAt < now then c.trim else c.trimWas }

/-- The trim that a boundary at `now` takes: one that landed before its time zero (R119). -/
def VcomCh.taken (c : VcomCh) (now : Nat) : Nat := if c.trimAt < now then c.trim else c.trimWas

/-- One channel at a frame boundary: its trim and phase for the frame (R117, R119, R120). -/
def vcomAtBoundary (now h : Nat) (en : Bool) (c : VcomCh) : VcomCh :=
  let ph := match c.phase with
    | .rampUp e => if e ≤ now then VcomPhase.atTrim else .rampUp e
    | .rampDown e => if e ≤ now then VcomPhase.off else .rampDown e
    | x => x
  let ph' := match ph, en with
    | .atTrim, true => VcomPhase.run
    | .run, true => .run
    | .off, true => .rampUp (now + usToSclk 1000)
    | .off, false => .off
    | .rampDown e, _ => .rampDown e
    | .rampUp e, true => .rampUp e
    | .zero, _ => .zero
    | _, false => .rampDown (now + usToSclk 1000)
  { c with code := c.taken now, clip := decide (vcomHalfOf h (c.taken now) < h), phase := ph' }

/-- All channels at a frame boundary. -/
def State.vcomBoundary (s : State) : State :=
  let f := fun i => vcomAtBoundary s.now s.panel.words.vcomHalf (s.panel.vcomEn.getLsbD i)
  { s with panel.vcom := vmapIdx f s.panel.vcom }

/-- Rail-up's last step: each enabled channel ramps to its trimmed value (R120, R330). -/
def State.vcomRampUp (s : State) : State :=
  { s with panel.vcom := vmapIdx (fun i (c : VcomCh) =>
      if s.panel.vcomEn.getLsbD i then { c with code := c.trim, phase := .rampUp (s.now + usToSclk 1000) }
      else { c with phase := .off }) s.panel.vcom }

/-- Every channel whose ramp to its trimmed value has run stands there (R120). -/
def State.vcomRampDone (s : State) : State :=
  { s with panel.vcom := vmapIdx (fun _ (c : VcomCh) =>
      match c.phase with
      | .rampUp e => if e ≤ s.now then { c with phase := .atTrim } else c
      | .rampDown e => if e ≤ s.now then { c with phase := .off } else c
      | _ => c) s.panel.vcom }

/-- Rail-down's first step: each channel that is not off ramps to 0 V until `e` (R120, R331). -/
def State.vcomRampDown (s : State) (e : Nat) : State :=
  { s with panel.vcom := vmapIdx (fun _ (c : VcomCh) =>
      match c.phase with
      | .off => c
      | _ => { c with phase := .rampDown e }) s.panel.vcom }

/-- After that ramp the channels are driven to 0 V (R47). -/
def State.vcomZero (s : State) : State :=
  { s with panel.vcom := vmapIdx (fun _ (c : VcomCh) =>
      match c.phase with
      | .off => c
      | _ => { c with phase := .zero }) s.panel.vcom }

/-- With VGL discharged every channel floats (R47). -/
def State.vcomFloat (s : State) : State :=
  { s with panel.vcom := vmapIdx (fun _ (c : VcomCh) => { c with phase := .off }) s.panel.vcom }

/-- Earliest end of a channel ramp in progress (R120). -/
def State.vcomRampEndAt (s : State) : Option Nat :=
  (List.range 8).foldl (fun (a : Option Nat) i =>
    match (vget s.panel.vcom i).phase with
    | .rampUp e | .rampDown e => some (match a with | none => e | some x => min x e)
    | _ => a) none

/-! ### Headland loops (R123, R124) -/

/-- Class of a reading under a loop's limits (R124). One above HL_HI and below HL_LO, which limits the wrong way round allow, is
High (DESIGN CHOICE, log 116). -/
def headlandClass (lo hi r : Nat) : HlClass :=
  if r = 4095 then .open else if hi < r then .high else if r < lo then .low else .good

/-- Loop measured in a frame's blanking, if its loop is enabled (R123). -/
def State.headlandDue (s : State) : Option (Fin 8) :=
  let n := s.scan.frame.toNat % 64
  if h : n < 8 then (if s.panel.words.hlMask.getLsbD n then some ⟨n, h⟩ else none) else none

end Sys2Proof.Machine
end

