-- ==== Sys2Proof/Machine/Secded.lean ====
section
/-! DEFINITION. The protection of the memories (04_pixel_word_and_memories): the 88-bit group of the frame store under its
extended Hamming code (R89, R91), what a read of a group finds, and the parity of ledger words (R97, R100). -/

namespace Sys2Proof.Machine

/-! ### The code of R91 -/

/-- Number of stored bit i, 0 to 86, in the Hamming code: check bit j has number 2^j and the data bits the other numbers from
3 up, so that a syndrome names its bit (R91; which number a data bit has is the model's choice, log 106). -/
def codePlace (i : Nat) : Nat :=
  if i < 1 then 3
  else if i < 4 then i + 4
  else if i < 11 then i + 5
  else if i < 26 then i + 6
  else if i < 57 then i + 7
  else if i < 80 then i + 8
  else 2 ^ (i - 80)

/-- Exclusive or of the numbers of the bits set below bit n. -/
def placesTo {w : Nat} (x : BitVec w) (n : Nat) : BitVec 7 :=
  (List.range n).foldl (fun a i => if x.getLsbD i then a ^^^ BitVec.ofNat 7 (codePlace i) else a) 0

/-- Whether an odd number of the bits below bit n is set. -/
def oddTo {w : Nat} (x : BitVec w) (n : Nat) : Bool := (List.range n).foldl (fun a i => a ^^ x.getLsbD i) false

/-- A group as stored: data in [79:0], check bits in [86:80], overall parity in [87] (R89, R91). -/
def encodeGroup (d : BitVec 80) : BitVec 88 :=
  let w := d.setWidth 88 ||| (placesTo d 80).setWidth 88 <<< 80
  if oddTo w 87 then w ||| 1#88 <<< 87 else w

/-- What a read of a group finds (R91). -/
inductive ReadClass where
  | good | corrected | lost
deriving DecidableEq, Repr

/-- The four cases of R91. -/
def classOf (w : BitVec 88) : ReadClass :=
  let z := placesTo w 87
  let odd := oddTo w 88
  if z = 0 then (if odd then .corrected else .good)
  else if odd && anyTo 87 (fun i => BitVec.ofNat 7 (codePlace i) == z) then .corrected
  else .lost

/-! ### Groups and their reads -/

/-- Group of a pixel (R89). -/
def groupOf (row col : Nat) : Nat := row * 768 + col / 4

/-- Data bits of a group: lane k in [20k + 19:20k] (R89). -/
def State.groupData (s : State) (g : Nat) : BitVec 80 :=
  let lane := fun (k : Nat) => (s.pixel (g / 768) (g % 768 * 4 + k)).setWidth 80 <<< (20 * k)
  lane 0 ||| lane 1 ||| lane 2 ||| lane 3

/-- The group's 88 stored bits: its words under the code, with what has flipped since they were written. -/
def State.groupStored (s : State) (g : Nat) : BitVec 88 := encodeGroup (s.groupData g) ^^^ sget 0 s.mem.flips g

/-- What a read of the group finds now. -/
def State.groupClass (s : State) (g : Nat) : ReadClass := classOf (s.groupStored g)

/-- A group of the panel class in use: the others are never read, written or checked (R89). -/
def State.groupInUse (s : State) (g : Nat) : Bool := decide (g / 768 < s.rows) && decide (g % 768 * 4 < s.cols)

/-- Groups in use with flipped bits that pass. -/
def State.flipped (s : State) (q : Nat → Bool) : List Nat :=
  (s.mem.flips.map Prod.fst).filter (fun g => s.groupInUse g && q g)

/-- Groups that pass and read as uncorrectable. -/
def State.lostGroups (s : State) (q : Nat → Bool) : List Nat := (s.flipped q).filter (fun g => s.groupClass g == .lost)

/-- `FS_SEC_CNT` counts the corrected reads of the groups that pass (R92). -/
def State.countMended (s : State) (q : Nat → Bool) : State :=
  { s with mem.secCnt := sat32 s.mem.secCnt ((s.flipped q).filter (fun g => s.groupClass g == .corrected)).length }

/-- Groups that pass are written: fresh check bits (R91). -/
def State.rewritten (s : State) (q : Nat → Bool) : State :=
  { s with mem.flips := s.mem.flips.filter (fun x => !(s.groupInUse x.1 && q x.1)) }

/-- Corrected groups that pass are counted and written back; a read of one delivers the words stored before its bit flipped
(R91, R92). Uncorrectable ones are left as found (R518). -/
def State.mend (s : State) (q : Nat → Bool) : State :=
  (s.countMended q).rewritten (fun g => q g && s.groupClass g == .corrected)

/-- The word that a corrected read takes: the bit that the syndrome names is flipped back, or the overall parity bit (R91). -/
def correctedWord (w : BitVec 88) : BitVec 88 :=
  let z := placesTo w 87
  match firstTo 87 (fun i => BitVec.ofNat 7 (codePlace i) == z) with
  | some i => w ^^^ (1#88 <<< i)
  | none => w ^^^ (1#88 <<< 87)

/-- A group's four words from its data bits (R89). -/
def State.putGroup (s : State) (g : Nat) (d : BitVec 80) : State :=
  { s with mem.pixels := (List.range 4).foldl (fun m k =>
      sset unknownWord m (pixelKey (g / 768) (g % 768 * 4 + k)) ((d >>> (20 * k)).setWidth 20)) s.mem.pixels }

/-- The group's 88 bits become those given. Its words are kept as a read of it delivers them, whatever number of bits has flipped:
three or more may read as another word (R91). -/
def State.storeGroup (s : State) (g : Nat) (w : BitVec 88) : State :=
  let t := match classOf w with
    | .good => s.putGroup g (w.setWidth 80)
    | .corrected => s.putGroup g ((correctedWord w).setWidth 80)
    | .lost => s
  { t with mem.flips := sset 0 t.mem.flips g (w ^^^ encodeGroup (t.groupData g)) }

/-- Bits of the frame store flip. -/
def State.flipBits (s : State) (l : List BitFlip) : State :=
  l.foldl (fun (t : State) f => t.storeGroup f.group (t.groupStored f.group ^^^ (1#88 <<< f.bit.val))) s

/-! ### Ledger words (R97, R100) -/

/-- A ledger word as stored: even parity over its 16 bits in [16]. -/
def ledgerStored (w : LedgerWord) : BitVec 17 := w.setWidth 17 ||| (if oddTo w 16 then 0x10000#17 else 0)

/-- A cell's stored bits, with what has flipped since they were written. -/
def State.cellStored (s : State) (k : Nat) : BitVec 17 := ledgerStored (sget 0 s.mem.ledger k) ^^^ sget 0 s.mem.ledgerFlip k

/-- The cell's word fails its parity check. -/
def State.cellBad (s : State) (k : Nat) : Bool := oddTo (s.cellStored k) 17

/-- A cell's word as its reader takes it: 0 where it fails its parity check (R100). -/
def State.cellWord (s : State) (k : Nat) : LedgerWord := if s.cellBad k then 0 else (s.cellStored k).setWidth 16

/-- Bits of ledger words flip. -/
def State.flipCells (s : State) (l : List LedgerFlip) : State :=
  { s with mem.ledgerFlip := l.foldl (fun m f => sset 0 m f.cell (sget 0 m f.cell ^^^ (1#17 <<< f.bit.val))) s.mem.ledgerFlip }

/-- Cells that pass are read and written back with fresh parity, SPARE as 0: a word that fails its check counts as 0 (R97, R99,
R100). -/
def State.freshCells (s : State) (q : Nat → Bool) : State :=
  let l := (s.mem.ledgerFlip.map Prod.fst).filter q
  { s with mem.ledger := l.foldl (fun m k => sset 0 m k (s.cellWord k &&& 0x0FFF)) s.mem.ledger
           mem.ledgerFlip := s.mem.ledgerFlip.filter (fun x => !q x.1) }

/-! ### Aging visits and locks (R85, R87, R136, R154) -/

/-- A row is locked from the scan's read of it, two row times before its latch point, to the write-back that its latch brings
(R136). Each command acts whole, so a read meets a group before a write of it or after (R96). -/
def State.rowLocked (s : State) (row : Nat) : Bool :=
  s.scan.scanning && decide (s.slotTime (row + 30) ≤ s.now) && decide (s.scan.slot ≤ row + 32)

/-- A visit of the aging pass (R85, R87). -/
def AgeVisit.apply (a : AgeVisit) (p : Pixel) : Pixel :=
  match a.hold with
  | some h => pixelHoldAge h.val p
  | none => pixelAge a.tick p

/-- The group holds an idle pixel. -/
def State.groupIdle (s : State) (g : Nat) : Bool := anyTo 4 (fun k => !(pixelOf (s.pixel (g / 768) (g % 768 * 4 + k))).active)

/-- The pass visits the idle pixels of the rows that pass; a corrected group is written back, an uncorrectable one left alone
(R92, R518). A group of four ACTIVE pixels is not read (DESIGN CHOICE, log 133). -/
def State.visitRows (s : State) (q : Nat → Bool) (a : AgeVisit) : State :=
  let bad := s.lostGroups (fun g => q (g / 768))
  let f := fun (k : Nat) (w : PixelWord) =>
    if q (k / 3072) && s.groupInUse (groupOf (k / 3072) (k % 3072)) && !bad.contains (groupOf (k / 3072) (k % 3072)) then
      pixelWord (a.apply (pixelOf w))
    else w
  let s1 := s.mend (fun g => q (g / 768) && s.groupIdle g)
  { s1 with mem.pixels := smap unknownWord f s.mem.pixels }

/-- The scrub's visit of rows that pass: corrected groups are counted and written back (R92, R151, R518). -/
def State.scrubRows (s : State) (q : Nat → Bool) : State := s.mend (fun g => q (g / 768))

/-- The aging pass's visits that wait and whose rows pass are made. -/
def State.releaseAge (s : State) (q : Nat → Bool) : State :=
  match s.mem.ageWait with
  | some a => { s.visitRows (fun r => a.rows.contains r && q r) a with mem.ageWait := some { a with rows := a.rows.filter (fun r => !q r) } }
  | none => s

/-- Visits that waited for the scan's locks on the rows that pass are made, the scrub's first (R149, R154). -/
def State.release (s : State) (q : Nat → Bool) : State :=
  let s1 := s.scrubRows (fun r => s.mem.scrubWait.contains r && q r)
  State.releaseAge { s1 with mem.scrubWait := s1.mem.scrubWait.filter (fun r => !q r) } q

/-- A visit that waited for the scan's lock on a row is made (R154). -/
def State.releaseRow (s : State) (row : Nat) : State := s.release (fun r => r == row)

/-- The scan has stopped: every lock is released. -/
def State.releaseRows (s : State) : State :=
  let t := s.release (fun _ => true)
  { t with mem.ageWait := none }

end Sys2Proof.Machine
end

