-- ==== Sys2Proof/Machine/OtpCore.lean ====
section
/-! DEFINITION. The one-time-programmable cells (20_otp_and_life_cycle, R442 to R452): words and their check bits, slots,
patch records, thermometer counters, and what pulses do to the cells. -/

namespace Sys2Proof.Machine

/-! ### ECC words (R443, R444) -/

/-- Number of data bit i, 0 to 31, in the Hamming code of a word: check bit j has number 2^j and the data bits the other numbers
from 3 up (R444; which number a data bit has is the model's choice, log 25). -/
def otpPlace (i : Nat) : Nat :=
  if i < 1 then 3 else if i < 4 then i + 4 else if i < 11 then i + 5 else if i < 26 then i + 6 else i + 7

/-- The six Hamming check bits of a word: the exclusive or of the numbers of its data bits that are set. -/
def otpHamming (d : Word) : Nat := (List.range 32).foldl (fun a i => if d.getLsbD i then a ^^^ otpPlace i else a) 0

/-- The 39 stored bits of a word: data, the Hamming bits and overall parity exclusive-or 0b101_0101. -/
def otpEncode (d : Word) : BitVec 39 :=
  let h := otpHamming d
  let p := (popcount 32 d.toNat + popcount 6 h) % 2
  BitVec.ofNat 39 (d.toNat + ((h + 64 * p) ^^^ 0x55) * 2 ^ 32)

/-- A code word: no error found. -/
def otpClean (b : BitVec 39) : Bool := b == otpEncode (b.setWidth 32)

/-- The bit whose flip gives a code word. -/
def otpFix (b : BitVec 39) : Option Nat := firstTo 39 (fun i => otpClean (b ^^^ BitVec.ofNat 39 (2 ^ i)))

/-- A word of the ECC region. -/
def State.otpWord (s : State) (w : Nat) : OtpWord := sget default s.otp.words w

/-- Unprogrammed under R444. -/
def OtpWord.blank (x : OtpWord) : Bool := x.bits == 0 && x.marginal == 0

/-- Class of a read: 0 clean, 1 corrected, 2 uncorrectable, 3 unprogrammed (R444). -/
def OtpWord.ecc (x : OtpWord) : Nat :=
  if x.blank then 3 else if otpClean x.bits then 0 else if (otpFix x.bits).isSome then 1 else 2

/-- Data read against the normal reference, corrected (R443, R444). -/
def OtpWord.value (x : OtpWord) : Word :=
  if otpClean x.bits then x.bits.setWidth 32
  else match otpFix x.bits with
    | some i => (x.bits ^^^ BitVec.ofNat 39 (2 ^ i)).setWidth 32
    | none => x.bits.setWidth 32

/-- Clean or corrected. -/
def OtpWord.good (x : OtpWord) : Bool := decide (x.ecc ≤ 1)

/-! ### The factory region (R442, R456) -/

/-- A word as the tester programmed it: word 63 holds the CRC-32 of words 0 to 62, each least significant byte first. -/
def factoryData (k : Nat) : Word :=
  if k = 63 then crc32 ((List.range 63).flatMap (fun i => leBytes 4 (Config.factoryWord i).toNat)) else Config.factoryWord k

/-- Bits of a word that read otherwise. -/
def State.factoryFlips (s : State) (k : Nat) : BitVec 39 := s.otp.factory.extractLsb' (39 * k) 39

/-- A word as it is sensed. -/
def State.factoryWord (s : State) (k : Nat) : OtpWord :=
  { bits := otpEncode (factoryData k) ^^^ s.factoryFlips k, marginal := 0 }

/-- Its data, corrected. -/
def State.factoryValue (s : State) (k : Nat) : Word :=
  if s.factoryFlips k = 0 then factoryData k else (s.factoryWord k).value

/-- The test bits as they read. -/
def State.factoryTest (s : State) : BitVec 3328 := Config.factoryTest ^^^ s.otp.factory.extractLsb' 9984 3328

/-- The critical block passes its check: no word uncorrectable, and the CRC-32 of words 0 to 62 agrees with word 63 (R457); as
programmed it does. -/
def State.criticalOk (s : State) : Bool :=
  s.otp.factory.extractLsb' 0 2496 == 0
    || (allTo 64 (fun k => (s.factoryWord k).good)
        && crc32 ((List.range 63).flatMap (fun i => leBytes 4 (s.factoryValue i).toNat)) == s.factoryValue 63)

/-- The factory region is sensed: bits have come to read otherwise. -/
def State.senseFactory (s : State) (l : List (Fin 13312)) : State :=
  { s with otp.factory := l.foldl (fun b i => b ^^^ (1#13312 <<< i.val)) s.otp.factory }

/-! ### Slots (R446, R447) -/

/-- First words of key slot k, from 1, and descriptor slot v, from 0. -/
def keySlotAt (k : Nat) : Nat := 320 + 9 * (k - 1)
def descSlotAt (v : Nat) : Nat := 464 + 8 * v

/-- The key of slot k, expanded, where the slot is valid (R265, R447). -/
def State.keyOf (s : State) (k : Nat) : Option (Nat × Nat) :=
  let ws := (List.range 9).map (fun i => s.otpWord (keySlotAt k + i))
  let bytes := ws.flatMap (fun x => leBytes 4 x.value.toNat)
  let lead := (byteAt bytes 0).toNat
  if 1 ≤ k ∧ k ≤ 16 ∧ ws.all OtpWord.good ∧ (bytes.drop 33).all (fun b => b == 0) ∧ (lead = 2 ∨ lead = 3) then
    expandKey (bytes.take 33)
  else none

/-- The eight words of a descriptor slot, and whether all are clean or corrected. -/
def State.descSlot (s : State) (v : Nat) : Vector Word 8 := vgen 8 (fun i => (s.otpWord (descSlotAt v + i)).value)
def State.descRead (s : State) (v : Nat) : Bool :=
  decide (v ≤ 64) && allTo 8 (fun i => (s.otpWord (descSlotAt v + i)).good)

/-! ### Patch records (R447) -/

/-- A record of the patch pool: first word, and number n of instruction words. -/
structure PatchRecord where
  at_ : Nat
  n : Nat
deriving DecidableEq, Repr, Inhabited

/-- Words of a record. -/
def PatchRecord.len (r : PatchRecord) : Nat := r.n + 2

/-- Records in order from a word, up to a header that reads unprogrammed or the pool's end. -/
def State.patchesFrom (s : State) : Nat → Nat → List PatchRecord
  | 0, _ => []
  | fuel + 1, a =>
    let h := s.otpWord a
    if 320 ≤ a ∨ h.blank then []
    else
      let r : PatchRecord := { at_ := a, n := fld h.value 26 4 }
      r :: s.patchesFrom fuel (a + r.len)

/-- All records of the pool; each takes at least two words. -/
def State.patches (s : State) : List PatchRecord := s.patchesFrom 160 0

/-- Every word of a record has been programmed. -/
def State.patchWritten (s : State) (r : PatchRecord) : Bool := allTo r.len (fun i => !(s.otpWord (r.at_ + i)).blank)

/-- The CRC word of a record agrees, and its form is R447's. -/
def State.patchValid (s : State) (r : PatchRecord) : Bool :=
  let word := fun i => (s.otpWord (r.at_ + i)).value
  let bytes := (List.range (r.n + 1)).flatMap (fun i => leBytes 4 (word i).toNat)
  decide (1 ≤ r.n) && decide (r.at_ + r.len ≤ 320) && allTo r.len (fun i => (s.otpWord (r.at_ + i)).good)
    && crc32 bytes == word (r.n + 1)

/-- The words that a PROGRAM in the pool may name: the record that follows the last one programmed (R454). -/
def State.patchPlace (s : State) (w : Nat) : Bool :=
  match s.patches.find? (fun r => !s.patchWritten r) with
  | some r => decide (r.at_ ≤ w) && decide (w < r.at_ + r.len)
  | none =>
    let a := s.patches.foldl (fun _ r => r.at_ + r.len) 0
    decide (a ≤ w) && decide (w < a + 17)

/-- Every enabled record's CRC agrees: the boot check (R457). -/
def State.patchesOk (s : State) : Bool := (s.patches.take s.otp.patch).all s.patchValid

/-! ### Local stores (R21, R447) -/

/-- A cleared store (R156). -/
def Store.clear : Store := { loaded := false, patch := [] }

/-- An image copied from the firmware ROM, with the words that its enabled records replace. -/
def State.imageStore (s : State) (image : Nat) : Store :=
  let put := fun (m : SMap (Option (BitVec 20))) (r : PatchRecord) =>
    let h := (s.otpWord r.at_).value
    if fld h 30 2 = image then
      (List.range r.n).foldl (fun m k => sset none m (fld h 0 14 + k) (some ((s.otpWord (r.at_ + 1 + k)).value.setWidth 20))) m
    else m
  { loaded := true, patch := (s.patches.take s.otp.patch).foldl put [] }

/-- Word of engine e's store; none where it is cleared. -/
def State.storeWord (s : State) (e a : Nat) : Option (BitVec 20) :=
  let x := vget s.up.stores e
  if x.loaded then
    some (match sget none x.patch a with
      | some w => w
      | none => Config.romImage (min e 2) a)
  else none

/-- The stores of the engines that pass receive their images (R21). -/
def State.loadStores (s : State) (q : Nat → Bool) : State :=
  { s with up.stores := vmapIdx (fun e x => if q e then s.imageStore (min e 2) else x) s.up.stores }

/-- The stores of the engines that pass are cleared. -/
def State.clearStores (s : State) (q : Nat → Bool) : State :=
  { s with up.stores := vmapIdx (fun e x => if q e then Store.clear else x) s.up.stores }

/-! ### The thermometer region (R443, R448 to R451) -/

/-- Name of a copy of a logical bit. -/
inductive CopyName where
  | a | b | c
deriving DecidableEq, Repr, Inhabited

def Thermo.copy (t : Thermo) : CopyName → OtpBit
  | .a => t.a
  | .b => t.b
  | .c => t.c

def Thermo.put (t : Thermo) (n : CopyName) (x : OtpBit) : Thermo :=
  match n with
  | .a => { t with a := x }
  | .b => { t with b := x }
  | .c => { t with c := x }

/-- All copies unprogrammed. -/
def Thermo.blank : Thermo := { a := .unprogrammed, b := .unprogrammed, c := .unprogrammed }

/-- A copy counts as 1 against either reference (R443). -/
def otpBitCounts : OtpBit → Nat
  | .unprogrammed => 0
  | _ => 1

/-- A logical bit reads 1 (R449). -/
def Thermo.reads (t : Thermo) : Bool := decide (2 ≤ otpBitCounts t.a + otpBitCounts t.b + otpBitCounts t.c)

/-- Some copy is marginal. -/
def Thermo.anyMarginal (t : Thermo) : Bool := t.a == .marginal || t.b == .marginal || t.c == .marginal

def State.thermo (s : State) (bit : Nat) : Thermo := sget Thermo.blank s.otp.thermo bit

/-- First logical bit and number of steps of a counter, by `OTP_ADDR.COUNTER` (R448). -/
def counterBase (c : Nat) : Nat := [152, 8, 72, 408, 88, 0].getD c 0
def counterSteps (c : Nat) : Nat := [256, 64, 16, 1024, 64, 3].getD c 0

/-- Value of a counter as its cells hold it (R449). -/
def State.counterCells (s : State) (c : Nat) : Nat :=
  s.otp.thermo.foldl (fun m x =>
    if counterBase c ≤ x.1 ∧ x.1 < counterBase c + counterSteps c ∧ x.2.reads then max m (x.1 - counterBase c + 1) else m) 0

/-- Counters by name. -/
def ctrAlmanac : Nat := 0
def ctrPatch : Nat := 1
def ctrEpoch : Nat := 2
def ctrSeal : Nat := 3
def ctrReprov : Nat := 4
def ctrLife : Nat := 5

/-- The counter that the operation in progress raises, and its target. -/
def State.raising (s : State) : Option (Nat × Nat) :=
  match s.otp.op with
  | some (.raise c _ t) => some (c, t)
  | some (.commit _ t) => some (ctrAlmanac, t)
  | some .sealCount => some (ctrSeal, s.counterCells ctrSeal + 1)
  | _ => none

/-- Copy B's first pulse has ended in the counter that is being raised: it reads its target (R450). -/
def State.raiseShown (s : State) : Bool := s.raising.isSome && decide (s.otp.shownAt ≤ s.now)

/-- Value of a counter as it reads, in the middle of a raise too (R449, R450). -/
def State.counter (s : State) (c : Nat) : Nat :=
  match s.raising with
  | some x => if x.1 = c ∧ s.raiseShown then max (s.counterCells c) x.2 else s.counterCells c
  | none => s.counterCells c

/-- A physical copy of a logical bit. -/
abbrev Copy := Nat × CopyName

/-- The three copies of a logical bit in the order they are programmed. -/
def copiesOf (bit : Nat) : List Copy := [(bit, .a), (bit, .b), (bit, .c)]

/-- Copies in the order of a raise from `f` to `t` of a counter (R450). -/
def raiseOrder (c f t : Nat) : List Copy :=
  if t ≤ f then []
  else copiesOf (counterBase c + t - 1) ++ ((List.range (t - 1 - f)).map (fun i => counterBase c + (t - 2 - i))).flatMap copiesOf

/-- Copies that healing programs: those not programmed in a bit that reads 1, and every copy of a gap (R451). -/
def State.healOrder (s : State) : List Copy :=
  (List.range 6).flatMap (fun c =>
    (List.range (s.counterCells c)).flatMap (fun i =>
      let b := counterBase c + i
      let t := s.thermo b
      (copiesOf b).filter (fun x => !(t.copy x.2 == .programmed))))

/-- One copy after its pulses: complete, or left marginal where it still reads 0 against normal (R443, R452). -/
def pulsed (weak : Bool) (x : OtpBit) : OtpBit := if weak && x != .programmed then .marginal else .programmed

/-- Pulses on copies in an order, as far as an operation came. -/
def pulseCopies (m : SMap Thermo) (l : List Copy) (e : OtpEnd) : SMap Thermo :=
  let k := e.completed.getD l.length
  (List.range l.length).foldl (fun m i =>
    match l[i]? with
    | none => m
    | some x =>
      let t := sget Thermo.blank m x.1
      let o := t.copy x.2
      let o' := if i < k then pulsed (e.weak.contains i) o
        else if i = k ∧ e.marginalNext ∧ o = .unprogrammed then .marginal else o
      sset Thermo.blank m x.1 (t.put x.2 o')) m

/-- Pulses on the bits of a word that are to be 1, bit 0 first (R445). -/
def pulseWord (x : OtpWord) (target : BitVec 39) (e : OtpEnd) : OtpWord :=
  let l := (List.range 39).filter (fun i => target.getLsbD i)
  let k := e.completed.getD l.length
  (List.range l.length).foldl (fun (x : OtpWord) i =>
    let b := l.getD i 0
    if i < k ∧ ¬ e.weak.contains i then { bits := setBit x.bits b true, marginal := setBit x.marginal b false }
    else if i < k ∨ (i = k ∧ e.marginalNext) then
      (if x.bits.getLsbD b then x else { x with marginal := setBit x.marginal b true })
    else x) x

/-- The first logical bit from c below t with a copy not programmed; t where there is none (R450). -/
def firstUnset (x : Nat → Thermo) (c t : Nat) : Nat :=
  ((List.range t).find? (fun i => decide (c ≤ i)
    && !((x i).a == .programmed && (x i).b == .programmed && (x i).c == .programmed))).getD t

/-- Physical bits of the operation in progress, in its order. -/
def State.opCopies (s : State) : OtpOp → List Copy
  | .raise c f t => raiseOrder c f t
  | .commit f t => raiseOrder ctrAlmanac f t
  | .sealCount => raiseOrder ctrSeal (s.counterCells ctrSeal) (s.counterCells ctrSeal + 1)
  | .heal => s.healOrder
  | _ => []

/-- The cells after the operation in progress has come as far as `e` says. -/
def State.pulseOp (s : State) (e : OtpEnd) : State :=
  match s.otp.op with
  | none => s
  | some (.program w d) =>
    { s with otp.words := sset default s.otp.words w (pulseWord (s.otpWord w) (otpEncode d) e) }
  | some o => { s with otp.thermo := pulseCopies s.otp.thermo (s.opCopies o) e }

/-- Number of physical bits the operation in progress pulses. -/
def State.opLen (s : State) : Nat :=
  match s.otp.op with
  | none => 0
  | some (.program _ d) => popcount 39 (otpEncode d).toNat
  | some o => (s.opCopies o).length

/-- How far the operation in progress has come when it is cut: which pulse was in progress is not stated (log 26). -/
def State.cutPlace (s : State) (i : Nat) : OtpEnd :=
  { completed := some (Config.freeNat i % (s.opLen + 1)), marginalNext := Config.freeBit i, weak := [] }

/-- A PROGRAM interrupted there leaves its word neither unprogrammed nor clean (R445). -/
def State.spoils (s : State) (w : Nat) (d : Word) (e : OtpEnd) : Bool :=
  let x := pulseWord (s.otpWord w) (otpEncode d) e
  !x.blank && !(x.ecc == 0)

/-- A place to cut at that the rules allow: a PROGRAM leaves a spoiled word, and a counter that reads its target has copy B's pulse
begun (R445, R450); another place is moved on to the first that they allow. -/
def State.fitEnd (s : State) (e : OtpEnd) : OtpEnd :=
  match e.completed, s.otp.op with
  | none, _ => e
  | some _, some (.program w d) =>
    if s.spoils w d e then e
    else (((List.range s.opLen).map (fun k => ({ completed := some (k + 1), marginalNext := false, weak := [] } : OtpEnd))).find?
      (s.spoils w d)).getD { completed := some 0, marginalNext := true, weak := [] }
  | some k, some _ =>
    if s.raiseShown ∧ ¬ (2 ≤ k ∨ (k = 1 ∧ e.marginalNext)) then { e with completed := some 1, marginalNext := true } else e
  | some _, none => e

/-- An operation cut by the loss of its domain (R455, R462, R488). -/
def State.cutOp (s : State) : State :=
  match s.otp.op with
  | none => s
  | some _ => { s.draw.2.pulseOp (s.fitEnd (s.cutPlace s.draw.1)) with otp.op := none }

end Sys2Proof.Machine
end

