-- ==== Sys2Proof/Machine/ThermModel.lean ====
section
/-! DEFINITION. The arithmetic of the thermal loop (09_thermal_plots): the thermistor formula, the plot model, bands,
drive energy and the rise per watt. Quotients are exact; where a value is held in fewer bits and no rounding is stated,
the neighbour taken is a free value (log 4). -/

namespace Sys2Proof.Machine

/-- A quotient held as an integer: exact where it is one, else one of its two neighbours, unstated which. -/
def roundFree (site : Nat) (num : Int) (den : Nat) : Int :=
  let q := Int.fdiv num den
  if q * den = num then q else if Config.roundUp site num den then q + 1 else q

/-- A quotient rounded to the nearest integer, a tie to an unstated side. -/
def roundNear (site : Nat) (num : Int) (den : Nat) : Int :=
  let q := Int.fdiv num den
  let r := 2 * (num - q * den)
  if r < den then q else if (den : Int) < r then q + 1 else if Config.roundUp site num den then q + 1 else q

/-! ### Thermistor (R223) -/

/-- 2^80, the scale of the logarithm. -/
def lnScale : Nat := 2 ^ 80

/-- Sum of y^(2j+1) / (2j+1) for a y held at the scale, y below 1/3 in magnitude. -/
def atanhSum (y : Int) : Int :=
  let y2 := tdiv (y * y) lnScale
  ((List.range 40).foldl (fun (a : Int × Int) (j : Nat) =>
    (a.1 + tdiv a.2 (2 * (j : Int) + 1), tdiv (a.2 * y2) lnScale)) (0, y)).1

/-- Natural logarithm of p ÷ q at the scale. -/
def lnFix (p q : Nat) : Int :=
  let a := Nat.log2 p
  let b := Nat.log2 q
  let p' := p * 2 ^ (b - a)
  let q' := q * 2 ^ (a - b)
  let y := tdiv (((p' : Int) - q') * lnScale) (p' + q')
  let ln2 := 2 * atanhSum (lnScale / 3)
  2 * atanhSum y + ((a : Int) - b) * ln2

/-- T_NTC in 1/16 °C of a code, R_NOM in 10 Ω and B in K (R223). -/
def ntcTemp (code rnom beta : Nat) : Int :=
  let p := 1000 * code
  let q := (65536 - code) * rnom
  let den := 100 * (beta : Int) * lnScale + 29815 * lnFix p q
  if code = 0 ∨ 65536 ≤ code ∨ rnom = 0 ∨ beta = 0 ∨ den ≤ 0 then Config.ntcUnstated code rnom beta
  else roundFree 1 (160 * (beta : Int) * 29815 * lnScale - 43704 * den) (10 * den).toNat

/-- Class of a thermistor code: open, short or good (R223). -/
def ntcClass (code : Nat) : NtcSt := if 64800 ≤ code then .open else if code ≤ 640 then .short else .good

/-- A diode reading outside −50.0 °C to +150.0 °C is bad (R225). -/
def diodeBad (t : Int) : Bool := decide (t < -800) || decide (2400 < t)

/-! ### Sensors of the state -/

/-- Whether a thermistor counts as good (R226). -/
def State.ntcGood (s : State) (i : Nat) : Bool := (vget s.therm.ntc i).st == .good

/-- A diode that has given a reading and is not bad. -/
def Diode.good (d : Diode) : Bool := d.seen && !d.bad

/-- T_DIE: the highest reading among the good diodes (R225). -/
def State.tDie (s : State) : Option Int :=
  (List.range 6).foldl (fun (a : Option Int) i =>
    let d := vget s.therm.diode i
    if !d.good then a else some (match a with | none => d.temp | some t => max t d.temp)) none

/-- Number of the diode that gives T_DIE, one of those that read it; 0 when none is good. -/
def State.dieNumber (s : State) : Nat :=
  match s.tDie with
  | none => 0
  | some t =>
    let l := (List.range 6).filter (fun i => let d := vget s.therm.diode i; d.good && d.temp == t)
    l.getD (Config.dieTie (l.foldl (fun m i => m + 2 ^ i) 0) % max 1 l.length) 0 + 1

/-- Any sensor broken (R226, R235). -/
def State.sensorBroken (s : State) : Bool :=
  anyTo 4 (fun i => !s.ntcGood i) || anyTo 6 (fun i => (vget s.therm.diode i).bad)

/-- Any good diode at or above a temperature. -/
def State.dieAtLeast (s : State) (t : Int) : Bool :=
  anyTo 6 (fun i => let d := vget s.therm.diode i; d.good && decide (t ≤ d.temp))

/-- Number and sum of the good thermistors. -/
def State.ntcCount (s : State) : Nat := sumTo 4 (fun i => if s.ntcGood i then 1 else 0)
def State.ntcSum (s : State) : Int := isumTo 4 (fun i => if s.ntcGood i then (vget s.therm.ntc i).temp else 0)

/-- The ambient node of a plot in 1/65,536 °C (R227). -/
def State.ambient (s : State) (p : Nat) : Int :=
  let a := s.alm.thermal
  let c := s.ntcCount
  let good := isumTo 4 (fun i => if s.ntcGood i then (plotWeight a p i : Int) * (vget s.therm.ntc i).temp else 0)
  let lost := isumTo 4 (fun i => if s.ntcGood i then 0 else (plotWeight a p i : Int))
  let off := 4096 * plotOffset a p
  if c = 0 then
    let t := match s.tDie with
      | some t => t
      | none => bandEdge a 11
    16 * (good + lost * t) + off
  else roundFree 2 (16 * (good * c + lost * s.ntcSum) + off * c) c

/-- The temperature of the DIE_COUPLE term in 1/65,536 °C (R228). -/
def State.dieNode (s : State) : Int :=
  4096 * (match s.tDie with
    | some t => t
    | none => match s.therm.lastDie with
      | some t => t
      | none => bandEdge s.alm.thermal 11)

/-- Neighbours of a plot in the 8 × 8 grid (R228). -/
def neighbours (p : Nat) : List Nat :=
  (if 8 ≤ p then [p - 8] else []) ++ (if p < 56 then [p + 8] else [])
    ++ (if 0 < p % 8 then [p - 1] else []) ++ (if p % 8 < 7 then [p + 1] else [])

/-- One step of a plot over `h` SCLK with energy `e` nJ: its new temperature and clamp (R228). -/
def State.stepPlot (s : State) (h e p : Nat) : Int × Bool :=
  let a := s.alm.thermal
  let t := (vget s.therm.plot p).t
  let nb := neighbours p
  let g := plotAmb a p + nb.length * plotNbr a p + plotDie a p
  let flow := (plotAmb a p : Int) * (t - s.ambient p)
    + (plotNbr a p : Int) * nb.foldl (fun x q => x + (t - (vget s.therm.plot q).t)) 0
    + (plotDie a p : Int) * (t - s.dieNode)
  let cap := plotCap a p
  let heat := (plotEta a p : Int) * e
  let unit := 100 * sclkHz
  if 2 * h * g > unit * cap then
    (t + roundFree 3 (heat * (2 * g) - flow * 1000000 * cap) (1000000 * cap * 2 * g), true)
  else (t + roundFree 3 (heat * unit - (h : Int) * flow * 1000000) (1000000 * unit * cap), false)

/-- Every plot stepped once from the values before the step. -/
def State.stepPlots (s : State) (h : Nat) (e : Nat → Nat) : State :=
  { s with therm.plot := vmapIdx (fun p (x : Plot) =>
      let r := s.stepPlot h (e p) p
      { x with t := r.1, clamp := r.2 }) s.therm.plot }

/-- T_P at its 1/16 °C value (R228, R235). -/
def plotTemp16 (t : Int) : Int := roundNear 4 t 4096

/-! ### Bands (R230, R231) -/

/-- Half-band hysteresis of edge b, in 1/65,536 °C. -/
def bandHys (a : Alm) (b : Nat) : Int :=
  if b = 1 then 2048 * (bandEdge a 2 - bandEdge a 1) else 2048 * (bandEdge a b - bandEdge a (b - 1))

/-- Upward moves of R230. -/
def bandUp (a : Alm) (t : Int) : Nat → Nat → Nat
  | 0, m => m
  | f + 1, m => if m < 11 ∧ 4096 * bandEdge a (m + 1) ≤ t then bandUp a t f (m + 1) else m

/-- Downward moves of R230. -/
def bandDown (a : Alm) (t : Int) : Nat → Nat
  | 0 => 0
  | m + 1 => if t < 4096 * bandEdge a (m + 1) - bandHys a (m + 1) then bandDown a t m else m + 1

/-- The band of a temperature from a previous band (R230). -/
def bandOf (a : Alm) (n : Nat) (t : Int) : Nat := bandDown a t (bandUp a t 11 n)

/-- Influenced by a broken sensor (R231). -/
def State.plotBroken (s : State) (p : Nat) : Bool :=
  let a := s.alm.thermal
  anyTo 4 (fun i => !s.ntcGood i && !(plotWeight a p i == 0))
    || (!(plotDie a p == 0) && anyTo 6 (fun i => (vget s.therm.diode i).bad))

/-- Bands of every plot found and marked, not yet written into the band log (R230, R231). -/
def State.findBands (s : State) : State :=
  { s with therm.plot := vmapIdx (fun p (x : Plot) =>
      let n := bandOf s.alm.thermal x.band x.t
      let forced := s.plotBroken p || x.cfg.getLsbD 0
      { x with band := n, forced := forced, pub := if forced then 11 else n }) s.therm.plot }

/-! ### Drive energy (R219) -/

/-- Magnitude of source rail x, in the order of QC_SEL, in millionths of a volt times 1,000 (set value with trim). -/
def State.railMag (s : State) (x : Nat) : Nat :=
  let row := railSetRow s.tree.railSet.maj.toNat
  let mv := row.getD (if x < 3 then x else 5 - x) 0
  mv * (1000 + vget s.tree.trimNow x).toNat

/-- E_P in nJ of a plot's six latched counts. -/
def State.plotEnergy (s : State) (q : Vector Nat 6) : Nat :=
  (roundFree 5 (sumTo 6 (fun x => vget q x * s.railMag x) : Nat) 1000000).toNat

/-! ### Rise per watt (R240) -/

/-- E_TOT in nJ and time in SCLK of the frames of the last 64 s. -/
def State.driveSum (s : State) : Nat × Nat :=
  (s.therm.drive.filter (fun d => decide (s.now < d.1 + 64 * sclkHz))).foldl (fun a d => (a.1 + d.2.1, a.2 + d.2.2)) (0, 0)

/-- Rise per watt as numerator and denominator; P_DRIVE is 0 while no frame has run. -/
def State.riseRatio (s : State) (die : Int) : Int × Nat :=
  let d := s.driveSum
  let n := if d.2 = 0 then 1 else d.2
  let c := s.ntcCount
  (((c : Int) * die - s.ntcSum) * (10 * n * 1000000000), 16 * c * (d.1 * 10 * sclkHz + 9 * n * 1000000000))

/-- P_DRIVE is at least 0.50 W. -/
def State.driveHalfWatt (s : State) : Bool :=
  let d := s.driveSum
  decide (d.2 * 500000000 ≤ d.1 * sclkHz) && !(d.2 == 0)

end Sys2Proof.Machine
end

