-- ==== Sys2Proof/Machine/StartCore.lean ====
section
/-! DEFINITION. Entering and leaving the reset condition and DORMANT (22_start_up, 15_power_states, 02_package_and_leads):
what is lost and kept, the causes of a start-up, and its time zero. -/

namespace Sys2Proof.Machine

/-- The main domains off: every block returns to its reset; the backup domain, OTP's cells, the supplies' comparators and
the records the backup domain keeps stay (R32, R101, R474). -/
def State.mainReset (s0 : State) : State :=
  let s := s0.cutOp
  { State.reset with
    pending := s.pending, now := s.now, free := s.free, rtc := s.rtc
    otp := { OtpState.reset with words := s.otp.words, thermo := s.otp.thermo, factory := s.otp.factory, supplyOk := s.otp.supplyOk }
    pwr := { PwrState.reset with wake := s.pwr.wake, mHouse := s.pwr.mHouse, mPostA := s.pwr.mPostA,
                                 mPostB := s.pwr.mPostB, mBak := s.pwr.mBak }
    seq := { SeqState.reset with hedgeStep := s.seq.hedgeStep, hedgeCause := s.seq.hedgeCause }
    tree := { TreeState.reset with vinValid := s.tree.vinValid, vinOv := s.tree.vinOv
                                   startReg := s.tree.vinValid || s.rtc.backupRun }
    clock := { ClockState.reset with xtalOk := s.clock.xtalOk, xtalStopped := s.clock.xtalStopped }
    rw := { RwState.reset with sent := s.rw.sent } }

/-- Bits of `PWR_WAKE` (R360). -/
def wakeFrameBit : Nat := 0
def wakeAlarm1Bit : Nat := 1
def wakeAlarm2Bit : Nat := 2
def wakeVinBit : Nat := 3
def wakeResetBit : Nat := 4
def wakePowerOnBit : Nat := 5
def wakeDeferredBit : Nat := 6
def wakeDormantBit : Nat := 7

/-- Collects a cause for the next replacement of `PWR_WAKE` (R481). -/
def State.addCause (s : State) (b : Nat) : State := { s with rtc.causes := setBit s.rtc.causes b true }

/-- A supply the main domains can start from: VIN valid, or the delivery path in a backup run (R440, R482). -/
def State.supplied (s : State) : Bool := s.tree.vinValid || s.rtc.backupRun

/-- Time zero of a start-up, when supply and crystal are there and RESET_N is released: the causes replace `PWR_WAKE`, and
OTP delivery begins (R481, R482). -/
def State.tryTimeZero (s : State) : State :=
  if s.up.stage = .wait ∧ s.supplied ∧ s.clock.xtalOk ∧ ¬ s.rtc.resetN ∧ s.rtc.alive then
    { s with pwr.wake := s.rtc.causes, rtc.causes := 0, rtc.path := s.rtc.path && !s.tree.vinValid
             rtc.isolated := s.rtc.isolated && !s.tree.vinValid, rtc.vinBack := false
             up.stage := .otp, up.at_ := s.now }
  else s

/-- A start-up is entered: main domains in the reset condition, RSTOUT_N asserted, time zero awaited (R480). The wake matcher is
armed by a DORMANT entry only (R489). A write posted to the backup domain before VIN's loss, which DORMANT kept, still lands (R441).
-/
def State.enterStartup (s : State) : State :=
  let s1 := s.mainReset
  State.tryTimeZero { s1 with acc.posted := if s.up.stage = .off then s.acc.posted else [], up := { UpState.reset with stage := .wait, at_ := s.now }, rtc.armed := false }

/-- A start-up on the delivery path (R435, R440). -/
def State.enterBackupRun (s : State) : State := State.enterStartup { s with rtc.backupRun := true, rtc.path := true, rtc.isolated := true }

/-- Backup wake is allowed: BAKSET's copy and the reserve (R72, R428, R434). -/
def State.backupWakes (s : State) : Bool := bakWake s.pwr.mBak.toNat && s.rtc.wakeOk

/-! ### The charger (R431, R432) -/

/-- BAKSET in use: the bin read at start-up, or its copy while the main domains are off (R72, R360). -/
def State.bakBin (s : State) : Nat :=
  if [Stage.pll, .boot, .e0, .linkWait, .plan, .complete].contains s.up.stage then s.bin 8 else s.pwr.mBak.toNat

/-- The charger may run. -/
def State.chargerOn (s : State) : Bool :=
  s.tree.vinValid && s.rtc.alive && bakCharger s.bakBin && s.rtc.chgEn && s.rtc.testing.isNone && s.rtc.deliveryAt.isNone
    && !s.rtc.backupRun

/-- NiMH, whose charge is never stopped (R431). -/
def State.nimh (s : State) : Bool := s.bakBin == 4 || s.bakBin == 5

/-- `RTC_CHG.CHARGING` follows. -/
def State.chargeFollow (s : State) : State := { s with rtc.charging := s.chargerOn && (!s.rtc.full || s.nimh) }

/-! ### The reset condition and DORMANT -/

/-- The reset condition after RESET_N's order: held while RESET_N is asserted, a start-up if it is released (R488). A
summer-time command that waited is dropped: DST_PENDING is 0 at reset (R11, R419). -/
def State.enterReset (s0 : State) : State :=
  let s := { s0 with rtc.path := false, rtc.backupRun := false, rtc.deliveryAt := none, rtc.deliveryDone := false
                     rtc.runDoneAt := none, rtc.resetDue := false, rtc.vinBack := false, acc.posted := []
                     rtc.dst := 0, rtc.dstNew := 0, rtc.dstPending := false }
  let s1 := s.mainReset.chargeFollow
  if s.rtc.resetN then { s1 with up := { UpState.reset with stage := .held, at_ := s.now } } else s.enterStartup

/-- The causes of alarms. -/
def State.alarmCauses (s : State) (a : BitVec 2) : State :=
  let s1 := if a.getLsbD 0 then s.addCause wakeAlarm1Bit else s
  if a.getLsbD 1 then s1.addCause wakeAlarm2Bit else s1

/-- Alarms that act in DORMANT: a start-up, or a backup run where VIN is not valid; none: nothing (R428). -/
def State.alarmStart (s : State) (a : BitVec 2) : State :=
  let s2 := (s.alarmCauses a).addCause wakeDormantBit
  if a = 0 then s
  else if s.tree.vinValid then s2.enterStartup
  else if s.backupWakes then s2.enterBackupRun
  else s

/-- Main domains off with the backup domain alive: DORMANT. A write posted to the backup domain still lands (R395). A wake that was
held, VIN's return meanwhile, and a RESET_N that was deferred, act at once; the start-up carries the bits of all that were held
(R354, R355, R441, R488). -/
def State.enterDormant (s : State) : State :=
  let s0 := s.mainReset
  let s1 := { s0 with pwr.st := .dormant, up := { UpState.reset with stage := .off, at_ := s.now },
                      rtc.path := false, rtc.backupRun := false, rtc.deliveryAt := none,
                      rtc.deliveryDone := false, rtc.runDoneAt := none, rtc.resetDue := false,
                      rtc.vinBack := false, pwr.vinGone := !s.tree.vinValid || s.rtc.vinBack || s.pwr.vinGone
                      acc.posted := s.acc.posted.filter (fun p => p.backup) }
  let f := if s.pwr.held then s1.chargeFollow.addCause wakeFrameBit else s1.chargeFollow
  if s.rtc.resetDue ∨ s.rtc.resetN then
    State.enterReset ((s1.chargeFollow.addCause wakeResetBit).addCause wakeDormantBit)
  else if s.tree.vinValid ∧ (s.rtc.vinBack ∨ s.pwr.vinGone) then
    State.enterStartup (((f.alarmCauses s.pwr.heldAlarm).addCause wakeVinBit).addCause wakeDormantBit)
  else if s.pwr.held ∧ s.tree.vinValid then
    State.enterStartup ((f.alarmCauses s.pwr.heldAlarm).addCause wakeDormantBit)
  else (if s.pwr.held then f.addCause wakeDeferredBit else f).alarmStart s.pwr.heldAlarm

/-- Engines run and registers can be served: from E0's run to the end of the main domains' supply. -/
def State.e0Runs (s : State) : Bool := [Stage.e0, .linkWait, .plan, .complete].contains s.up.stage

/-- The logic core has its clock: E0 runs, and no loss of lock has taken it away (R288). -/
def State.clocked (s : State) : Bool := s.e0Runs && s.clock.pllLock

/-- RSTOUT_N asserted (R45, R484). -/
def State.rstoutAsserted (s : State) : Bool := s.up.rstOut

/-- RESET_N's order runs, or the drops that end it (R343). -/
def State.resetOrder (s : State) : Bool := s.seq.after == .reset || s.seq.run == .resetDrop

/-- The reset condition of 02_package_and_leads: up to E0's start of the sequence plan, and while held. -/
def State.inReset (s : State) : Bool :=
  [Stage.held, .wait, .otp, .otpFail, .straps, .pll, .boot, .e0].contains s.up.stage

end Sys2Proof.Machine
end

