-- ==== Sys2Proof/Machine/SeqCore.lean ====
section
/-! DEFINITION. The sequencer (14_sequencing_and_supervision, 13_power_tree): rail-up, rail-down and what follows it, the
sequence plans, auxiliary rails, load switches, front light off, and the stops of the scan (R130). No fault is raised here. -/

namespace Sys2Proof.Machine

/-! ### Sequence plans (R336) -/

def auxStep (n : Fin 4) : PlanStep := .aux n
def lswStep (n : Fin 4) : PlanStep := .lsw n
def delayStep (ms : Nat) : PlanStep := .delay ms

/-- Power-up steps of a plan (R336). -/
def planSteps : Nat → List PlanStep
  | 0 => [.aux 0]
  | 1 => [.aux 0, .delay 10, .lsw 0]
  | 2 => [.aux 0, .aux 1]
  | 3 => [.aux 0, .aux 1, .delay 10, .lsw 0, .lsw 1]
  | 4 => [.aux 0, .aux 1, .aux 2]
  | 5 => [.aux 0, .aux 1, .aux 2, .delay 20, .lsw 0, .delay 20, .lsw 1]
  | 6 => [.aux 0, .aux 1, .aux 2, .aux 3]
  | 7 => [.aux 0, .aux 1, .aux 2, .aux 3, .delay 10, .lsw 0, .lsw 1, .lsw 2, .lsw 3]
  | 8 => [.aux 1, .aux 0]
  | 9 => [.aux 1, .aux 0, .delay 50, .lsw 0]
  | 10 => [.aux 0, .lsw 0, .delay 100, .aux 1, .lsw 1]
  | 11 => [.aux 0, .aux 1, .delay 5, .lsw 0, .delay 5, .lsw 1, .delay 5, .lsw 2]
  | 12 => [.lsw 0]
  | 13 => [.aux 0, .aux 2, .delay 20, .lsw 0, .lsw 2]
  | 14 => [.aux 0, .aux 1, .aux 2, .aux 3, .lsw 0]
  | _ => []

/-- Items dropped on entry to HOLD (R336). -/
def planHoldItems : Nat → List PlanStep
  | 3 => [.lsw 1]
  | 5 => [.lsw 1]
  | 7 => [.lsw 2, .lsw 3]
  | 9 => [.lsw 0]
  | 10 => [.aux 1, .lsw 1]
  | 11 => [.lsw 2]
  | 13 => [.lsw 2]
  | 14 => [.aux 1, .aux 2, .aux 3, .lsw 0]
  | _ => []

/-- The plan in use (R336, R346). -/
def State.planNo (s : State) : Nat := s.seq.plan.maj.toNat

/-- Whether the plan names an auxiliary rail or a load switch (R328). -/
def State.planAux (s : State) (n : Nat) : Bool :=
  (planSteps s.planNo).any (fun x => match x with | .aux k => k.val == n | _ => false)
def State.planLsw (s : State) (n : Nat) : Bool :=
  (planSteps s.planNo).any (fun x => match x with | .lsw k => k.val == n | _ => false)

/-! ### Auxiliary rails and load switches (R316, R318) -/

/-- Rewrites one auxiliary rail or load switch. -/
def State.modAux (s : State) (n : Nat) (f : Aux → Aux) : State := { s with tree.aux := vmod s.tree.aux n f }
def State.modLsw (s : State) (n : Nat) (f : Lsw → Lsw) : State := { s with tree.lsw := vmod s.tree.lsw n f }

/-- The reference ramps from 0 V in 2.0 ms, out of a ramp-down too (R316). -/
def State.auxStart (s : State) (n : Nat) : State :=
  let falling := fun (a : Aux) => match a.ramp with | .down _ => true | _ => false
  s.modAux n (fun a => if a.en && a.raised && !a.latched && (!a.running || falling a) then
    { a with running := true, pg := false, armed := false, ramp := .up (s.now + usToSclk 2000) } else a)

/-- The reference ramps to 0 V until `e`, unless it is ramping there already; AUX_UV is blanked until 1 ms after (R316,
R340). -/
def State.auxStop (s : State) (n e : Nat) : State :=
  s.modAux n (fun a => match a.ramp with
    | .down _ => a
    | _ => if a.running then { a with pg := false, ramp := .down e, blankTo := e + usToSclk 1000 } else a)

/-- LSWn_N follows the plan's hold and EN (R318). -/
def State.lswFollow (s : State) (n : Nat) : State := s.modLsw n (fun l => { l with asserted := l.en && l.raised })

/-- The plan raises an item: it holds the item on from here, and the item runs where EN permits it (R316, R335; log 22). -/
def State.raiseAux (s : State) (n : Nat) : State := (s.modAux n (fun a => { a with raised := true })).auxStart n
def State.raiseLsw (s : State) (n : Nat) : State := (s.modLsw n (fun l => { l with raised := true })).lswFollow n

/-- The plan drops an item. -/
def State.dropAux (s : State) (n e : Nat) : State := (s.modAux n (fun a => { a with raised := false })).auxStop n e
def State.dropLsw (s : State) (n : Nat) : State := (s.modLsw n (fun l => { l with raised := false })).lswFollow n

/-- Some auxiliary rail is ramping down. -/
def State.auxFalling (s : State) : Bool :=
  anyTo 4 (fun n => match (vget s.tree.aux n).ramp with | .down _ => true | _ => false)

/-- Front light off: FLGATE low, LED1 to LED8 at high impedance (R46, R342). -/
def State.lightsOff (s : State) : State :=
  { s with tree.led := vmapIdx (fun _ (l : Led) => { l with on := false, onWas := false, soft := none }) s.tree.led
           tree.boostOv := false }

/-- Every auxiliary item, or those AUXKEEP does not keep, released and ramped down until `e` (R342, R343, R438). -/
def State.dropItems (s : State) (keep : Bool) (e : Nat) : State :=
  (List.range 4).foldl (fun (s : State) n =>
    if keep && s.auxKept n then s else (s.dropLsw n).dropAux n e) s

/-! ### Stops of the scan (R130) -/

/-- What every stop of the scan ends: the frame in progress, a headland measurement (R125), the scan's locks, the units that the
frame's sweeps offered (R250). -/
def State.stopScan (s : State) : State :=
  let s1 := s.releaseRows.freeGrids
  { s1 with scan.scanning := false, scan.startDue := none, scan.firstFrame := true, panel.hlNow := none, panel.srcCodes := [], panel.srcFloat := false,
            panel.prevCodes := [], panel.prevFloat := false, panel.zeroPass := [], drills.offers := [] }

/-- The counts of the plot row in progress fall into that row (R28, R220). -/
def State.latchCharge (s : State) : State :=
  let s1 :=
    if s.scan.slot < 33 then s
    else
      let j := (s.scan.slot - 33) / s.plotH
      { s with panel.qPlot := vmapIdx (fun p (q : Vector Nat 6) =>
          if p / 8 = j then vget s.panel.qRun (p % 8) else q) s.panel.qPlot }
  { s1 with panel.qRun := Vector.replicate 8 (Vector.replicate 6 0) }

/-- Energies and saturation of the plots from the counts latched, and their sum; the boundary that starts the scan has no frame
behind it, and neither (R219, R220). -/
def State.formEnergy (s : State) : State :=
  let e := fun p => if s.scan.firstFrame then 0 else s.plotEnergy (vget s.panel.qPlot p)
  let s1 := { s with therm.plot := vmapIdx (fun p (x : Plot) =>
    { x with e := e p, sat := !s.scan.firstFrame && anyTo 6 (fun r => vget (vget s.panel.qPlot p) r == 16777215) }) s.therm.plot }
  { s1 with therm.eTot := sumTo 64 (fun p => (vget s1.therm.plot p).e) }

/-- An abrupt stop: the rows whose latch point had not passed are not delivered, so the frame is no whole one (R185); the energy
of the part of the frame that ran steps the model once over the time from that frame's boundary (R130, R220). -/
def State.abruptStop (s : State) : State :=
  if s.scan.scanning then
    let s1 := s.latchCharge.formEnergy
    let s2 := if s.therm.started then s1.stepPlots (s.now - s.scan.boundaryAt) (fun p => (vget s1.therm.plot p).e) else s1
    State.stopScan { s2 with scan.cleanLast := false }
  else s.stopScan

/-- A stop by the hedge: the part-frame's energy is lost with the logic core's state where E0 has no clock (R220). -/
def State.hedgeStop (s : State) : State :=
  if s.clock.pllLock then s.abruptStop else State.stopScan { s with scan.cleanLast := false }

/-! ### The rail order (R329) -/

/-- Rail, in the order of `RAIL_TRIM`, of step k of a rail-up, 1 to 8, and of step k of a rail-down, 2 to 9. -/
def upRail (k : Nat) : Nat := [7, 7, 5, 4, 3, 2, 1, 0, 6].getD k 6
def downRail (k : Nat) : Nat := [6, 6, 6, 0, 1, 2, 3, 4, 5, 7].getD k 7

/-- A bit of the rail-enable word that the stages follow: rail k, or 8 for VCOM (R334; log 18). -/
def State.enabled (s : State) (k : Nat) : Bool := s.seq.acted.getLsbD k

/-- Any panel rail is raised. -/
def State.anyRail (s : State) : Bool := !(s.seq.acted == 0)

/-- All three copies of the enable word written with one bit changed, and acted on (R334). -/
def State.setEnable (s : State) (k : Nat) (b : Bool) : State :=
  let w := Machine.setBit s.seq.acted k b
  { s with seq.enable := Trip.all w, seq.acted := w }

/-- Phase shown while the rails move, unless a delivery or the hedge shows its own (R346). -/
def State.showPhase (s : State) (p : SeqPhase) : State :=
  if s.seq.hedge ∨ s.seq.phase = .delivery then s else { s with seq.phase := p }

/-- Step k of a rail-up begins: discharge off, the trim taken, soft-start (R309, R330). -/
def State.startUpStep (s : State) (k : Nat) : State :=
  let r := upRail k
  let s1 := s.setEnable r true
  { s1 with tree.disch := Machine.setBit s.tree.disch r false, tree.trimNow := vset s.tree.trimNow r (vget s.tree.trim r)
            seq.stuckRails := Machine.setBit s.seq.stuckRails r false, seq.railStep := k, seq.railAt := s.now, seq.rising := true }

/-- Step 9: every rail is up, each enabled VCOM channel ramps (R120, R330). -/
def State.startVcomStep (s : State) : State :=
  let s1 := (s.setEnable 8 true).vcomRampUp
  { s1 with tree.railsUp := true, seq.railStep := 9, seq.railAt := s.now, seq.rising := true }

/-- The first rail after step k that is neither skipped nor up begins; when none is left, step 9 (R329, R333). -/
def State.nextUp (s : State) (k : Nat) : State :=
  match (List.range 9).find? (fun j => decide (k < j) && !s.seq.skip.getLsbD (upRail j) && !s.tree.pg.getLsbD (upRail j)) with
  | some j => s.startUpStep j
  | none => s.startVcomStep

/-- Rail-up begins (R330). -/
def State.beginRailUp (s : State) : State :=
  let s1 := s.showPhase .railUp
  State.nextUp { s1 with seq.beganAt := s.now, seq.lone := false } 0

/-- A rail's drop begins: stage off, supervisors off, discharge on (R331). -/
def State.startDrop (s : State) (k : Nat) : State :=
  let r := downRail k
  let s1 := s.setEnable r false
  { s1 with tree.pg := Machine.setBit s.tree.pg r false, tree.disch := Machine.setBit s.tree.disch r true
            tree.railsUp := false, therm.roundBlank := true, panel.hlNow := none, seq.railStep := k, seq.railAt := s.now, seq.rising := false, seq.vglHold := false
            seq.oc := Machine.setBit s.seq.oc r false, seq.ov := Machine.setBit s.seq.ov r false
            seq.uv := Machine.setBit s.seq.uv r false }

/-- The hedge times the order: a takeover, or RESET_N's (R342, R343). -/
def State.hedgeTimes (s : State) : Bool := s.seq.hedge || s.seq.after == .reset

/-- Length of the VCOM ramp: 1.0 ms, or the hedge's 33 cycles after one cycle, up to 30 % longer on the RC count (R331, R342). -/
def State.vcomDownLen (s : State) : Nat := if s.hedgeTimes then 34 * cycle else usToSclk 1000

/-- The source rails that a step's limit left above 1 V (R331). -/
def State.sourcesHeld (s : State) : Bool := anyTo 6 (fun r => s.seq.stuckRails.getLsbD r)

/-- The drop of step j, but VGL waits for the source rails (R331). -/
def State.dropStep (s : State) (j : Nat) : State :=
  if j = 9 ∧ s.sourcesHeld then
    { s with seq.railStep := 9, seq.railAt := s.now, seq.rising := false, seq.vglHold := true }
  else s.startDrop j

/-- The next step of rail-down after step k whose rail is raised; VGL waits for the source rails. False: none was left
(R329, R331). -/
def State.nextDown (s : State) (k : Nat) : State × Bool :=
  match (List.range 10).find? (fun j => decide (k < j) && s.enabled (if j = 1 then 8 else downRail j)) with
  | none => ({ s with seq.railStep := 0, seq.vglHold := false }, false)
  | some 1 =>
    let e := s.now + s.vcomDownLen
    let s1 := (s.setEnable 8 false).vcomRampDown e
    ({ s1 with seq.railStep := 1, seq.railAt := s.now, seq.rising := false, panel.hlNow := none }, true)
  | some j => (s.dropStep j, true)

/-! ### Plans as they run (R335, R337) -/

/-- The end of a state entry or return is marked for attention (R379, R389). -/
def State.markState (s : State) : State :=
  if s.link.cfg.getLsbD 1 then { s.hwSet 0x501 16 with link.attnState := true } else s

/-- A return from HOLD begins; a reaction that waited for it has its decision point 1 ms after (R352, R469). -/
def State.beginReturn (s : State) (slow : Bool) : State :=
  { s with flt.react := s.flt.react.map (fun r =>
             if r.stage = .waitReturn then { r with stage := .toDecision, at_ := s.now } else r)
           pwr.st := .ret, pwr.retAt := some s.now, pwr.retSlow := slow, pwr.held := false, pwr.committed := false
           pwr.awake := Vector.replicate 3 none
           pwr.retUp := BitVec.ofNat 3 (sumTo 3 (fun k => if (vget s.pwr.awake k).isSome then 2 ^ k else 0)) }

/-- HOLD is reached; a wake event that was held begins the return (R349, R350). -/
def State.reachHold (s : State) : State :=
  let s1 := State.markState { s with pwr.st := .hold, pwr.committed := false, pwr.attnHeld := 0 }
  if s.pwr.held then s1.beginReturn s.pwr.resume else s1

/-- The rail-up of a start-up or a recovery may begin: its plan steps have ended, no decision point is awaited. -/
def State.reactionHolds (s : State) : Bool :=
  match s.flt.react with
  | none => false
  | some r => !(r.stage == .railUp)

/-- The plan's power-up steps have ended: rail-up begins, unless a reaction's decision point is awaited, or in a hedge, DARK
or abandoned start-up (R337, R469, R475). A plan run when VIN returns in a backup run finds it begun (R440). -/
def State.planUpEnd (s : State) : State :=
  let s1 := { s with up.planDone := true, seq.run := .none, seq.place := 0 }
  let s2 := if s.tree.railsUp then s1.showPhase .up else s1.showPhase .idle
  if s.up.planDone then s2
  else if s.reactionHolds ∨ s.seq.hedge ∨ s.flt.dark then { s2 with up.firstUp := true } else s2.beginRailUp

/-- What the end of a list of items brings, by how it was run (R337). -/
def State.planEnd (s : State) : State :=
  let s1 := { s with seq.run := .none, seq.steps := [], seq.place := 0 }
  match s.seq.run with
  | .powerUp => s1.planUpEnd
  | .holdDrop => (s1.showPhase .idle).reachHold
  | .dormantDrop => State.enterDormant { s1 with now := (s.now / cycle + 1) * cycle }
  | .holdReturn => { s1 with seq.droppedAux := 0, seq.droppedLsw := 0 }
  | _ => s1

/-- Whether a dropped item follows, for the delays of a return (R337). -/
def State.nextDropped (s : State) : List PlanStep → Bool
  | .aux n :: _ => s.seq.droppedAux.getLsbD n
  | .lsw n :: _ => s.seq.droppedLsw.getLsbD n
  | _ => false

/-- Runs the steps that end at once, up to one that waits: an auxiliary rail's power-good or ramp, or a delay. -/
def State.runSteps (s : State) : List PlanStep → Nat → State
  | [], _ => s.planEnd
  | x :: l, k =>
    let wait (t : State) : State := { t with seq.steps := x :: l, seq.place := k, seq.stepAt := s.now }
    match s.seq.run, x with
    | .powerUp, .aux n =>
      let t := s.raiseAux n
      if (vget t.tree.aux n).en then wait t else t.runSteps l (k + 1)
    | .powerUp, .lsw n => (s.raiseLsw n).runSteps l (k + 1)
    | .powerUp, .delay _ => wait s
    | .holdReturn, .aux n =>
      if s.seq.droppedAux.getLsbD n then
        let t := s.raiseAux n
        if (vget t.tree.aux n).en then wait t else t.runSteps l (k + 1)
      else s.runSteps l (k + 1)
    | .holdReturn, .lsw n =>
      if s.seq.droppedLsw.getLsbD n then (s.raiseLsw n).runSteps l (k + 1) else s.runSteps l (k + 1)
    | .holdReturn, .delay _ => if s.nextDropped l then wait s else s.runSteps l (k + 1)
    | _, .aux n =>
      let t := s.dropAux n (s.now + usToSclk 2000)
      if (vget s.tree.aux n).running then wait t else t.runSteps l (k + 1)
    | _, .lsw n => (s.dropLsw n).runSteps l (k + 1)
    | _, .delay _ => wait s

/-- The step in progress has ended; the next begins. -/
def State.planNext (s : State) : State :=
  match s.seq.steps with
  | [] => s
  | _ :: l => s.runSteps l (s.seq.place + 1)

/-- Begins a list of steps. -/
def State.runPlan (s : State) (r : PlanRun) (l : List PlanStep) : State :=
  State.runSteps { s with seq.run := r } l 1

/-- Start-up's power-up steps; none in a backup run (R337, R440). -/
def State.planPowerUp (s : State) : State :=
  if s.rtc.backupRun then s.planUpEnd
  else State.runPlan (s.showPhase .plan) .powerUp (planSteps s.planNo)

/-- Items dropped on entry to HOLD, in reverse plan order (R337). -/
def State.planHoldDrop (s : State) : State :=
  let items := planHoldItems s.planNo
  let auxM := items.foldl (fun (m : BitVec 4) x => match x with | .aux n => setBit m n true | _ => m) 0
  let lswM := items.foldl (fun (m : BitVec 4) x => match x with | .lsw n => setBit m n true | _ => m) 0
  let s1 := { s with seq.droppedAux := auxM, seq.droppedLsw := lswM }
  State.runPlan (s1.showPhase .items) .holdDrop items.reverse

/-- Dropped items raised on the return from HOLD (R337). -/
def State.planHoldReturn (s : State) : State := s.runPlan .holdReturn (planSteps s.planNo)

/-- Power-up steps in reverse on entry to DORMANT; none were run in a backup run, all are down in a delivery (R337, R438,
R440). -/
def State.planDormantDrop (s : State) : State :=
  let l := if s.rtc.backupRun ∨ s.rtc.deliveryAt.isSome then [] else planSteps s.planNo
  State.runPlan (s.showPhase .items) .dormantDrop l.reverse

/-! ### What follows a rail-down -/

/-- What of the hedge's order after VGL's step has come by now: the front light off one cycle after it, the auxiliary items
dropped two cycles after, kept ones left alone unless RESET_N has given the order (R342, R343; log 20). -/
def State.hedgeDue (s : State) : State :=
  let s1 := if s.seq.tail = 2 ∧ s.seq.stepAt + cycle ≤ s.now then { s.lightsOff with seq.tail := 1 } else s
  if s1.seq.tail = 1 ∧ s1.seq.stepAt + 2 * cycle ≤ s1.now then
    let s2 := s1.dropItems (s1.seq.run == .hedgeDrop) s1.seq.hedgeEnd
    { s2 with seq.tail := 0, seq.hedgeStep := if s2.seq.hedge then 5 else s2.seq.hedgeStep }
  else s1

/-- VGL's step has ended under the hedge: the fourth, fifth and sixth events follow (R342). -/
def State.hedgeTail (s : State) : State :=
  { s with seq.hedgeStep := 3, seq.run := .hedgeDrop, seq.stepAt := s.now, seq.tail := 2, seq.hedgeEnd := s.now + 68 * cycle }

/-- A takeover that finds no rail up applies the end of its order at once; its ramps take 66 cycles (R341). -/
def State.hedgeAtOnce (s : State) : State :=
  let e := s.now + 66 * cycle
  let s1 := s.lightsOff.dropItems true e
  { s1 with seq.hedgeStep := 5, seq.run := .hedgeDrop, seq.stepAt := s.now, seq.hedgeEnd := e, seq.after := .nothing }

/-- DARK carried out by E0 ends in the same state (R463). -/
def State.darkTail (s : State) : State :=
  let s1 := s.lightsOff.dropItems true (s.now + usToSclk 2000)
  { s1 with seq.run := .hedgeDrop, seq.stepAt := s.now }

/-- RESET_N's order: every item, kept or not (R343). The reset condition begins when the ramps end, or in their step where no
rail runs. -/
def State.resetTail (s : State) : State :=
  if anyTo 4 (fun n => (vget s.tree.aux n).running) then
    { s with seq.run := .resetDrop, seq.stepAt := s.now, seq.tail := 2, seq.hedgeEnd := s.now + 68 * cycle }
  else (s.reach (s.now + 2 * cycle)).enterReset

/-- `PWR_MATCH` copied and the wake matcher armed (R354, R360). -/
def State.copyMatch (s : State) : State :=
  { s with pwr.mHouse := BitVec.ofNat 4 s.house, pwr.mPostA := BitVec.ofNat 4 s.postA, pwr.mPostB := BitVec.ofNat 4 s.postB
           pwr.mBak := BitVec.ofNat 4 (s.bin 8), rtc.armed := true }

/-- RSTOUT_N asserted, FAULT_N released, then the plan in reverse (R354); a final delivery copies and arms here (log 28). -/
def State.dormantTail (s : State) : State :=
  State.planDormantDrop { s.copyMatch with up.rstOut := true, flt.react := none, flt.dark := false }


/-- Rail-down has ended (R331): its length is kept where one ran, and what it was for goes on. -/
def State.railDownEnd (s : State) (ran : Bool) : State :=
  let len := (s.now - s.seq.beganAt) * 100000 / sclkHz
  let s1 := s.vcomFloat
  let s2 := { s1 with seq.railStep := 0, seq.vglHold := false, seq.skip := 0, seq.after := .nothing
                      seq.timeDown := if ran then min 65535 len else s.seq.timeDown
                      seq.gateBlankTo := if ran then s.now + usToSclk 1000 else s.seq.gateBlankTo }
  let s3 := s2.showPhase .idle
  match s.seq.after with
  | .nothing => s3
  | .hold => s3.planHoldDrop
  | .dormant | .delivery => s3.dormantTail
  | .reaction =>
    match s.flt.react with
    | some r => { s3 with flt.react := some { r with stage := .toDecision, at_ := s.now } }
    | none => s3
  | .dark => s3.darkTail
  | .hedge => s3.hedgeTail
  | .reset => s3.resetTail

/-- Rail-down from step k on, or its end where no rail is left (R331). -/
def State.downFrom (s : State) (k : Nat) : State :=
  let r := s.nextDown k
  if r.2 then r.1 else r.1.railDownEnd (!(k == 0))

/-- Rail-down begins for a purpose; one already running goes on for the new purpose (R331, R343, R344). -/
def State.beginRailDown (s : State) (a : After) : State :=
  if s.seq.railStep ≠ 0 ∧ ¬ s.seq.rising then { s with seq.after := a, seq.lone := false }
  else
    let s1 := s.showPhase .railDown
    State.downFrom { s1 with seq.after := a, seq.beganAt := s.now, seq.dischRaised := false, seq.stuckRails := 0
                             seq.lone := false } 0

/-- A step that a write of the rail-enable word asked for has ended, and none follows it: with no rail left raised the rail-down has
ended (R334; DESIGN CHOICE, log 103). -/
def State.loneEnd (s : State) : State :=
  let s1 := State.showPhase { s with seq.railStep := 0, seq.rising := false, seq.lone := false } (if s.tree.railsUp then .up else .idle)
  if s.anyRail then s1 else s1.railDownEnd true

/-- A rail-down step's drop has ended; its rail's blanking runs 1 ms on (R331, R340). -/
def State.endDrop (s : State) (held : Bool) : State :=
  let r := downRail s.seq.railStep
  let s1 := { s with seq.blankTo := vset s.seq.blankTo r (s.now + usToSclk 1000)
                     seq.stuckRails := Machine.setBit s.seq.stuckRails r held }
  if s.seq.lone then s1.loneEnd else s1.downFrom s.seq.railStep

/-- C of an entry to DORMANT with the scan stopped: `PWR_MATCH` copied, the matcher armed, rail-down (R354). -/
def State.commitDormant (s : State) : State :=
  let s1 := { s.copyMatch with pwr.committed := true, pwr.commitAt := s.now, seq.run := .none, seq.steps := [], seq.place := 0 }
  if s1.anyRail || !(s1.seq.railStep == 0) then s1.beginRailDown .dormant else s1.dormantTail

/-! ### The hedge (R341, R342) -/

/-- After a takeover the PLL is disabled and enabled again once, with the crystal running (R288). -/
def State.tryRelock (s : State) : State :=
  if s.seq.hedge ∧ s.clock.xtalOk ∧ s.clock.relock = .none then
    { s with clock.pllLock := false, clock.relock := .running, clock.relockAt := s.now }
  else s

/-- A hedge trigger: its cause bit, and a takeover unless one runs; posted writes across the bridge are lost (R341, R343,
R395). -/
def State.takeover (s : State) (cause : Nat) : State :=
  let s1 := { s with seq.hedgeCause := Machine.setBit s.seq.hedgeCause cause true }
  if s.seq.hedge then s1
  else
    let s2 := (s1.hedgeStop.hwSet 0x60B 4).hwSet 0x601 (if s.flt.first.isNone then 0x80000000 else 0)
    let s3 := { s2 with seq.hedge := true, seq.phase := .hedge, seq.hedgeStep := 1, seq.run := .none, seq.steps := []
                        seq.place := 0, seq.tail := 0, rtc.bak := Machine.setBit s.rtc.bak 2 true
                        link.attnFault := s.link.attnFault || (!s.rtc.bak.getLsbD 2 && s.link.cfg.getLsbD 0)
                        flt.first := s.flt.first.or (some (98, s.scan.frame.toNat % 65536)), pwr.st := .hedge, pwr.change := none
                        seq.hedgeAt := s.now, flt.react := none, up.firstUp := false
                        acc.posted := s.acc.posted.filter (fun p => p.backup) }.tryRelock
    if !s3.anyRail && s3.seq.railStep == 0 then s3.hedgeAtOnce
    else
      let s4 := s3.beginRailDown .hedge
      if s4.seq.hedgeStep = 1 ∧ 2 ≤ s4.seq.railStep then { s4 with seq.hedgeStep := 3 } else s4

end Sys2Proof.Machine
end

