-- ==== Sys2Proof/Machine/Flags.lean ====
section
/-! DEFINITION. The fault ladder (21_faults): raising a fault, the beginning, escalation and end of a reaction, its
decision point, the conditions waited for, FAULT_N; the drills in service against R138. -/

namespace Sys2Proof.Machine

/-! ### Drills in service (R131, R132, R138) -/

/-- Rewrites every drill with its place. -/
def State.mapDrills (s : State) (f : Nat → Drill → Drill) : State := { s with drills.drill := vmapIdx f s.drills.drill }

/-- Whether drill place i (engine i + 2) has a role. -/
def State.drillIs (s : State) (i : Nat) (r : DrillRole) : Bool := (vget s.drills.drill i).role == r

/-- Number of drills in a role. -/
def State.drillCount (s : State) (r : DrillRole) : Nat := sumTo 14 (fun i => if s.drillIs i r then 1 else 0)

/-- A: the number of drills that hold a slot. -/
def State.aNow (s : State) : Nat := s.drillCount .active

/-- Groups in a row (R132). -/
def State.groupsInRow (s : State) : Nat := s.cols / 4

/-- S of R136 for A active drills. -/
def State.readSpan (s : State) (a : Nat) : Nat :=
  let g := s.groupsInRow
  (if a = 0 then g else max g (4 * ((g + a - 1) / a))) + 16

/-- Row time in use, or that of the almanac before the first frame. -/
def State.rowTime (s : State) : Nat := if s.scan.rowT = 0 then s.panel.words.rowT else s.scan.rowT

/-- R138 fails for A active drills. -/
def State.shortFor (s : State) (a : Nat) : Bool := a == 0 || decide (s.rowTime < s.readSpan a)

/-- The number of drills that can hold a slot at the next boundary: those in service and the spares that R148 restores. -/
def State.serviceable (s : State) : Nat := max s.aNow (min s.drills.aStart (s.aNow + s.drillCount .spare))

/-! ### Fault numbers (R418, R467) -/

def fltRailUv : Nat := 0
def fltRailOv : Nat := 1
def fltRailOc : Nat := 2
def fltRailPg : Nat := 3
def fltDisch : Nat := 4
def fltSeqOrder : Nat := 5
def fltVinOv : Nat := 6
def fltIntUv : Nat := 7
def fltAuxOc : Nat := 8
def fltAuxOv : Nat := 9
def fltAuxUv : Nat := 10
def fltAuxPg : Nat := 11
def fltLedShort : Nat := 12
def fltLedOpen : Nat := 13
def fltGate : Nat := 14
def fltVcom : Nat := 15
def fltHlOpen : Nat := 16
def fltHlShort : Nat := 17
def fltAdcZero : Nat := 18
def fltStrapVote : Nat := 19
def fltStrapRsvd : Nat := 20
def fltBridge : Nat := 21
def fltPll : Nat := 22
def fltXtal : Nat := 23
def fltDrillDead : Nat := 32
def fltDrillTest : Nat := 33
def fltShortfall : Nat := 34
def fltStale : Nat := 35
def fltFsDouble : Nat := 36
def fltLdgParity : Nat := 37
def fltAlmCrc : Nat := 38
def fltRegVote : Nat := 39
def fltNtc : Nat := 40
def fltDiode : Nat := 41
def fltDieHot : Nat := 42
def fltPlotHot : Nat := 43
def fltPlotThrottle : Nat := 44
def fltDieThrottle : Nat := 45
def fltResidual : Nat := 46
def fltBond : Nat := 47
def fltOverrun : Nat := 48
def fltRwGeometry : Nat := 49
def fltRwReadback : Nat := 50
def fltRwStuck : Nat := 51
def fltXtalStop : Nat := 96
def fltTimeLost : Nat := 97
def fltHedge : Nat := 98
def fltOtpFail : Nat := 99
def fltOtpHealed : Nat := 100

/-- The reaction of each fault (R467); ALM_CRC's is NOTE from R186 and HOLD from R189, as its raiser says. -/
def faultReaction (n : Nat) : Reaction :=
  if [0, 1, 2, 3, 5, 6, 14, 15, 21, 34, 42].contains n then .safe
  else if n = fltIntUv then .dark
  else if [40, 41, 43, 44, 45].contains n then .ease
  else .note

/-- Rung of a reaction as `FLT_STAT.REACTION` codes it (R466). -/
def Reaction.rung : Reaction → Nat
  | .note => 1
  | .ease => 2
  | .hold => 3
  | .safe => 4
  | .dark => 5

/-! ### Causes of ATTN_N (R350, R379) -/

/-- `NOV_ATTN` (R379, R389). -/
def State.attnWord (s : State) : Nat :=
  bw (fld s.pgh.cfg 4 1 == 1 && anyTo 64 (fun j => !(vget s.pgh.done j == 0))) 0 + bw s.therm.easeChange 1
    + bw (s.rw.flag.getLsbD 0 && fld s.rw.cfg 0 1 == 1) 2 + bw s.link.attnFault 3 + bw s.link.attnState 4

/-- The wake-race window of an entry: its commit cycle and the three after it (R350). -/
def State.raceWindow (s : State) : Bool := s.pwr.committed && decide (s.now < s.pwr.commitAt + 4)

/-- A cause of ATTN_N arises: in the wake-race window it waits for the entry's completion. -/
def State.attnArises (s : State) (k : Nat) : State :=
  if s.raceWindow then { s with pwr.attnHeld := setBit s.pwr.attnHeld k true } else s

/-! ### Sticky bits (R467, R474) -/

/-- The main domains are on and out of reset, so that faults beside the backup domain's are recorded (R475). -/
def State.recording (s : State) : Bool := !([Stage.off, .held, .wait, .otpFail].contains s.up.stage)

/-- A sticky bit. -/
def State.sticky (s : State) (n : Nat) : Bool :=
  if n < 32 then s.flt.sticky0.getLsbD n else if n < 64 then s.flt.sticky1.getLsbD (n - 32)
  else s.rtc.bak.getLsbD (n - 96)

/-- The bit alone. -/
def State.stickyWrite (s : State) (n : Nat) (b : Bool) : State :=
  if n < 32 then { s with flt.sticky0 := setBit s.flt.sticky0 n b }
  else if n < 64 then { s with flt.sticky1 := setBit s.flt.sticky1 (n - 32) b }
  else { s with rtc.bak := setBit s.rtc.bak (n - 96) b }

/-- Address of the register that holds a sticky bit. -/
def stickyReg (n : Nat) : Nat := if n < 32 then 0x608 else if n < 64 then 0x609 else 0x60B

/-- `FLT_FIRST` takes a fault: the first, and of those of one cycle the lowest-numbered (R418, R479). -/
def State.takesFirst (s : State) (n : Nat) : Bool :=
  s.recording && (match s.flt.first with
    | none => true
    | some x => !(s.hwFresh 0x601 1 == 0) && decide (n < x.1))

/-- Sets a sticky bit: newly set, it counts for attention (R379, R474); the first fault is captured (R418). -/
def State.setSticky (s : State) (n : Nat) : State :=
  let newly := !s.sticky n
  let s1 := (s.stickyWrite n true).hwSet (stickyReg n) (1#32 <<< (n % 32))
  let s2 := if newly && s.link.cfg.getLsbD 0 then { (s1.attnArises 3).hwSet 0x501 8 with link.attnFault := true } else s1
  if s2.takesFirst n then { s2.hwSet 0x601 0x80000000 with flt.first := some (n, s.scan.frame.toNat % 65536) } else s2

/-! ### Conditions (R473) -/

/-- A fault's condition as its detector reads it now (R473); an event's is never present. -/
def State.condition (s : State) (n : Nat) : Bool :=
  if n = fltVinOv then s.tree.vinOv || s.injected n
  else if n = fltDieHot then s.dieAtLeast 1760 || s.injected n
  else if n = fltShortfall then s.shortFor s.serviceable || s.injected n
  else if n = fltIntUv then s.flt.intUv || s.injected n
  else false

/-- A detector that finds a condition still present sets its bit again after a host's clear; its reaction has been made (R474;
DEDUCED, log 140). -/
def State.redetect (s : State) (n : Nat) (present : Bool) : State :=
  if present && !s.sticky n && s.recording then s.setSticky n else s

/-! ### Reactions (R463, R464, R469, R471, R472, R475) -/

/-- Ten seconds (R471). -/
def tenSeconds : Nat := 10 * sclkHz

/-- A reaction begun now would be the third within 10 s (R471). -/
def State.thirdSoon (s : State) : Bool :=
  match s.flt.history with
  | _ :: b :: _ => decide (s.now < b + tenSeconds)
  | _ => false

/-- DARK carried out by E0: the scan stops, and the order of R342 runs from the step reached; an entry or return ends
(R359, R463). -/
def State.goDark (s : State) : State :=
  if s.flt.dark then s
  else
    let st := match s.pwr.st with
      | .enterHold | .hold | .ret | .enterDormant => if s.pwr.resume then PwrSt.slow else .run
      | x => x
    let s1 := { s with flt.dark := true, flt.react := none, up.firstUp := false, pwr.st := st, pwr.change := none
                       pwr.held := false, pwr.committed := false, seq.run := .none, seq.steps := [], seq.place := 0 }
    s1.abruptStop.beginRailDown .dark

/-- The first rail-up of this start-up has not begun. -/
def State.beforeFirstUp (s : State) : Bool := !s.up.planDone || s.up.firstUp

/-- Entry to HOLD abandons the tests that run and the aging passes (R87, R157). A slot change that a request waits for stays for
the first boundary after the return, its test's outcome due then (DESIGN CHOICE, log 108). -/
def State.abandonTests (s : State) : State :=
  let s1 := s.mapDrills (fun i d =>
    let d1 := { d with passTo := 0 }
    if s.drills.running.any (fun x => x.1 == i + 2) then { d1 with role := .quarantined } else d1)
  { s1 with drills.running := [] }

/-- C of an entry to HOLD with the scan stopped: tests abandoned, the HOLD clock and the wake-race window begin, rail-down (R87,
R157, R349, R350). -/
def State.commitHold (s : State) : State :=
  let s1 := s.abandonTests
  State.beginRailDown { s1 with pwr.committed := true, pwr.commitAt := s.now, pwr.holdFrom := some s.now, pwr.held := false
                                pwr.portHeld := false } .hold

/-- An entry not yet at its commit point has no boundary to come: the rails rise or stand with the scan stopped. -/
def State.noBoundary (s : State) : Bool := !s.pwr.committed && !s.scan.scanning && s.scan.startDue.isNone

/-- The stop and rail-down of a reaction, from the step the device has reached (R463, R469, R475). An entry to HOLD or DORMANT goes
on, and the recovery waits for the return (R359); where it waits for a rail-up that the reaction takes down, so that no boundary
comes, its rail-down begins from the step reached (R344; DESIGN CHOICE, log 125). DRILL_SHORTFALL of the start-up's tests lets a
rail-up that runs go on, and only the scan waits (R483). -/
def State.reactStop (s : State) (r : Reacting) : State :=
  let put (t : State) (st : ReactStage) : State := { t with flt.react := some { r with stage := st, at_ := t.now } }
  match s.pwr.st with
  | .hold => put s .waitReturn
  | .enterHold =>
    if !s.noBoundary then put s .waitReturn
    else if s.beforeFirstUp then put s .toDecision else (put s .waitReturn).commitHold
  | .enterDormant =>
    if !s.noBoundary then put s .waitReturn
    else if s.beforeFirstUp then put s .toDecision else (put s .waitReturn).commitDormant
  | _ =>
    if s.beforeFirstUp ∨ (r.fault = fltShortfall ∧ s.drills.startTest) then put s .toDecision
    else if r.level = .hold ∧ s.scan.scanning then put { s with panel.hlNow := none } .waitBoundary
    else
      let s1 := s.abruptStop
      if s1.anyRail ∨ s1.seq.railStep ≠ 0 then (put s1 .railDown).beginRailDown .reaction else put s1 .toDecision

/-- A HOLD or SAFE reaction begins, or the third within 10 s is carried out as DARK (R471); `also` are faults whose conditions are
present beside its own, applied in the same cycle. -/
def State.beginReaction (s : State) (level : Reaction) (n : Nat) (also : List Nat) : State :=
  if s.thirdSoon then s.goDark
  else
    State.reactStop { s with flt.history := (s.now :: s.flt.history).take 3 }
      { level := level, fault := n, stage := .toDecision, at_ := s.now, repair := n == fltAlmCrc, later := []
        waits := n :: also }

/-- A HOLD or SAFE raised while a reaction or its recovery runs (R472): a rail-up that meets it is a new reaction (R469), a
higher one escalates, another waits for a checkpoint. -/
def State.duringReaction (s : State) (r : Reacting) (level : Reaction) (n : Nat) : State :=
  if r.stage = .railUp ∧ (s.seq.railStep ≠ 0 ∨ s.tree.railsUp) then s.beginReaction level n []
  else if r.level = .hold ∧ level = .safe then
    let r' := { r with level := .safe, fault := n, waits := r.waits ++ [n] }
    if r.stage = .waitBoundary ∨ r.stage = .frame then s.reactStop r' else { s with flt.react := some r' }
  else { s with flt.react := some { r with later := r.later ++ [n] } }

/-- A HOLD or SAFE in a final delivery ends the drawing by an abrupt stop, with no recovery: it is in force until R354 releases
FAULT_N (R466, R475). -/
def State.reactDelivery (s : State) (level : Reaction) (n : Nat) : State :=
  let r : Reacting := match s.flt.react with
    | some r => if r.level = .hold then { r with level := level, fault := n } else r
    | none => { level := level, fault := n, stage := .waitReturn, at_ := s.now, repair := false, later := [], waits := [] }
  let s1 := { s with flt.react := some r }
  if s.rtc.deliveryDone then s1
  else State.beginRailDown { s1.abruptStop with rtc.deliveryDone := true } .delivery

/-- What a raised fault's reaction does (R463, R472, R475). -/
def State.react (s : State) (level : Reaction) (n : Nat) : State :=
  if !s.e0Runs || s.seq.hedge || s.flt.dark || s.resetOrder then s
  else
    match level with
    | .note | .ease => s
    | .dark => s.goDark
    | _ =>
      if s.rtc.deliveryAt.isSome then s.reactDelivery level n
      else
        match s.flt.react with
        | some r => s.duringReaction r level n
        | none => s.beginReaction level n []

/-- Raises a fault with a reaction its raiser names. -/
def State.raiseAs (s : State) (n : Nat) (level : Reaction) : State :=
  if n < 96 ∧ !s.recording then s else (s.setSticky n).react level n

/-- Raises a fault (R467). -/
def State.raise (s : State) (n : Nat) : State := s.raiseAs n (faultReaction n)

/-- A fault that is a level is raised; where it is present already, as an injection or for real, it is one condition with one
reaction (R420). -/
def State.raiseLevel (s : State) (n : Nat) (already : Bool) : State :=
  if already then s.redetect n true else s.raise n

/-- DRILL_SHORTFALL for real (R131, R138). -/
def State.raiseShortfall (s : State) : State := s.raiseLevel fltShortfall (s.injected fltShortfall)

/-- Raises the faults of one SCLK cycle, lowest number first (R479). -/
def State.raiseAll (s : State) (l : List Nat) : State := (l.mergeSort (· ≤ ·)).foldl State.raise s

/-! ### Decision point and end of recovery (R469, R472) -/

/-- Some fault whose clearing the rail-up waits for is present. At a start-up's first rail-up DRILL_SHORTFALL holds the scan,
not the rails (R483). -/
def State.mustWait (s : State) (r : Reacting) : Bool :=
  r.waits.any (fun n => s.condition n && !(n == fltShortfall && s.beforeFirstUp))

/-- The reaction's rail-up begins where the device stands: at the plan's end in a start-up, with the plan's items in a
return, otherwise at once; rails already up let the scan start, and a start-up's rail-up that runs goes on (R469, R483). -/
def State.reactUp (s : State) (r : Reacting) : State :=
  let s1 := { s with flt.react := some { r with stage := .railUp, at_ := s.now } }
  if s.tree.railsUp ∧ s.seq.railStep = 0 then { s1 with scan.startDue := some s.now }
  else if s.seq.railStep ≠ 0 ∧ s.seq.rising then s1
  else if s.pwr.st = .ret ∧ s.pwr.retAt.isSome then
    if s.up.firstUp then State.planHoldReturn (State.beginRailUp { s1 with up.firstUp := false, pwr.retAt := none }) else s1
  else if ¬ s.up.planDone then s1
  else State.beginRailUp { s1 with up.firstUp := false }

/-- At D, or when a condition clears: the rail-up begins unless a condition is present (R469). -/
def State.tryReactUp (s : State) : State :=
  match s.flt.react with
  | some r =>
    if r.stage = .waitCond then (if s.mustWait r then s else s.reactUp r) else s
  | none => s

/-- The decision point D: faults raised meanwhile whose condition is present are applied as new reactions (R471, R472). -/
def State.atDecision (s : State) (r : Reacting) : State :=
  let present := (r.later.filter s.condition).mergeSort (· ≤ ·)
  match present with
  | [] => State.tryReactUp { s with flt.react := some { r with stage := .waitCond, later := [] } }
  | _ =>
    if s.thirdSoon then s.goDark
    else
      State.tryReactUp
        { s with flt.history := (s.now :: s.flt.history).take 3
                 flt.react := some { r with level := .safe, fault := present.headD 0, stage := .waitCond, later := []
                                            waits := r.waits ++ present } }

/-- The end of recovery: faults raised meanwhile whose conditions are present begin their reaction at once, one reaction of one
cycle that waits for all of them (R472). -/
def State.endRecovery (s : State) (r : Reacting) : State :=
  let s1 := { s with flt.react := none }
  match (r.later.filter s.condition).mergeSort (· ≤ ·) with
  | [] => s1
  | n :: l => s1.beginReaction .safe n l

/-- A scan may start when the rails are up: no DARK, no shortfall that holds it (R470, R483). -/
def State.scanMayStart (s : State) : Bool := !s.flt.dark && !s.seq.hedge && !s.condition fltShortfall

/-! ### Front-light channels (R321) -/

/-- What a channel does now: a change of its values acts from the start of the PWM period after it. -/
def Led.driven (l : Led) (now : Nat) : Bool := if now < l.due then l.onWas else l.on
def Led.curNow (l : Led) (now : Nat) : Nat := if now < l.due then l.curWas else l.cur
def Led.dimNow (l : Led) (now : Nat) : Nat := if now < l.due then l.dimWas else l.dim

/-- The channel soft-starts: from the start of the PWM period that turned it on, 402,653 SCLK long (R322, R345). -/
def Led.softNow (l : Led) (now : Nat) : Bool :=
  match l.soft with
  | some e => l.driven now && decide (e ≤ now + 402653)
  | none => false

/-- Boost in use: some used channel is driven (R319). -/
def State.boostOn (s : State) : Bool := anyTo 8 (fun n => (vget s.tree.led n).driven s.now)

/-! ### The hedge's step (R342, R346) -/

/-- `HEDGE_STAT.STEP`: the VCOM ramp's own step begins one cycle after the trigger (R342, R346). -/
def State.hedgeStepNow (s : State) : Nat :=
  if s.seq.hedge ∧ s.seq.hedgeStep = 1 ∧ s.seq.railAt + cycle ≤ s.now then 2
  else if s.seq.hedge ∧ s.seq.tail ≠ 0 then 3 + min 2 ((s.now - s.seq.stepAt) / cycle)
  else s.seq.hedgeStep

/-- The hedge times from the RC count: from a takeover that the crystal's loss began, or from the step of its order after the
loss (R295, R296). -/
def State.timesOnRc (s : State) : Bool :=
  s.clock.onRc || (match s.clock.rcStep with
    | some k => s.seq.hedge && !(s.hedgeStepNow * 16 + s.seq.railStep == k)
    | none => false)

/-! ### FAULT_N and FLT_STAT (R465, R466) -/

/-- FAULT_N asserted; in the reset condition it is released. In a start-up past it, RSTOUT_N still asserted, an E0 reaction in force
asserts it (R465; R52 and R485 can be read the other way; DESIGN CHOICE, log 131). -/
def State.faultOut (s : State) : Bool :=
  s.recording && ((!s.inReset && (s.flt.react.isSome || s.flt.dark)) || (s.seq.hedge && s.seq.hedgeStep == 6))

/-- `FLT_STAT.REACTION`. -/
def State.reactionCode (s : State) : Nat :=
  if s.flt.dark || s.seq.hedge then 5
  else match s.flt.react with
    | some r => r.level.rung
    | none =>
      if s.therm.enforced then 2
      else if s.flt.sticky0 != 0 || s.flt.sticky1 != 0 then 1 else 0

end Sys2Proof.Machine
end

