-- ==== Sys2Proof/Machine/Drills.lean ====
section
/-! DEFINITION. The drills' service (06_scan_and_drills): slots, furrows and stripes, heartbeats, a drill declared dead, its
replacement at a boundary, and self-tests. Drill place i is engine i + 2. -/

namespace Sys2Proof.Machine

/-- Rewrites one drill. -/
def State.modDrill (s : State) (i : Nat) (f : Drill → Drill) : State := { s with drills.drill := vmod s.drills.drill i f }

/-- Places, ascending, whose drill has a role. -/
def State.places (s : State) (r : DrillRole) : List Nat := (List.range 14).filter (fun i => s.drillIs i r)

/-- Banks in use (R133). -/
def State.banksInUse (s : State) : Nat := s.rows / 16

/-- Engine number of the drill in a slot; 0 where none holds it. -/
def State.slotHolder (s : State) (slot : Nat) : Nat :=
  match firstTo 14 (fun i => s.drillIs i .active && (vget s.drills.drill i).slot == slot) with
  | some i => i + 2
  | none => 0

/-- First group of slot i's furrow with A slots (R132). -/
def furrowStart (g a i : Nat) : Nat := if a = 0 then 0 else i * g / a

/-- Groups in slot i's furrow (R132). -/
def State.furrowSize (s : State) (i : Nat) : Nat :=
  if i < s.aNow then furrowStart s.groupsInRow s.aNow (i + 1) - furrowStart s.groupsInRow s.aNow i else 0

/-- Slot whose furrow holds a group of the row (R132). -/
def State.slotOfGroup (s : State) (grp : Nat) : Nat :=
  let a := s.aNow
  match firstTo a (fun i => decide (grp < furrowStart s.groupsInRow a (i + 1))) with
  | some i => i
  | none => 0

/-- In-use pixels of drill place d's stripe. -/
def State.stripePixels (s : State) (d : Nat) : Nat :=
  ((List.range s.banksInUse).filter (fun b => (vget s.mem.banks b).owner == d + 2)).length * 16 * s.cols

/-- Slots 0 up given to places in the order listed (R131, R145). -/
def State.giveSlots (s : State) (l : List Nat) : State :=
  s.mapDrills (fun i d => if l.contains i then { d with role := .active, slot := l.idxOf i } else d)

/-- Owners of the in-use banks by R133, their epochs one on where `bump` holds, and the epochs given to every drill that
holds a slot (R94, R133, R144). -/
def State.giveBanks (s : State) (bump : Bool) : State :=
  let a := s.aNow
  let e := fun (b : Bank) => if bump then b.epoch + 1 else b.epoch
  let banks := vmapIdx (fun b (x : Bank) =>
    if b < s.banksInUse ∧ 0 < a then { owner := s.slotHolder (b % a), epoch := e x } else x) s.mem.banks
  State.mapDrills { s with mem.banks := banks } (fun _ d =>
    if d.role = .active then { d with epoch := (vget banks 0).epoch } else d)

/-- The assignment of a start-up once its tests have ended (R131). -/
def State.startAssign (s : State) (passed : BitVec 16) : State :=
  let ok := (List.range 14).filter (fun i => passed.getLsbD (i + 2))
  let a := min (14 - scanSpares (s.bin 9)) ok.length
  let s1 := s.mapDrills (fun i d => { d with role := (if ok.contains i then DrillRole.spare else .failed) })
  let s2 := (s1.giveSlots (ok.take a)).giveBanks false
  let s3 := { s2 with drills.aStart := a, drills.running := [] }
  let s4 := if ok.length < 14 then (s3.loadStores (fun e => ok.contains (e - 2) && decide (2 ≤ e))).raise fltDrillTest
    else s3.loadStores (fun e => decide (2 ≤ e))
  let s5 := if s4.shortFor a then s4.raiseShortfall else s4
  { s5 with drills.startTest := false }

/-- Role shown: a quarantined drill whose test has begun is under test (R134, R147). -/
def State.shownRole (s : State) (i : Nat) : DrillRole :=
  let d := vget s.drills.drill i
  if d.role = .quarantined ∧ s.drills.running.any (fun x => x.1 == i + 2 && decide (x.2 < s.now)) then .testing else d.role

/-- A place is held in reset for a test whose time zero is t, its vectors beginning 1 SCLK later, and keeps nothing of its sweeps;
a quarantined drill's time zero is the boundary (R147, R148, R155, R156). -/
def State.beginTest (s : State) (i : Nat) (r : DrillRole) (t : Nat) : State :=
  let s1 := s.modDrill i (fun d =>
    { d with role := r, slot := 0, miss := 0, fenced := false, defer := [], passTo := 0, sweep := SweepCounts.none, sweepTo := 0
             before := SweepCounts.none })
  State.clearStores { s1 with drills.running := s1.drills.running ++ [(i + 2, t)] } (fun e => e == i + 2)

/-- The lowest-numbered spare. -/
def State.spare (s : State) : Option Nat := firstTo 14 (fun i => s.drillIs i .spare)

/-- A dead or tested drill's slot passes to a spare; its deferral list is lost (R144, R155, R248). -/
def State.handSlot (s : State) (i j : Nat) : State :=
  let sl := (vget s.drills.drill i).slot
  s.modDrill j (fun d => { d with role := .active, slot := sl, miss := 0, fenced := false })

/-- A drill declared dead leaves at the boundary (R144, R145): to a spare, or the slots are counted
anew; a drill that only changes its slot keeps its deferral list (DESIGN CHOICE, log 137). -/
def State.retire (s : State) (i : Nat) : State :=
  match s.spare with
  | some j => (s.handSlot i j).beginTest i .quarantined s.now
  | none =>
    let s1 := s.beginTest i .quarantined s.now
    s1.giveSlots (s1.places .active)

/-- The slot change that a test request waited for (R155): the spare that takes the slot, if it can be made. -/
def State.swapTo (s : State) : Option (Nat × Nat) :=
  match s.drills.swap, s.spare with
  | some e, some j => if s.drillIs (e - 2) .active then some (e - 2, j) else none
  | _, _ => none

/-- The change for a test. Where the spare has gone meanwhile, or the drill itself was declared dead and has left its slot, the
answer is NO_SPARE (R155; DESIGN CHOICE, log 108). -/
def State.doSwap (s : State) : State :=
  match s.swapTo with
  | some (i, j) => State.beginTest { s.handSlot i j with drills.swap := none } i .testing (s.now + 1)
  | none => if s.drills.swap.isSome then { s with drills.swap := none, drills.asked := none, drills.result := .noSpare } else s

/-- Quarantined drills whose test HOLD abandoned begin it again (R157). -/
def State.restartTests (s : State) : State :=
  let idle := (s.places .quarantined).filter (fun i => !(s.drills.running.any (fun x => x.1 == i + 2)))
  idle.foldl (fun (t : State) i => t.beginTest i .quarantined t.now) s

/-- Spares that take a slot again at this boundary: while A is below its start-up value, one for each drill that has become a SPARE
since the last, lowest first (R148). -/
def State.growTo (s : State) : List Nat := (s.places .spare).take (s.drills.aStart - s.aNow)

/-- The restoration; a drill that only changes its slot keeps its deferral list (DESIGN CHOICE, log 137). -/
def State.doGrow (s : State) : State :=
  let l := s.growTo
  if l.isEmpty then s
  else
    let t := s.mapDrills (fun i d => if l.contains i then { d with role := .active, miss := 0, fenced := false } else d)
    t.giveSlots (t.places .active)

/-- The drill steps of a frame boundary (R144, R145, R147, R148, R155, R157). Epochs move once. -/
def State.drillBoundary (s : State) : State :=
  let dead := (List.range 14).filter (fun i => (vget s.drills.drill i).fenced)
  let s1 := dead.foldl State.retire s
  let s2 := s1.doSwap.restartTests
  let s3 := s2.doGrow
  if dead.isEmpty && s1.swapTo.isNone && s2.growTo.isEmpty then s3
  else
    let s4 := s3.giveBanks true
    if decide (s4.aNow < s.aNow) && s4.shortFor s4.aNow then s4.raiseShortfall else s4

/-- Row whose heartbeat is checked at the latch of slot n: the row being read then, one row time before its own latch. Reading
runs two rows ahead of the latch, and the 32 rows in which nothing is read are numbered −32 to −1 (R111, R136, R142; log 109). -/
def State.beatRow (s : State) (n : Nat) : BitVec 8 :=
  BitVec.ofInt 8 (if n + 1 = s.frameRows then -32 else (n : Int) - 31)

/-- The heartbeat that drill place d owes at the latch of slot n (R142). -/
def State.beatDue (s : State) (n d : Nat) : Heartbeat :=
  let i := (vget s.drills.drill d).slot
  { engine := d + 2, slot := i, row := s.beatRow n, groups := if 31 ≤ n ∧ n < 31 + s.rows then s.furrowSize i else 0 }

/-- The heartbeat of drill place d is absent or wrong; one not listed is right (R142). -/
def State.beatBad (s : State) (n : Nat) (l : List HeartbeatIn) (d : Nat) : Bool :=
  l.any (fun x => x.drill.val == d && !(x.sent == some (s.beatDue n d)))
    || (s.injected fltDrillDead && firstTo 14 (fun i => s.drillIs i .active) == some d)

/-- A drill is declared dead: a sweep it has not ended is lost, with its deferral list and what it would have offered from now on
(R254). -/
def State.loseSweep (s : State) (i : Nat) : State :=
  let s1 := s.modDrill i (fun d => if s.now < d.sweepTo then { d with defer := [], sweep := d.before, sweepTo := 0 } else d)
  { s1 with drills.offers := s1.drills.offers.filter (fun o => !(o.drill == i + 2 && decide (s.now < o.at_))) }

/-- E0's check of one heartbeat of every drill that holds a slot; a fourth miss declares it dead and fences it (R142, R143). -/
def State.checkHeartbeats (s : State) (n : Nat) (l : List HeartbeatIn) : State :=
  let s1 := s.mapDrills (fun i d =>
    if d.role = .active ∧ ¬ d.fenced then
      let m := if s.beatBad n l i then d.miss + 1 else 0
      { d with miss := m, fenced := decide (4 ≤ m) }
    else d)
  let newly := (List.range 14).filter (fun i => (vget s1.drills.drill i).fenced && !(vget s.drills.drill i).fenced)
  if newly.isEmpty then s1 else (newly.foldl State.loseSweep s1).raise fltDrillDead

/-! ### Fences (R94, R135, R143, R146) -/

/-- Place of an engine's drill, when it is one that holds a slot and is not fenced. -/
def State.soundDrill (s : State) (e : Nat) : Option Drill :=
  if 2 ≤ e ∧ e < 16 ∧ s.drillIs (e - 2) .active ∧ ¬ (vget s.drills.drill (e - 2)).fenced then some (vget s.drills.drill (e - 2)) else none

/-- A late item passes its fence: a code from the drill that holds the slot; a write under the bank's owner and epoch; a forward
from a drill not fenced, under the bank's epoch while its owner holds a slot. -/
def State.itemPasses (s : State) : LateItem → Bool
  | .code e slot => match s.soundDrill e with | some d => d.slot == slot | none => false
  | .write e b x => let k := vget s.mem.banks b.val; k.owner == e && k.epoch == x
  | .forward e b x =>
    let k := vget s.mem.banks b.val
    (s.soundDrill e).isSome && k.epoch == x && decide (2 ≤ k.owner) && s.drillIs (k.owner - 2) .active

/-- Late items that the fences drop. -/
def State.dropped (s : State) (l : List LateItem) : Nat := (l.filter (fun x => !s.itemPasses x)).length

/-- Slots whose drill writes or forwards to a row's bank under another epoch than the bank's; an injected STALE_WRITE that is held
is presented for the lowest-numbered ACTIVE drill (R478). -/
def State.staleSlots (s : State) (row : Nat) : List Nat :=
  (s.places .active).filterMap (fun i =>
    let d := vget s.drills.drill i
    if d.epoch = (vget s.mem.banks (row / 16)).epoch ∧ ¬ (s.held fltStale ∧ firstTo 14 (fun k => s.drillIs k .active) = some i) then none
    else some d.slot)

/-- Groups of a row whose writes the bank's guard drops (R94, R135). -/
def State.refusedGroups (s : State) (row : Nat) : List Nat :=
  let l := s.staleSlots row
  if l.isEmpty then [] else (List.range s.groupsInRow).filter (fun g => l.contains (s.slotOfGroup g))

/-- Some drill is declared dead in this frame. -/
def State.anyFenced (s : State) : Bool := anyTo 14 (fun i => (vget s.drills.drill i).fenced)

/-- A test is running or waits for its boundary (R155). -/
def State.testBusy (s : State) : Bool := s.drills.startTest || !s.drills.running.isEmpty || s.drills.swap.isSome

/-- In HOLD, or on the way there past its commit point: no test starts (R157). -/
def State.inHold (s : State) : Bool := s.pwr.st == .hold || (s.pwr.st == .enterHold && s.pwr.committed)

/-- What a test request gets (R155): a drill that is FAILED, QUARANTINED or TESTING is not eligible, whatever runs; BUSY comes
before the rest. -/
def State.requestTest (s : State) (e : Nat) : State :=
  let s1 := { s with drills.testDrill := e }
  let i := e - 2
  let r := (vget s.drills.drill i).role
  let answer (r : TestResult) : State := { s1 with drills.result := r }
  if e < 2 ∨ 15 < e ∨ s.inHold ∨ !(r == .spare || r == .active) then answer .notEligible
  else if s.testBusy then answer .busy
  else if r == .spare then State.clearStores (State.modDrill
      { s1 with drills.result := .running, drills.asked := some e, drills.running := s1.drills.running ++ [(e, s.now)] } i
      (fun d => { d with role := .testing })) (fun k => k == e)
  else if s.spare.isSome then { s1 with drills.swap := some e, drills.asked := some e, drills.result := .running }
  else answer .noSpare

/-- Whether a request for a drill would be accepted (R155). -/
def State.testable (s : State) (e : Nat) : Bool :=
  !s.inHold && !s.testBusy && match (vget s.drills.drill (e - 2)).role with
    | .spare => true
    | .active => s.spare.isSome
    | _ => false

/-- ROTATE's next drill after the last one requested, ascending, skipping those that would not be accepted (R155). -/
def State.rotateNext (s : State) : Option Nat :=
  ((List.range 14).map (fun k => 2 + (max s.drills.rotateLast 1 + k + 13) % 14)).find? s.testable

/-- Self-tests that end now: a pass makes a spare with its image in its store, a failure takes the drill out of service; the
outcome of the test asked for is in `DRL_TEST.RESULT`, whatever a request met meanwhile (R147, R156). An injected
DRILL_TEST_FAIL meets the signature of its drill (R478). -/
def State.endTests (s : State) (which good : BitVec 16) : State :=
  let passed := if s.injected fltDrillTest then setBit good (s.flt.injDrill + 2) false else good
  let ends := s.drills.running.filter (fun x => which.getLsbD x.1 && decide (x.2 + 1064960 ≤ s.now))
  let ended := fun (e : Nat) => ends.any (fun x => x.1 == e)
  let s1 := s.mapDrills (fun i d =>
    if ended (i + 2) then { d with role := (if passed.getLsbD (i + 2) then DrillRole.spare else .failed) } else d)
  let s2 := State.loadStores { s1 with drills.running := s.drills.running.filter (fun x => !ended x.1) }
    (fun e => ended e && passed.getLsbD e)
  let s3 := match s.drills.asked with
    | some e =>
      if ended e then
        { s2 with drills.asked := none, drills.result := (if passed.getLsbD e then TestResult.pass else .fail) }
      else s2
    | none => s2
  let s4 := if ends.any (fun x => !passed.getLsbD x.1) then s3.raise fltDrillTest else s3
  s4.tryReactUp

end Sys2Proof.Machine
end

