-- ==== Sys2Proof/Machine/PghCore.lean ====
section
/-! DEFINITION. Pigeonholes (08_pigeonholes): rectangles, payloads, forecasts, the sieve, the start writer, cancelling,
releasing and completing. Numbers 0 to 2,047 are the host band, 2,048 + i is hidden H_i. -/

namespace Sys2Proof.Machine

/-! ### Rectangles -/

def Rect.isEmpty (r : Rect) : Bool := r.height == 0 || r.width == 0
def Rect.has (r : Rect) (row col : Nat) : Bool :=
  decide (r.row0 ≤ row) && decide (row < r.row0 + r.height) && decide (r.col0 ≤ col) && decide (col < r.col0 + r.width)
def Rect.meet (a b : Rect) : Rect :=
  let r := max a.row0 b.row0
  let c := max a.col0 b.col0
  { row0 := r, height := min (a.row0 + a.height) (b.row0 + b.height) - r
    col0 := c, width := min (a.col0 + a.width) (b.col0 + b.width) - c }
def Rect.area (r : Rect) : Nat := r.height * r.width
def Rect.overlaps (a b : Rect) : Bool := !(a.meet b).isEmpty

/-- Pixel keys of a rectangle, rising; the pixel store has 3072 columns (R88). -/
def Rect.keys (r : Rect) : List Nat :=
  (List.range r.height).flatMap (fun y =>
    (List.range (min r.width (3072 - r.col0))).map (fun x => pixelKey (r.row0 + y) (r.col0 + x)))

/-- The registered window, when it is present (R256, R258). -/
def State.winRect (s : State) : Option Rect :=
  if s.rw.present then
    let w0 := vget s.rw.desc 0
    some { row0 := 4 * fld w0 20 9, height := 4 * fld (vget s.rw.desc 1) 0 10, col0 := 4 * fld w0 0 10, width := 4 * fld w0 10 10 }
  else none

/-- Whether a pixel's group lies in the registered window. -/
def State.inWindow (s : State) (row col : Nat) : Bool :=
  match s.winRect with
  | some r => r.has row col
  | none => false

/-- Rectangle of a thermal plot (R67, R219). -/
def State.plotRect (s : State) (p : Nat) : Rect :=
  { row0 := p / 8 * s.plotH, height := s.plotH, col0 := p % 8 * s.plotW, width := s.plotW }

/-! ### The table of pigeonholes -/

/-- FREE with its descriptor at zero (R192). -/
def Pgh.free : Pgh :=
  { row0 := 0, height := 0, colg0 := 0, widg := 0, mode := 0, preempt := false, format := 0, prio := 0, keep := false
    ref := false, source := 0, page := 0, ticket := 0, restate := false, waited := 0, nextRow := 0, bandH := 0, state := .free
    pixelLost := false, preempted := false, cancelled := false, cancelling := false, payload := none, own := none, split := false, units := [], since := 0
    age := 0, acceptedAt := 0, cancelWaits := false, freeWaits := false, doneDue := false }

def State.pgh_ (s : State) (n : Nat) : Pgh := sget Pgh.free s.pgh.tab n
def State.setPgh (s : State) (n : Nat) (p : Pgh) : State := { s with pgh.tab := sset Pgh.free s.pgh.tab n p }
def State.modPgh (s : State) (n : Nat) (f : Pgh → Pgh) : State := s.setPgh n (f (s.pgh_ n))

/-- Rewrites every listed pigeonhole with its number. -/
def State.mapPgh (s : State) (f : Nat → Pgh → Pgh) : State := { s with pgh.tab := smap Pgh.free f s.pgh.tab }

/-- Numbers of the listed pigeonholes that pass. -/
def State.pghWhere (s : State) (q : Nat → Pgh → Bool) : List Nat := (s.pgh.tab.filter (fun x => q x.1 x.2)).map Prod.fst

def isHost (n : Nat) : Bool := decide (1 ≤ n) && decide (n < 2048)
def isHidden (n : Nat) : Bool := decide (2048 ≤ n)

def Pgh.rect (p : Pgh) : Rect := { row0 := p.row0, height := p.height, col0 := 4 * p.colg0, width := 4 * p.widg }
def Pgh.busy (p : Pgh) : Bool := p.state == .pending || p.state == .banding || p.state == .running
def Pgh.waiting (p : Pgh) : Bool := p.state == .pending || p.state == .banding
def Pgh.going (p : Pgh) : Bool := p.state == .banding || p.state == .running

/-- Rows started: all of an unsplit pigeonhole, ROW0 to NEXT_ROW − 1 of a split one (R203, R204). -/
def Pgh.startedRect (p : Pgh) : Rect := if p.split then { p.rect with height := p.nextRow } else p.rect

/-- Ticket a is older than b, modulo 32,768 (R194). -/
def olderTicket (a b : Nat) : Bool :=
  let d := (b + 32768 - a) % 32768
  decide (0 < d) && decide (d < 16384)

/-- Draws the next ticket (R194, R250). -/
def State.drawTicket (s : State) : Nat × State := (s.pgh.ticket, { s with pgh.ticket := (s.pgh.ticket + 1) % 32768 })

/-! ### Payloads (R198 to R200) -/

def formatBits (f : Nat) : Nat := [1, 2, 4, 5].getD f 5

/-- State a payload value selects; none: the pixel is skipped (R198). -/
def payloadState (f v : Nat) : Option Nat :=
  if f = 0 then some (30 * v) else if f = 1 then some (10 * v) else if f = 2 then some (2 * v)
  else if v = 31 then none else some v

/-- Value of a pixel of a rectangle in its payload, least significant bit first (R198). -/
def Pgh.value (p : Pgh) (row col : Nat) : Nat :=
  match p.payload with
  | none => 31
  | some x =>
    let b := formatBits p.format
    let i := ((row - p.row0) * (4 * p.widg) + (col - 4 * p.colg0)) * b
    let w := (x.bytes.getD (i / 8) 0).toNat + 256 * (x.bytes.getD (i / 8 + 1) 0).toNat
    (w >>> (i % 8)) % 2 ^ b

/-- TARGET that a host pigeonhole's payload gives a pixel. -/
def Pgh.target (p : Pgh) (row col : Nat) : Option Nat := payloadState p.format (p.value row col)

/-- Length of a payload in bytes (R198). -/
def payloadLen (f width height : Nat) : Nat := (width * height * formatBits f + 7) / 8

/-- Pages of a payload that may be there. -/
def Payload.pagesOf (x : Option Payload) : List Nat := match x with | some y => y.pages | none => []

/-- The payload stored for the letter in force; a referenced one is its source's. -/
def Pgh.stored (p : Pgh) : Option Payload := if p.ref then none else p.payload

/-- The kept payload it holds: its letter's own under KEEP, or one an earlier letter left (R200). -/
def Pgh.kept (p : Pgh) : Option Payload :=
  match p.own with
  | some x => some x
  | none => if p.keep then p.stored else none

/-- Pages taken by host payloads and the staging area (R199). -/
def State.pagesUsed (s : State) : List Nat :=
  s.pgh.tab.flatMap (fun x => if x.1 = 0 then [] else Payload.pagesOf x.2.stored ++ Payload.pagesOf x.2.own) ++ s.alm.stagedPages

def State.pagesFree (s : State) : Nat := 4032 - s.pagesUsed.length

/-- Pages held by kept payloads (`MAIL_FREE.KEPT`). -/
def State.pagesKept (s : State) : Nat :=
  s.pgh.tab.foldl (fun n x => if x.1 = 0 then n else n + (Payload.pagesOf x.2.kept).length) 0

/-- Free pages for a payload of `k` pages: which of them is not stated (log 23). -/
def State.allocate (s : State) (k : Nat) : List Nat × State :=
  let (i, s1) := s.draw
  let used := s.pagesUsed
  let free := (List.range 4032).filter (fun p => !used.contains p)
  let r := if free.isEmpty then 0 else Config.freeNat i % free.length
  (((free.drop r) ++ free.take r).take k, s1)

/-- A PENDING or BANDING pigeonhole refers to the payload of n (R200). -/
def State.referred (s : State) (n : Nat) : Bool :=
  s.pgh.tab.any (fun x => x.2.ref && x.2.source == n && x.2.waiting)

/-- First page shown where no payload is drawn. -/
def Pgh.ownPage (p : Pgh) : Nat := (Payload.pagesOf p.own).headD 0xFFF
/-- The payload drawn is let go; a kept one of an earlier letter stays. -/
def Pgh.dropUsed (p : Pgh) : Pgh := { p with payload := none, page := p.ownPage }
/-- Every payload it holds is freed. -/
def Pgh.dropPayload (p : Pgh) : Pgh := { p with payload := none, own := none, page := 0xFFF, freeWaits := false }
/-- The kept payload that a cancel left is freed. -/
def Pgh.dropKept (p : Pgh) : Pgh :=
  if p.ref || p.own.isSome then { p with own := none, freeWaits := false } else p.dropPayload

/-- Kept payloads that a cancel has left to their referrers are freed once no referrer waits (R200, R204). -/
def State.settleKept (s : State) : State :=
  s.mapPgh (fun n p => if p.freeWaits && !s.referred n then p.dropKept else p)

/-! ### Forecasts (R208, R209, R211) -/

/-- Pixels of a rectangle in a plot, less those of the registered window. -/
def State.plotPixels (s : State) (r : Rect) (p : Nat) : Nat :=
  let m := r.meet (s.plotRect p)
  m.area - (match s.winRect with | some w => (m.meet w).area | none => 0)

/-- E_FRAME used for a pigeonhole in a plot: its mode's, or for a hidden unit the largest among the modes that the balance
bytes of its sign name there (R208, R250). -/
def State.unitEnergy (s : State) (n : Nat) (p : Pgh) (plot : Nat) : Nat :=
  let a := s.alm.image
  let b := (vget s.therm.plot plot).pub
  if isHidden n then
    (List.range 32).foldl (fun x t => match balanceMode a b p.mode t with | some m => max x (eFrame a m b) | none => x) 0
  else eFrame a p.mode b

/-- Shares of a forecast by plot, pJ. -/
def State.forecastShares (s : State) (n : Nat) (p : Pgh) (r : Rect) : List (Nat × Nat) :=
  ((List.range 64).map (fun q => (q, s.plotPixels r q * s.unitEnergy n p q))).filter (fun x => decide (0 < x.2))

/-- Forecast of a rectangle of a pigeonhole, pJ (R208); a restate's is 0 (R205). -/
def State.forecast (s : State) (n : Nat) (p : Pgh) (r : Rect) : Nat :=
  if p.restate then 0 else (s.forecastShares n p r).foldl (fun x y => x + y.2) 0

/-- W of R209 in mW. -/
def State.workingBudget (s : State) : Nat :=
  let w := min s.budgetMw s.therm.wbudNow
  match s.therm.budget with
  | some e => min w e
  | none => w

/-- B of R209 for a budget and the frame time in use, pJ. -/
def State.frameBudget (s : State) (w : Nat) : Nat := w * s.frameTime * 1000000000 / sclkHz

/-- Commitments of started host and hidden units, and pigeonhole 0's (R208, R212). -/
def Pgh.commitment (p : Pgh) : Nat := p.units.foldl (fun n u => if u.complete then n else n + u.commit) 0
def State.committed (s : State) : Nat := s.pgh.tab.foldl (fun n x => if x.1 = 0 then n else n + x.2.commitment) 0

/-- Height of a split pigeonhole's next band for E: the largest multiple of 4 rows, at least 4, whose forecast is within E ÷ 2, or
all that remain where those are fewer or within it (R211). -/
def State.bandHeight (s : State) (n : Nat) (p : Pgh) (e : Int) : Nat :=
  let left := p.height - p.nextRow
  let fits := fun h => decide (2 * (s.forecast n p { p.rect with row0 := p.row0 + p.nextRow, height := h } : Int) ≤ e)
  let k := ((List.range (left / 4 + 1)).filter (fun k => decide (1 ≤ k) && fits (4 * k))).foldl max 1
  if fits left then left else min (4 * k) left

/-- The rectangle a pigeonhole would start next. -/
def State.nextRect (s : State) (n : Nat) (p : Pgh) (e : Int) : Rect :=
  if p.split then { p.rect with row0 := p.row0 + p.nextRow, height := s.bandHeight n p e } else p.rect

/-! ### The sieve (R203, R204) -/

def State.freeWindow (s : State) : Option Nat := firstTo 32 (fun i => (vget s.pgh.sieve i).isNone)
def State.ownWindow (s : State) (n : Nat) (cancel : Bool) : Option Nat :=
  firstTo 32 (fun i => match vget s.pgh.sieve i with | some w => w.pgh == n && w.cancel == cancel | none => false)
def State.putWindow (s : State) (i : Nat) (w : Option SieveWin) : State := { s with pgh.sieve := vset s.pgh.sieve i w }

/-- Windows of a pigeonhole are freed when it reaches DONE. -/
def State.freeWindows (s : State) (n : Nat) : State :=
  let f := fun (w : Option SieveWin) => match w with
    | some x => if x.pgh = n then none else some x
    | none => none
  { s with pgh.sieve := vmapIdx (fun _ w => f w) s.pgh.sieve
           pgh.sieve0 := if n = 0 then none else s.pgh.sieve0 }

/-- Windows of a kind that cover a pixel. -/
def State.windowsAt (s : State) (cancel : Bool) (row col : Nat) : List SieveWin :=
  s.pgh.sieve.toList.filterMap (fun w => match w with
    | some x => if x.cancel == cancel && x.rect.has row col then some x else none
    | none => none)

/-- What the sieve does to a pixel at its step boundary (R203, R204). -/
inductive SieveAct where
  | keep
  | cancel
  | preempt (target mode : Nat)
deriving DecidableEq, Repr

/-- The newest PREEMPT window over a pixel decides. -/
def newestWindow (l : List SieveWin) : Option SieveWin :=
  l.foldl (fun a w => match a with | none => some w | some b => if olderTicket b.ticket w.ticket then some w else some b) none

/-- Sieve over an ACTIVE pixel at a step boundary. -/
def State.sieveAct (s : State) (row col : Nat) (x : Pixel) : SieveAct :=
  let judge := fun (n : Nat) (p : Pgh) => match p.target row col with
    | none => SieveAct.keep
    | some t => if x.target = t ∧ x.mode = p.mode.val then .keep else .preempt t (if n = 0 then (s.pgh_ 0).mode.val else p.mode.val)
  if s.inWindow row col then
    match s.pgh.sieve0 with
    | some w => if w.rect.has row col then judge 0 (s.pgh_ 0) else .keep
    | none => .keep
  else if !(s.windowsAt true row col).isEmpty then .cancel
  else match newestWindow (s.windowsAt false row col) with
    | some w => judge w.pgh (s.pgh_ w.pgh)
    | none => .keep

/-! ### The start writer (R201, R252) -/

/-- One uncorrectable read of the frame store as the scan and the start writer count it (R93). -/
def State.countDouble (s : State) (g : Nat) : State :=
  State.raise { s with mem.dedCnt := sat32 s.mem.dedCnt 1, mem.dedLoc := some (g / 768, g % 768) } fltFsDouble

/-- What a start does to one pixel: `pick` gives its target and mode, or skips it. -/
def startPixel (restate lost : Bool) (pick : Pixel → Option (Nat × Nat)) (w : PixelWord) : PixelWord :=
  let x := if lost then pixelOf unknownWord else pixelOf w
  match pick x with
  | none => if lost then unknownWord else w
  | some (t, m) =>
    if lost then (if restate then unknownWord else pixelWord (pixelLostStart t m x))
    else if x.active then w
    else pixelWord (if restate then pixelRestate t x else pixelStart t m x)

/-- Writes a started rectangle; `own` is pigeonhole 0's, whose groups lie in the window. Every group met is written back under
fresh check bits (R25, R92, R201). The second part says whether a pixel of an uncorrectable group was lost to the pigeonhole. -/
def State.writeUnit (s : State) (own restate : Bool) (r : Rect) (pick : Nat → Nat → Pixel → Option (Nat × Nat)) : State × Bool :=
  let ok := fun row col => own || !s.inWindow row col
  let met := fun (g : Nat) => r.has (g / 768) (g % 768 * 4) && ok (g / 768) (g % 768 * 4)
  let bad := s.lostGroups met
  let keys := r.keys.filter (fun k => ok (k / 3072) (k % 3072))
  let f := fun (k : Nat) (w : PixelWord) =>
    startPixel restate (bad.contains (groupOf (k / 3072) (k % 3072))) (pick (k / 3072) (k % 3072)) w
  let s1 := (s.countMended met).rewritten met
  let s2 := { s1 with mem.pixels := sapply unknownWord f s.mem.pixels keys }
  let lost := bad.any (fun g => restate || anyTo 4 (fun l =>
    (pick (g / 768) (g % 768 * 4 + l) (pixelOf unknownWord)).isNone))
  (bad.foldl State.countDouble s2, lost)

/-- TARGET and MODE of a host pigeonhole's pixel. -/
def Pgh.pick (p : Pgh) (row col : Nat) (_ : Pixel) : Option (Nat × Nat) := (p.target row col).map (fun t => (t, p.mode.val))

/-- TARGET and MODE of a hidden unit's pixel (R252). -/
def State.pickHidden (s : State) (p : Pgh) (row col : Nat) (x : Pixel) : Option (Nat × Nat) :=
  let b := (vget s.therm.plot (s.plotOf row col)).pub
  (balanceMode s.alm.image b p.mode x.current).map (fun m => (x.current, m))

/-- Every BANDING or RUNNING pigeonhole that a PREEMPT start overlaps receives PREEMPTED; pigeonhole 0 starts as PREEMPT, and is
one of them (R203). -/
def State.markPreempted (s : State) (n : Nat) (r : Rect) : State :=
  s.mapPgh (fun m p => if m ≠ n ∧ p.going ∧ p.rect.overlaps r then { p with preempted := true } else p)

/-- A PREEMPT unit's window, new or extended over the rows started (R203). -/
def State.placePreempt (s : State) (n : Nat) (p : Pgh) : State :=
  let w : SieveWin := { pgh := n, cancel := false, rect := p.startedRect, ticket := p.ticket }
  match s.ownWindow n false with
  | some i => s.putWindow i (some w)
  | none => match s.freeWindow with
    | some i => s.putWindow i (some w)
    | none => s

/-- Bin of a latency in the histogram (R218). -/
def latBin (l : Nat) : Nat := if l ≤ 1 then 0 else if l ≤ 2 then 1 else if l ≤ 4 then 2 else if l ≤ 8 then 3
  else if l ≤ 16 then 4 else if l ≤ 32 then 5 else if l ≤ 64 then 6 else 7

/-- Starts a unit of a host or hidden pigeonhole over the rectangle given; a host unit's first start, a restate's too, counts in the
latency histogram (R201, R205, R211, R218). -/
def State.startUnit (s : State) (n : Nat) (r : Rect) : State :=
  let p := s.pgh_ n
  let pick := if isHidden n then s.pickHidden p else p.pick
  let w := s.writeUnit false p.restate r pick
  let s1 := w.1
  let lost := p.pixelLost || w.2
  let count := fun (t : State) =>
    if isHost n ∧ p.state = .pending then { t with pgh.lat := vmod t.pgh.lat (latBin p.since) (fun x => sat32 x 1) } else t
  if p.restate then count (s1.setPgh n { p with pixelLost := lost, doneDue := true })
  else
    let u : PghUnit := { row0 := r.row0, height := r.height, commit := s.forecast n p r, frame := s.scan.frame
                         ceiling := s.forecastShares n p r, complete := false }
    let next := p.nextRow + r.height
    let st := if p.split ∧ next < p.height then PghSt.banding else .running
    let p1 := { p with pixelLost := lost, units := p.units ++ [u], state := st
                       nextRow := if p.split then next else p.nextRow, bandH := if p.split then r.height else p.bandH }
    let s2 := s1.setPgh n p1
    count (if p.preempt then (s2.placePreempt n p1).markPreempted n r else s2)

/-! ### Cancel, release, completion (R193, R200, R204, R207) -/

/-- DONE: its bit in `PGH_DONE`, and the windows of the sieve freed. -/
def State.reachDone (s : State) (n : Nat) : State :=
  let p := s.pgh_ n
  let p1 := { p with state := .done, units := [], doneDue := false, cancelWaits := false, cancelled := p.cancelled || p.cancelling
                     cancelling := false }
  let p2 := if (p.keep || p.freeWaits) && !p.ref then p1 else p1.dropUsed
  let s1 := (s.setPgh n p2).freeWindows n
  if n < 2048 then { s1.hwSet (0x840 + n / 32) (1#32 <<< (n % 32)) with pgh.done := vmod s1.pgh.done (n / 32) (fun w => setBit w (n % 32) true) } else s1

/-- Places the cancel window of a pigeonhole, or makes it wait for one (R204). -/
def State.placeCancel (s : State) (n : Nat) : State :=
  let p := s.pgh_ n
  match s.freeWindow with
  | some i =>
    State.modPgh (s.putWindow i (some { pgh := n, cancel := true, rect := p.startedRect, ticket := p.ticket })) n
      (fun q => { q with cancelWaits := false })
  | none => s.setPgh n { p with cancelWaits := true }

/-- Cancels that wait take the windows that have become free, oldest first. -/
def State.placeCancels (s : State) : State :=
  let l := (s.pghWhere (fun _ p => p.cancelWaits)).mergeSort (fun a b =>
    decide (a = b) || olderTicket (s.pgh_ a).ticket (s.pgh_ b).ticket)
  l.foldl (fun (t : State) n => if t.freeWindow.isSome then t.placeCancel n else t) s

/-- CANCEL of one pigeonhole (R204). A PENDING one whose kept payload is freed has its KEEP bit cleared with it (DESIGN CHOICE, log
118). -/
def State.cancelPgh (s : State) (n : Nat) : State :=
  let p := s.pgh_ n
  match p.state with
  | .pending =>
    let p1 := { p with cancelled := true }
    if p.kept.isSome && s.referred n then State.settleKept (State.reachDone (s.setPgh n { p1 with freeWaits := true }) n)
    else State.settleKept (State.reachDone (s.setPgh n { p1 with keep := false, own := none }) n)
  | .banding | .running =>
    if p.cancelling then s
    else State.settleKept (State.placeCancel (s.setPgh n { p with cancelling := true, state := .running }) n)
  | _ => s

/-- RELEASE of one host pigeonhole (R193, R200). -/
def State.releasePgh (s : State) (n : Nat) : State :=
  let p := s.pgh_ n
  if p.state = .done ∧ ¬ (p.kept.isSome ∧ s.referred n) then
    s.setPgh n { p.dropPayload with state := .free }
  else s

/-- No group of a unit outside the registered window (inside it for pigeonhole 0) holds an ACTIVE pixel. -/
def State.unitIdle (s : State) (n : Nat) (r : Rect) : Bool :=
  !(s.mem.pixels.any (fun x => (pixelOf x.2).active && r.has (x.1 / 3072) (x.1 % 3072)
      && (n == 0 || !s.inWindow (x.1 / 3072) (x.1 % 3072))))

/-- A unit is complete at this boundary (R207). -/
def State.unitDone (s : State) (n : Nat) (p : Pgh) (u : PghUnit) : Bool :=
  u.complete || (!(s.scan.missed.any (fun r => decide (u.row0 ≤ r) && decide (r < u.row0 + u.height)))
    && s.unitIdle n { p.rect with row0 := u.row0, height := u.height })

/-- PIXEL_LOST for units that hold a group the frame's reports name as lost (R93, R207). -/
def State.markLost (s : State) : State :=
  s.mapPgh (fun n p =>
    if p.going ∧ s.scan.lost.any (fun g => p.startedRect.has (g / 768) (g % 768 * 4)
        && (n == 0 || !s.inWindow (g / 768) (g % 768 * 4))) then { p with pixelLost := true } else p)

/-- Units that are complete, then pigeonholes whose units all are (R207). -/
def State.markComplete (s : State) : State :=
  s.mapPgh (fun n p =>
    if p.going then { p with units := p.units.map (fun u => { u with complete := s.unitDone n p u }) } else p)

/-- Numbers of the pigeonholes that reach DONE at this boundary. -/
def State.finished (s : State) : List Nat :=
  s.pghWhere (fun _ p => p.doneDue || (p.state == .running && p.units.all (fun u => u.complete)))

/-- A hidden pigeonhole is counted and freed at the boundary that finds it DONE (R193). -/
def State.freeHidden (s : State) : State :=
  let l := s.pghWhere (fun n p => isHidden n && p.state == .done)
  let s1 := l.foldl (fun (t : State) n => t.setPgh n Pgh.free) s
  { s1 with ledger.compDone := (s1.ledger.compDone + l.length) % 65536 }

/-- Completion at time zero of a frame boundary (R193, R207). -/
def State.complete (s : State) : State :=
  let s1 := s.markLost.markComplete
  let s2 := s1.finished.foldl State.reachDone s1
  s2.freeHidden.settleKept.placeCancels

end Sys2Proof.Machine
end

