-- ==== Sys2Proof/Machine/Sweep.lean ====
section
/-! DEFINITION. The ledger check (10_dc_ledger): sweeps, classes, deferral lists, units of candidate cells and the hidden
pigeonholes they fill. -/

namespace Sys2Proof.Machine

/-- Class of a cell beyond the bound (R247). -/
inductive CellClass where
  | window | covered | uncompensated | deferred | unbalanced | candidate
deriving DecidableEq, Repr

/-- INTEGRAL of a ledger word (R97). -/
def integralOf (w : LedgerWord) : Int := sgn 12 w.toNat

/-- LEDGER_BOUND in use (R172, R188). -/
def State.bound (s : State) : Int := almBound s.alm.image

/-- Rectangle of a cell (R97). -/
def cellRect (k : Nat) : Rect := { row0 := 4 * (k / 768), height := 4, col0 := 4 * (k % 768), width := 4 }

/-- A cell of the panel class in use. -/
def State.cellInUse (s : State) (k : Nat) : Bool := decide (k % 768 < s.groupsInRow) && decide (4 * (k / 768) < s.rows)

/-- Bank of a cell (R97). -/
def cellBank (k : Nat) : Nat := k / 768 / 4

/-- The integral the sweep tests: a word that fails parity counts as 0 (R254). -/
def State.swept (s : State) (k : Nat) : Int := integralOf (s.cellWord k)

/-- Some balance byte is valid (R247, R255). -/
def State.offersComp (s : State) : Bool :=
  let a := s.alm.image
  anyTo 12 (fun b => anyTo 2 (fun g => anyTo 31 (fun t => (balanceMode a b g t).isSome)))

/-- A group lies in a cell. -/
def groupInCell (k g : Nat) : Bool := decide (g / 3072 = k / 768) && decide (g % 768 = k % 768)

/-- The sixteen pixels of a cell; those of a cell with a group that reads as uncorrectable count as unknown (R518). -/
def State.cellPixels (s : State) (k : Nat) : List Pixel :=
  let lost := !(s.lostGroups (groupInCell k)).isEmpty
  (cellRect k).keys.map (fun q => if lost then pixelOf unknownWord else pixelOf (sget unknownWord s.mem.pixels q))

/-- Class of a cell beyond the bound (R247). -/
def State.cellClass (s : State) (comp : Bool) (k : Nat) : CellClass :=
  let r := cellRect k
  let x := s.cellPixels k
  let b := (vget s.therm.plot (s.plotOf r.row0 r.col0)).pub
  let g := if s.swept k < 0 then 1 else 0
  if s.inWindow r.row0 r.col0 then .window
  else if s.pgh.tab.any (fun y => isHidden y.1 && (y.2.state == .pending || y.2.state == .running) && y.2.rect.overlaps r) then
    .covered
  else if !comp then .uncompensated
  else if x.any (fun p => p.active) then .deferred
  else if x.all (fun p => (balanceMode s.alm.image b g p.current).isNone) then .unbalanced
  else .candidate

/-- Units formed from candidates in the order found, each with its time: runs of at most 16 adjacent cells of a row, plot and sign
(R249). -/
def State.formUnits (s : State) (e : Nat) : List (Nat × Nat) → List Offer → List Offer
  | [], acc => acc.reverse
  | (k, t) :: l, acc =>
    let v := s.swept k
    let neg := decide (v < 0)
    let plot := fun (c : Nat) => s.plotOf (4 * (c / 768)) (4 * (c % 768))
    match acc with
    | o :: acc' =>
      if o.cell + o.count = k ∧ k / 768 = o.cell / 768 ∧ plot k = plot o.cell ∧ neg = o.neg ∧ o.count < 16 then
        s.formUnits e l ({ o with count := o.count + 1, mag := max o.mag v.natAbs, at_ := t } :: acc')
      else s.formUnits e l ({ cell := k, count := 1, neg := neg, mag := v.natAbs, drill := e, at_ := t } :: acc)
    | [] => s.formUnits e l [{ cell := k, count := 1, neg := neg, mag := v.natAbs, drill := e, at_ := t }]

/-- In-use cells of an engine's stripe below a cell. -/
def State.stripeBelow (s : State) (e k : Nat) : Nat :=
  ((List.range (min (cellBank k) s.banksInUse)).filter (fun b => (vget s.mem.banks b).owner == e)).length * 4 * s.groupsInRow
    + k / 768 % 4 * s.groupsInRow + k % 768

/-- Cells whose word may differ from 0, rising. -/
def State.sweepKeys (s : State) : List Nat :=
  let l := s.mem.ledger.map Prod.fst
  let m := (s.mem.ledgerFlip.map Prod.fst).filter (fun k => !l.contains k)
  if m.isEmpty then l else (l ++ m).mergeSort (· ≤ ·)

/-- One active drill's sweep of its stripe (R246 to R249). It reads a ledger word a cycle, and the four groups of each cell it tests
in full (log 99). -/
def State.sweepDrill (s : State) (comp : Bool) (d : Nat) : State :=
  let e := d + 2
  let x := vget s.drills.drill d
  let beyond := fun (k : Nat) => decide (s.bound < s.swept k) || decide (s.swept k < -s.bound)
  let own := fun (k : Nat) => s.cellInUse k && decide ((vget s.mem.banks (cellBank k)).owner = e)
  let stripe := (s.sweepKeys).filter own
  let out := stripe.filter beyond
  let cls := fun (k : Nat) => s.cellClass comp k
  let list := x.defer.filter own
  let kept := list.filter (fun k => beyond k && cls k == .deferred)
  let first := list.filter (fun k => beyond k && cls k == .candidate)
  let newDefer := out.filter (fun k => cls k == .deferred && !kept.contains k)
  let spent := s.now + 5 * list.length
  let cands := first.map (fun k => (k, s.now + 5 * (list.idxOf k + 1)))
    ++ (out.filter (fun k => cls k == .candidate && !first.contains k)).map (fun k =>
      (k, spent + s.stripeBelow e k + 1 + 4 * (out.idxOf k + 1)))
  let peak := stripe.foldl (fun (a : Nat × Nat) k =>
    let m := (s.swept k).natAbs
    if a.1 < m then (m, k) else a) (0, 0)
  let counts : SweepCounts :=
    { overN := out.length, unbal := (out.filter (fun k => cls k == .unbalanced)).length
      win := (out.filter (fun k => cls k == .window)).length
      peakMag := peak.1, peakCell := peak.2, peakNeg := decide (s.swept peak.2 < 0) }
  let s1 := s.modDrill d (fun y =>
    { y with defer := kept ++ newDefer.take (64 - kept.length), before := y.sweep, sweep := counts
             sweepTo := spent + s.stripePixels d / 16 + 4 * out.length })
  -- the groups of the cells tested are read, and corrected ones written back (R92, R153; log 127)
  let s2 := s1.mend (fun g => out.any (fun k => groupInCell k g))
  let full := decide (64 < kept.length + newDefer.length)
  { (if full then s2.hwSet 0xA00 4 else s2) with
            ledger.deferFull := s2.ledger.deferFull || full
            drills.offers := s2.drills.offers ++ (s.formUnits e cands []).take 16 }

/-- Every active drill begins its sweep, unless the directive holds the check (R246). -/
def State.sweepAll (s : State) : State :=
  if s.pgh.deferLdg || s.rtc.deliveryAt.isSome then s
  else
    let comp := s.offersComp
    (s.places .active).foldl (fun (t : State) d => if (vget t.drills.drill d).fenced then t else t.sweepDrill comp d) s

/-- A unit takes a FREE hidden pigeonhole, or is dropped where none is (R250). -/
def State.fillHidden (s : State) (o : Offer) : State :=
  match firstTo 64 (fun h => (s.pgh_ (2048 + h)).state == .free) with
  | none => s
  | some h =>
    let (t, s1) := s.drawTicket
    let r := cellRect o.cell
    let p := { Pgh.free with row0 := r.row0, height := 4, colg0 := o.cell % 768, widg := o.count
                             mode := if o.neg then 1 else 0, ticket := t, state := .pending }
    let s2 := s1.setPgh (2048 + h) p
    { s2 with ledger.compQueued := (s2.ledger.compQueued + 1) % 65536 }

/-- The units of the frame that ended fill hidden pigeonholes, largest magnitude first (R250). -/
def State.fillAll (s : State) : State :=
  let l := s.drills.offers.mergeSort (fun a b => decide (b.mag < a.mag) || (decide (a.mag = b.mag) && decide (a.cell ≤ b.cell)))
  l.foldl State.fillHidden { s with drills.offers := [] }

/-- PENDING hidden units are withdrawn to FREE where they pass (R215, R254, R354). -/
def State.withdraw (s : State) (q : Pgh → Bool) : State :=
  s.mapPgh (fun n p => if isHidden n ∧ p.state = .pending ∧ q p then Pgh.free else p)

/-- R215: withdrawn at a start set. -/
def State.withdrawDue (s : State) : State :=
  let hosts := s.pghWhere (fun n p => isHost n && p.waiting)
  s.withdraw (fun p => decide (64 ≤ p.age) || hosts.any (fun n => (s.pgh_ n).rect.overlaps p.rect))

/-- Every deferral list is cleared (R248). -/
def State.clearDefer (s : State) : State := s.mapDrills (fun _ d => { d with defer := [] })

end Sys2Proof.Machine
end

