-- ==== Sys2Proof/Machine/Window.lean ====
section
/-! DEFINITION. The registered window (11_registered_window): descriptor, records, their checks, session marking, the kept
record, typesetting, pigeonhole 0, the readback check and the registered port's frames. -/

namespace Sys2Proof.Machine

/-- A bit of `RW_FLAG` is set (R284); bit 0 is a cause of ATTN_N (R379). -/
def State.flagRw (s : State) (k : Nat) : State :=
  { (if k = 0 then s.attnArises 2 else s).hwSet 0xB14 (1#32 <<< k) with rw.flag := setBit s.rw.flag k true }

/-! ### Descriptor (R256, R257, R271) -/

/-- Life-cycle state in force: 0 Fallow, 1 Sown, 2 Sealed, 3 Stubble (R458). -/
def State.lcNow (s : State) : Nat := s.otp.lc.maj.toNat

/-- Cell of a font (R271). -/
def fontW (f : Nat) : Nat := [8, 12, 16, 24, 32, 48].getD f 0
def fontH (f : Nat) : Nat := [16, 24, 32, 48, 64, 96].getD f 0

def descW (d : Vector Word 8) : Nat := 4 * fld (vget d 0) 10 10
def descH (d : Vector Word 8) : Nat := 4 * fld (vget d 1) 0 10

/-- Valid, its slot programmed (R257). -/
def State.descValid (s : State) (d : Vector Word 8) : Bool :=
  let w := descW d
  let h := descH d
  let slotOk := fun (k : Nat) =>
    let x := vget d k
    let f := fld x 23 3
    fld x 28 4 == 0 && (f == 7 || (decide (f ≤ 5) && decide (fld x 26 2 ≤ 2) && decide (fld x 0 12 ≤ w)
      && decide (fld x 12 11 + fontH f + 20 ≤ h)))
  fld (vget d 1) 21 11 == 0 && decide (280 ≤ w) && decide (w ≤ 3072) && decide (40 ≤ h) && decide (h ≤ 2048)
    && decide (w * h ≤ 262144) && decide (4 * fld (vget d 0) 0 10 + w ≤ s.cols)
    && decide (4 * fld (vget d 0) 20 9 + h ≤ s.rows) && allTo 6 (fun k => slotOk (k + 2))

def State.winW (s : State) : Nat := descW s.rw.desc
def State.winH (s : State) : Nat := descH s.rw.desc
def State.winMode (s : State) : Nat := fld (vget s.rw.desc 1) 10 2
def State.staleSeconds (s : State) : Nat := fld (vget s.rw.desc 1) 13 8

/-- Bit period of the port in SCLK (R259): BAUD of the descriptor slot as read, also where the window is absent (DESIGN CHOICE, log
139). -/
def State.bitPeriod (s : State) : Nat := [1748, 874, 437, 218, 201, 134, 101, 67].getD (fld (vget s.rw.desc 0) 29 3) 1748

/-! ### Records (R263 to R266) -/

def recType (r : Record) : Nat := (byteAt r 2).toNat
def recEpoch (r : Record) : Nat := (byteAt r 3).toNat
def recSeq (r : Record) : Nat := quad r 4
def recSession (r : Record) : Nat := quad r 8
def recLen (r : Record) : Nat := half r 16
def recText (r : Record) : List Byte := (r.drop 20).take (recLen r)

/-- TEXT split at each 0x0A (R264). -/
def splitLines : List Byte → List (List Byte)
  | [] => [[]]
  | b :: l =>
    match splitLines l with
    | [] => [[]]
    | x :: xs => if b = 0x0A#8 then [] :: x :: xs else (b :: x) :: xs

/-- Left column of a line of n characters in slot word x (R272). -/
def lineLeft (x : Word) (n : Nat) : Int :=
  let w := n * fontW (fld x 23 3)
  let p : Int := fld x 0 12
  match fld x 26 2 with
  | 0 => p
  | 1 => p - w
  | _ => p - (w / 2 : Nat)

/-- Order 8: every line that is not empty falls to a used slot and fits (R266, R272). -/
def State.layoutOk (s : State) (r : Record) : Bool :=
  let ls := splitLines (recText r)
  allTo ls.length (fun k =>
    let l := ls.getD k []
    let x := vget s.rw.desc (k + 2)
    l.isEmpty || (!(fld x 23 3 == 7) && decide (0 ≤ lineLeft x l.length)
      && decide (lineLeft x l.length + (l.length * fontW (fld x 23 3) : Nat) ≤ s.winW)))

/-- Order 2. -/
def recCrcOk (r : Record) : Bool := (crc32 (r.take (84 + recLen r))).toNat == quad r (84 + recLen r)

/-- Order 3. -/
def recFormOk (r : Record) : Bool :=
  let t := recType r
  decide (1 ≤ t) && decide (t ≤ 3) && ((recSession r == 0) == (t == 3)) && decide (1 ≤ recEpoch r)
    && decide (recEpoch r ≤ 16) && half r 18 == 0

/-- Order 7. -/
def recTextOk (r : Record) : Bool :=
  (recText r).all (fun b => decide (b.toNat ≤ 0x7F) && b != 0x1F#8) && decide ((splitLines (recText r)).length ≤ 6)

/-- Orders 3 to 8: the code of the first that fails; `again` admits a SEQ equal to the floor (R266, R486). -/
def State.recCode (s : State) (again : Bool) (r : Record) : Option Byte :=
  if !recFormOk r then some 0x11
  else if !s.rw.present || s.lcNow == 3 then some 0x12
  else if recEpoch r ≠ s.rw.epoch || s.rw.key.isNone then some 0x13
  else if decide (recSeq r < s.rw.floor.toNat) || (!again && recSeq r == s.rw.floor.toNat) then some 0x14
  else if !recTextOk r then some 0x15
  else if !s.layoutOk r then some 0x16
  else none

/-- Order 9 (R265). -/
def State.sigOk (s : State) (r : Record) : Bool :=
  match s.rw.key with
  | none => false
  | some k =>
    let sig := (r.drop (20 + recLen r)).take 64
    verifySig ((r.drop 2).take (18 + recLen r)) (beNat (sig.take 32)) (beNat (sig.drop 32)) k

/-- Time of a check (R265). -/
def checkTime : Nat := 7864320

/-- A record comes under check, its check time from t (R267). -/
def State.beginCheck (s : State) (t : Nat) (r : Record) : State :=
  let code := if recCrcOk r then s.recCode false r else some 0x10
  { s with rw.checking := some (r, code, t + checkTime) }

/-- When the accelerator is free of the kept record's re-check (R486). -/
def State.recheckOver (s : State) : Nat := if s.rw.recheck then max s.now (s.rw.lastVerified + checkTime) else s.now

/-- One more record abandoned or dropped (R266, R267). -/
def State.abandonRecord (s : State) : State :=
  { s.flagRw 4 with rw.abandon := sat16 s.rw.abandon 1 }

/-- A record complete in the controller; beside a re-check it waits in the first place (R267, R486). -/
def State.takeRecord (s : State) (r : Record) : State :=
  if s.rw.checking.isNone then s.beginCheck s.recheckOver r
  else if s.rw.waiting.isNone then { s with rw.waiting := some r }
  else s.abandonRecord

/-- The hunt through the bytes received (R266). -/
def State.hunt : Nat → State → State
  | 0, s => s
  | n + 1, s =>
    let b := s.rw.rx
    match b with
    | [] => s
    | [x] => if x = 0x3C#8 then s else { s with rw.rx := [] }
    | x :: y :: _ =>
      if x ≠ 0x3C#8 ∨ y ≠ 0xC3#8 then State.hunt n { s with rw.rx := b.drop 1 }
      else if b.length < 18 then s
      else if 960 < recLen b then State.hunt n ({ s with rw.rx := b.drop 1 }.abandonRecord)
      else if b.length < 88 + recLen b then s
      else
        let r := b.take (88 + recLen b)
        State.hunt n ({ s with rw.rx := if recCrcOk r then b.drop (88 + recLen b) else b.drop 1 }.takeRecord r)

/-- Bytes of a record whose SYNC has been received are still to come (R269). -/
def State.recordArriving (s : State) : Bool :=
  match s.rw.rx with
  | x :: y :: _ => x == 0x3C#8 && y == 0xC3#8
  | _ => false

/-! ### Kept record (R268) -/

/-- The newer slot whose marker is valid. -/
def State.keptSlot (s : State) : Option KeptSlot :=
  let a := s.rtc.kept0
  let b := s.rtc.kept1
  if a.marker && b.marker then some (if a.age < b.age then b else a)
  else if a.marker then some a
  else if b.marker then some b
  else none

/-- The oldest write in progress ends: the older slot becomes the kept record. -/
def State.endKeptWrite (s : State) : State :=
  match s.rw.writes with
  | [] => s
  | (r, f) :: l =>
    let a := s.rtc.kept0
    let b := s.rtc.kept1
    let slot : KeptSlot := { record := r, floor := f, marker := true, age := max a.age b.age + 1 }
    let s1 := { s with rw.writes := l }
    if !a.marker || (b.marker && decide (a.age < b.age)) then { s1 with rtc.kept0 := slot } else { s1 with rtc.kept1 := slot }

/-! ### Status and typesetting (R271 to R275, R282) -/

/-- Status word in force (R274). -/
def State.rwStatus (s : State) : RwStatus :=
  if s.lcNow = 3 then .void
  else if s.rw.poff then .poff
  else if s.rw.epoch = 0 ∨ s.rw.key.isNone then .noky
  else if s.rw.failed then .fail
  else if s.rw.session.isSome ∧ s.staleSeconds ≠ 0 ∧ s.rw.stale then .stal
  else match s.rw.drawn with
    | none => .wait
    | some r =>
      if s.rw.restored then .rstr
      else if recType r = 1 then (if s.rw.session = some (wd (recSession r)) then .live else .nrsv)
      else if recType r = 2 then .finl
      else .idle

def RwStatus.code : RwStatus → Nat
  | .wait => 0 | .idle => 1 | .finl => 2 | .nrsv => 3 | .live => 4 | .rstr => 5 | .stal => 6 | .fail => 7 | .noky => 8
  | .poff => 9 | .void => 10

/-- ASCII codes of a status word. -/
def RwStatus.word : RwStatus → List Nat
  | .wait => [87, 65, 73, 84] | .idle => [73, 68, 76, 69] | .finl => [70, 73, 78, 76] | .nrsv => [78, 82, 83, 86]
  | .live => [76, 73, 86, 69] | .rstr => [82, 83, 84, 82] | .stal => [83, 84, 65, 76] | .fail => [70, 65, 73, 76]
  | .noky => [78, 79, 75, 89] | .poff => [80, 79, 70, 70] | .void => [86, 79, 73, 68]

/-- n decimal digits. -/
def digits (n x : Nat) : List Nat := ((List.range n).map (fun i => 48 + x / 10 ^ i % 10)).reverse

/-- The record whose content is shown: none in Stubble or without a key (R282). -/
def State.shownRecord (s : State) : Option Record :=
  if s.lcNow = 3 ∨ s.rw.epoch = 0 ∨ s.rw.key.isNone then none else s.rw.drawn

/-- The 34 characters of the postmark line (R273). -/
def State.postmark (s : State) : List Nat :=
  let e := match s.shownRecord with
    | some r => 69 :: digits 2 (recEpoch r)
    | none => [69, 45, 45]
  let q := match s.shownRecord with
    | some r => digits 10 (recSeq r)
    | none => List.replicate 10 45
  let tag := if 2 ≤ s.lcNow then [83, 69, 65, 76] else [80, 82, 79, 86]
  e ++ [32, 35] ++ q ++ [32] ++ tag ++ digits 4 s.rw.postSeal ++ [32, 82, 80] ++ digits 2 s.rw.postRp
    ++ [32] ++ s.rwStatus.word

/-- A line of text placed in the window: left column, top row, font, codes. -/
abbrev Placed := Nat × Nat × Nat × List Nat

/-- Stubble's line in the largest font that fits (R275). -/
def State.outOfService (s : State) : Placed :=
  let ok := fun f => decide (16 * fontW f + 8 ≤ s.winW) && decide (fontH f + 24 ≤ s.winH)
  let f := ((List.range 6).filter ok).foldl max 0
  ((s.winW - 16 * fontW f) / 2, (s.winH - 20 - fontH f) / 2, f,
    [0x1F, 32, 79, 85, 84, 32, 79, 70, 32, 83, 69, 82, 86, 73, 67, 69])

/-- The lines shown, the postmark last (R272, R273, R282). -/
def State.placedLines (s : State) : List Placed :=
  let text : List Placed :=
    if s.lcNow = 3 then [s.outOfService]
    else match s.shownRecord with
      | none => []
      | some r =>
        let ls := splitLines (recText r)
        (List.range ls.length).filterMap (fun k =>
          let l := ls.getD k []
          let x := vget s.rw.desc (k + 2)
          if l.isEmpty then none
          else some ((lineLeft x l.length).toNat, fld x 12 11, fld x 23 3, l.map BitVec.toNat))
  text ++ [(4, s.winH - 18, 0, s.postmark)]

/-- Ink of a glyph's pixel: 0x7F is solid, 0x1E and the space are blank, the rest is the glyph ROM's (R271, R413; log 11). -/
def glyphInk (f c y x : Nat) : Bool := c == 0x7F || (!(c == 0x1E || c == 0x20) && Config.glyph f c y x)

/-- Ink of a pixel of the window. -/
def inkAt (ls : List Placed) (y x : Nat) : Bool :=
  ls.any (fun (l : Placed) =>
    let f := l.2.2.1
    let cs := l.2.2.2
    decide (l.2.1 ≤ y) && decide (y < l.2.1 + fontH f) && decide (l.1 ≤ x) && decide (x < l.1 + cs.length * fontW f)
      && glyphInk f (cs.getD ((x - l.1) / fontW f) 32) (y - l.2.1) ((x - l.1) % fontW f))

/-- The bitmap: true for state 30 (R272). -/
def State.renderMap (s : State) : Array Bool :=
  let ls := s.placedLines
  let inkIs30 := (vget s.rw.desc 1).getLsbD 12
  let w := s.winW
  ((List.range (w * s.winH)).map (fun i => inkAt ls (i / w) (i % w) == inkIs30)).toArray

/-- A typesetting begins, or is due after the one in progress; whether a readback mismatch asks for it (R272, R277, R281). -/
def State.typesetFor (s : State) (rb : Bool) : State :=
  if !s.rw.present then s
  else if s.rw.typesetting.isSome then { s with rw.typesetAgain := true, rw.redraw.again := s.rw.redraw.again || rb }
  else { s with rw.typesetting := some (s.now + 786432, s.renderMap), rw.statusShown := s.rwStatus, rw.redraw.typeset := rb }

def State.typeset (s : State) : State := s.typesetFor false

/-- A change of the status word draws the window again (R277); before the first render of a start-up it waits for that one. -/
def State.refreshStatus (s : State) : State :=
  if s.rw.firstDraw || s.rw.statusShown == s.rwStatus then s else s.typeset

/-- Bytes of a bitmap, least significant bit first (R198). -/
def mapBytes (m : Array Bool) : Array Byte :=
  ((List.range ((m.size + 7) / 8)).map (fun i =>
    BitVec.ofNat 8 (sumTo 8 (fun k => if m.getD (8 * i + k) false then 2 ^ k else 0)))).toArray

/-- Pigeonhole 0 filled with a bitmap: PENDING (R276). -/
def State.fillZero (s : State) (m : Array Bool) : State :=
  let page := if s.rw.bufB then 4032 else 4064
  let p := { Pgh.free with
    row0 := 4 * fld (vget s.rw.desc 0) 20 9, height := s.winH, colg0 := fld (vget s.rw.desc 0) 0 10, widg := s.winW / 4
    mode := Fin.ofNat 4 s.winMode, preempt := true, format := 0, keep := true, page := page, state := .pending
    payload := some { format := 0, pages := (List.range 32).map (fun i => page + i), bytes := mapBytes m } }
  { s.setPgh 0 p with rw.filled := some m }

/-- A render is complete: pigeonhole 0 takes it, or it waits while pigeonhole 0 runs. A render that it overwrites passes on what it
was asked for (R277, R281). -/
def State.rendered (s : State) (m : Array Bool) : State :=
  let d := s.rw.redraw
  if (s.pgh_ 0).state = .running then
    { s with rw.waitingMap := some m, rw.redraw := { d with waiting := d.waiting || d.typeset, typeset := false } }
  else State.fillZero { s with rw.redraw := { d with filled := d.filled || d.typeset, typeset := false } } m

/-- Pigeonhole 0 starts: its window in the sieve, its rectangle written, its forecast held, what it preempts marked (R203, R276,
R278); the port's attention ends (R279). -/
def State.startZero (s : State) : State :=
  let p := s.pgh_ 0
  let m := s.rw.filled.getD #[]
  let pick := fun (row col : Nat) (_ : Pixel) => (p.target row col).map (fun t => (t, p.mode.val))
  let w := s.writeUnit true false p.rect pick
  let shares := ((List.range 64).map (fun q =>
    (q, (p.rect.meet (s.plotRect q)).area * eFrame s.alm.image p.mode (vget s.therm.plot q).pub))).filter (fun x => decide (0 < x.2))
  let u : PghUnit := { row0 := p.row0, height := p.height, commit := shares.foldl (fun a x => a + x.2) 0, frame := s.scan.frame
                       ceiling := shares, complete := false }
  let s1 := (w.1.setPgh 0 { p with state := .running, units := [u], pixelLost := p.pixelLost || w.2 }).markPreempted 0 p.rect
  { s1 with pgh.sieve0 := some { pgh := 0, cancel := false, rect := p.rect, ticket := 0 }
            rw.changeDue := !(s.rw.reference == some m), rw.reference := some m, rw.bufB := !s.rw.bufB
            rw.attention := false, rw.redraw := { s.rw.redraw with drawn := s.rw.redraw.filled, filled := false } }

/-- A render is being typeset or waits (R279, R284). -/
def State.drawPending (s : State) : Bool := s.rw.typesetting.isSome || s.rw.waitingMap.isSome

/-- Conditions of refuser WINDOW (R279). -/
def State.windowRefuses (s : State) : Bool :=
  s.rw.session.isSome || (s.pgh_ 0).state == .pending || (s.pgh_ 0).state == .running || s.drawPending

/-! ### Port frames (R267, R269) -/

/-- Bytes of a frame sent on RPTX (R269). -/
def PortFrame.bytes (f : PortFrame) : List Byte :=
  let h := [0xA5#8, 0x5A#8, f.kind, f.code] ++ leBytes 4 f.seq.toNat
  h ++ leBytes 4 (crc32 h).toNat

/-- A frame begins now: RPDE a bit period either side (R262). -/
def State.sendFrame (s : State) (f : PortFrame) : State :=
  { s with rw.sent := s.rw.sent ++ [f], rw.txUntil := s.now + 122 * s.bitPeriod }

/-- Requests are due: window present, key epoch not 0, status WAIT (R269). -/
def State.requestHolds (s : State) : Bool := s.rw.present && !(s.rw.epoch == 0) && s.rwStatus == .wait && !s.rw.poff

/-! ### Verified and rejected records (R266, R270) -/

/-- Session live marking; the code of the reply (R270, R440). -/
def State.markSession (s : State) (r : Record) : State × Byte :=
  if recType r ≠ 1 then ({ s with rw.session := none }, 0)
  else if s.rw.session = some (wd (recSession r)) then (s, 0)
  else if s.rtc.liveOk ∧ ¬ s.rtc.backupRun then ({ s with rw.session := some (wd (recSession r)) }, 0)
  else
    ({ s.flagRw 5 with rw.session := none, pwr.refuse := vmod s.pwr.refuse 8 (fun x => sat32 x 1) }, 1)

/-- A record is verified: the floor, the session, the record drawn, the kept write, the render (R266, R268, R270, R277). -/
def State.verified (s : State) (r : Record) : State × Byte :=
  let m := s.markSession r
  let s1 := { m.1 with rw.floor := wd (recSeq r), rw.drawn := some r, rw.restored := false, rw.failed := false
                       rw.stale := false, rw.attention := true, rw.lastVerified := s.now, rw.verified := (s.rw.verified + 1) % 65536
                       rw.stuck := false, rw.rbRun := 0, rw.rbDoneAt := none
                       rw.writes := s.rw.writes ++ [(r, wd (recSeq r))] }
  (s1.typeset, m.2)

/-- A record is rejected with a code (R266, R284). -/
def State.rejected (s : State) (c : Byte) : State :=
  let s1 := { s with rw.lastRej := c, rw.rejected := (s.rw.rejected + 1) % 65536 }
  if c = 0x17 then State.refreshStatus { s1.flagRw 1 with rw.failed := true }
  else s1.flagRw 3

/-- The check time of the record under check has ended: the reply, and the next record's check (R267). It begins then even while a
request is on the port, which it cuts (DESIGN CHOICE, log 138). -/
def State.endCheck (s : State) (due : Nat) (r : Record) (c : Option Byte) : State :=
  let out := match c with
    | some x => (s.rejected x, x)
    | none => if s.sigOk r then s.verified r else (s.rejected 0x17, 0x17)
  let s1 := { out.1 with rw.checking := none }.sendFrame { kind := 0x81, code := out.2, seq := wd (recSeq r) }
  match s1.rw.waiting with
  | some q => State.beginCheck { s1 with rw.waiting := none } due q
  | none => s1

/-- The re-check of the kept record at start-up (R282, R486). -/
def State.endRecheck (s : State) : State :=
  let s1 := { s with rw.recheck := false }
  match s.keptSlot with
  | none => s1
  | some k =>
    if (s.recCode true k.record).isNone && s.sigOk k.record then
      { s1 with rw.drawn := some k.record, rw.restored := true }
    else s1

/-- The first render of a start-up, once the first boundary and the re-check are both behind (R277). -/
def State.firstRender (s : State) : State :=
  if s.rw.firstDraw && s.rw.boundarySeen && !s.rw.recheck then State.typeset { s with rw.firstDraw := false } else s

/-! ### Readback (R152, R280, R281) -/

/-- A window pixel fails the check: its word as the drill read it, as it is re-read, the code emitted, whether the write-back was a
step boundary. A pixel that completes in this frame emitted its last tick's code: it is judged by the clause on ACTIVE pixels, from
the word it was read with (DEDUCED, log 35). -/
def State.readbackFails (s : State) (running : Bool) (row col : Nat) (was x : Pixel) (code : Nat) (boundary : Bool) : Bool :=
  match s.rw.reference, s.winRect with
  | some m, some w =>
    let t := if m.getD ((row - w.row0) * w.width + (col - w.col0)) false then 30 else 0
    let right := fun (y : Pixel) => y.active && y.target == t && y.mode == s.winMode
    !((!x.active && x.target == t && (code == 0 || right was)) || right x || (x.active && running && !right x && !boundary))
  | _, _ => false

/-- Pixels that failed the frame's readback; an injected RW_READBACK is presented as failures of a number that is not stated
(R281, R477; log 77). -/
def State.readbackCount (s : State) : Nat :=
  if s.injected fltRwReadback then max s.scan.rbFailed (1 + Config.freeNat s.free % 65535) else s.scan.rbFailed

/-- The boundary's handling of the frame's readback (R281). -/
def State.readbackBoundary (s : State) : State :=
  if s.rw.present && decide (0 < s.readbackCount) then
    -- the frame that ended came after the redraw's DONE, and how long after
    let past := match s.rw.rbDoneAt with
      | some f => (s.scan.frame - f).toNat
      | none => 0
    let run := if past = 0 then s.rw.rbRun else if past ≤ 64 then s.rw.rbRun + 1 else 0
    let s1 := State.raise { s.flagRw 2 with rw.rbFrames := sat16 s.rw.rbFrames 1, rw.rbLast := s.readbackCount, rw.rbRun := run
                                            rw.rbDoneAt := if past = 0 then s.rw.rbDoneAt else none
                                            free := s.free + 1 } fltRwReadback
    let s2 := if 3 ≤ run ∧ ¬ s.rw.stuck then State.raise { s1 with rw.stuck := true } fltRwStuck else s1
    if s2.rw.stuck then s2 else State.typesetFor { s2 with rw.rbRedraws := sat16 s2.rw.rbRedraws 1 } true
  else s

/-- Pigeonhole 0 has reached DONE at this boundary: new content is flagged, a waiting render fills it again, and a backup run's
idle time begins (R277, R281, R440). -/
def State.zeroDone (s : State) : State :=
  let s1 := if s.rw.changeDue then { s.flagRw 0 with rw.changeDue := false } else s
  let d := s.rw.redraw
  let s2 := if d.drawn then { s1 with rw.redraw.drawn := false, rw.rbDoneAt := some s.scan.frame } else s1
  let s3 := { s2 with rtc.quietAt := s.now }
  match s3.rw.waitingMap with
  | some m => State.fillZero { s3 with rw.waitingMap := none, rw.redraw := { s3.rw.redraw with filled := d.waiting, waiting := false } } m
  | none => s3

end Sys2Proof.Machine
end

