-- ==== Sys2Proof/Machine/Rows.lean ====
section
/-! DEFINITION. One row of the scan (06_scan_and_drills, 07_almanac, 04_pixel_word_and_memories, 05_panel_outputs): the step
of each ACTIVE pixel, the codes latched, write-back and ledger additions of a delivered row, the row's report, and the
aging pass. Idle pixels emit code 0 and keep their words, so only listed words are walked. -/

namespace Sys2Proof.Machine

/-- What a drill does with one ACTIVE pixel in a frame (R164): code emitted, word of the advance or completion, and whether
the write-back is a step boundary (R165). -/
structure PixelStep where
  code : Nat
  next : Pixel
  boundary : Bool
deriving DecidableEq, Repr

/-- Captured band of a pixel in a plot (R167, R168). -/
def State.capturedBand (s : State) (k lead plot : Nat) (x : Pixel) : Nat :=
  let f := s.scan.frame.toNat
  let c := f + 256 * 2 - f % k - (x.step - lead) * k
  (sget (11 : BitVec 4) s.alm.bandLog (c % 256 * 64 + plot)).toNat

/-- R164 for one pixel. -/
def State.pixelStep (s : State) (row col : Nat) (x : Pixel) : PixelStep :=
  let a := s.alm.image
  let k := strideK a x.mode
  let lead := leadL a x.mode
  let last := s.scan.frame.toNat % k == k - 1
  let step := { x with step := (x.step + 1) % 32 }
  if lead = 1 ∧ x.step = 0 then
    { code := leadCode a x.mode, next := if last then step else x, boundary := last }
  else
    let q := x.step - lead
    let band := s.capturedBand k lead (s.plotOf row col) x
    let l := (sequenceOf a (entryNo x.mode band x.age x.current x.target)).getD []
    let n := ticksOf l
    if n ≤ q then { code := 0, next := pixelComplete x, boundary := true }
    else
      let t := stepAtTick l q
      if last then { code := t.1, next := if q + 1 = n then pixelComplete x else step, boundary := t.2 }
      else { code := t.1, next := x, boundary := false }

/-- The word written back for an ACTIVE pixel, the sieve's rows in place of the advance at a step boundary (R165, R203). -/
def State.pixelWrite (s : State) (row col : Nat) (x : Pixel) (p : PixelStep) : Pixel :=
  if p.boundary then
    match s.sieveAct row col x with
    | .keep => p.next
    | .cancel => pixelCancel x
    | .preempt t m => pixelPreempt t m x
  else p.next

/-- From the first row read after VIN loss, pixels outside the window take no part (R438). -/
def State.rowHeldOut (s : State) : Bool :=
  match s.rtc.deliveryAt with
  | some t => decide (t + 2 * s.scan.rowT ≤ s.now)
  | none => false

/-- One listed pixel of the row as the scan leaves it: column, word before, code, word after, step boundary, and whether it
completed (R83, R141). -/
structure RowPixel where
  col : Nat
  before : Pixel
  code : Nat
  after : PixelWord
  boundary : Bool
  done : Bool
deriving DecidableEq, Repr

/-- A pixel takes part in the scan of a row: in a final delivery those outside the window do not (R438). -/
def State.takesPart (s : State) (row col : Nat) : Bool := !s.rowHeldOut || s.inWindow row col

/-- The scan of one listed pixel (R93, R140, R164, R189, R438). -/
def State.scanPixel (s : State) (row : Nat) (lost : List Nat) (col : Nat) (w : PixelWord) : RowPixel :=
  let x := pixelOf w
  let leaves (code : Nat) (after : PixelWord) (boundary done : Bool) : RowPixel :=
    { col := col, before := x, code := code, after := after, boundary := boundary, done := done }
  if ¬ s.takesPart row col then leaves 0 w false false
  else if lost.contains (groupOf row col) then leaves 4 unknownWord false false
  else if ¬ x.active then leaves 0 w false false
  else if s.scan.cancelAll then leaves 0 (pixelWord (pixelCancel x)) true false
  else
    let p := s.pixelStep row col x
    leaves p.code (pixelWord (s.pixelWrite row col x p)) p.boundary
      (p.boundary && !p.next.active && s.sieveAct row col x == .keep)

/-- Listed pixels of a row, in use. -/
def State.rowPixels (s : State) (row : Nat) (lost : List Nat) : List RowPixel :=
  (s.mem.pixels.filter (fun x => decide (x.1 / 3072 = row) && decide (x.1 % 3072 < s.cols))).map (fun x =>
    s.scanPixel row lost (x.1 % 3072) x.2)

/-- Codes of the row by column; unlisted columns carry code 0 (R93, R140). -/
def rowCodes (row : Nat) (l : List RowPixel) (lost : List Nat) : SMap (BitVec 3) :=
  let m := l.foldl (fun m p => sset 0 m p.col (BitVec.ofNat 3 p.code)) []
  (lost.filter (fun g => decide (g / 768 = row))).foldl (fun m g =>
    (List.range 4).foldl (fun m k => sset 0 m (g % 768 * 4 + k) 4) m) m

/-- Columns that make a zero pass (R104). -/
def zeroPasses (zp : Nat) (wasFloat : Bool) (before after : SMap (BitVec 3)) : List Nat :=
  if zp = 0 ∨ wasFloat then []
  else (after.filter (fun x =>
    let a := levelOf (sget 0 before x.1).toNat
    let b := levelOf x.2.toNat
    decide (a * b < 0))).map Prod.fst

/-- Sum of level numbers of a group (R98). -/
def groupLevel (m : SMap (BitVec 3)) (c : Nat) : Int := isumTo 4 (fun k => levelOf (sget 0 m (4 * c + k)).toNat)

/-- One ledger cell of a delivered row: the addition, whether it saturated (R98, R99, R100). -/
def ledgerAdd (d : Nat) (level : Int) (w : LedgerWord) : LedgerWord × Bool :=
  let x := sgn 12 w.toNat + fdiv (5 * level + d) 4
  let y := clampI (-2048) 2047 x
  (BitVec.ofNat 16 (twos 12 y), decide (x ≠ y))

/-- The additions of a delivered row to the cells whose group passes (R98 to R100): words that fail parity are counted, and count
afresh. While an injected LDG_PARITY is held every word fails (R477). -/
def State.ledgerRow (s : State) (row : Nat) (codes : SMap (BitVec 3)) (q : Nat → Bool) : State :=
  let d := s.scan.frame.toNat % 4
  let mine := fun (k : Nat) => decide (k / 768 = row / 4) && decide (k % 768 < s.groupsInRow) && q (k % 768)
  let key := fun c => row / 4 * 768 + c
  let all := if s.held fltLdgParity then ((List.range s.groupsInRow).filter q).map key else []
  let bad := if all.isEmpty then ((s.mem.ledgerFlip.map Prod.fst).filter (fun k => mine k && s.cellBad k)).length else all.length
  let t := s.freshCells mine
  let s0 := { t with mem.ledger := sapply 0 (fun _ _ => 0) t.mem.ledger all }
  let cols := (List.range s.groupsInRow).filter (fun c => !(groupLevel codes c == 0) && q c)
  let f := fun (k : Nat) (w : LedgerWord) => (ledgerAdd d (groupLevel codes (k % 768)) w).1
  let sat := cols.any (fun c => (ledgerAdd d (groupLevel codes c) (sget 0 s0.mem.ledger (key c))).2)
  let s1 := { s0 with mem.ledger := sapply 0 f s0.mem.ledger (cols.map key) }
  let s2 := if sat then
      { s1.hwSet 0xA00 1 with mem.satFlag := true, mem.satCnt := if s.mem.satNow then s.mem.satCnt else sat32 s.mem.satCnt 1, mem.satNow := true }
    else s1
  if bad = 0 then s2
  else State.raise { s2.hwSet 0xA00 2 with mem.perrCnt := sat32 s2.mem.perrCnt bad, mem.perrFlag := true } fltLdgParity

/-- A pixel receives the cancel row: every started pigeonhole that holds it, and that one cancel at least is not its own, loses it
(R194, R204). A PREEMPT pigeonhole whose window covers it is one of them. -/
def State.markCancelHit (s : State) (row col : Nat) : State :=
  let c := s.windowsAt true row col
  s.mapPgh (fun n p => if n ≠ 0 ∧ p.going ∧ p.startedRect.has row col ∧ c.any (fun x => x.pgh != n) then { p with pixelLost := true } else p)

/-- A pigeonhole has started rows that hold an ACTIVE pixel of its own: of the window for pigeonhole 0, outside it for the others.
-/
def State.holdsActive (s : State) (n : Nat) (p : Pgh) : Bool :=
  s.mem.pixels.any (fun x => (pixelOf x.2).active && p.startedRect.has (x.1 / 3072) (x.1 % 3072)
    && (n == 0 || !s.inWindow (x.1 / 3072) (x.1 % 3072)))

/-- Pigeonholes whose pixels an almanac loss cancels receive PIXEL_LOST (R189). -/
def State.markAlmLost (s : State) : State :=
  s.mapPgh (fun n p => if p.going && s.holdsActive n p then { p with pixelLost := true } else p)

/-- Charge of a row into the running counters (R107, R110). -/
def State.addCharge (s : State) (l : List Charge) : State :=
  l.foldl (fun (t : State) c => { t with panel.qRun := vmod t.panel.qRun c.seg.val (fun v =>
    vmod v c.rail.val (fun n => min 16777215 (n + c.nC))) }) s

/-- The codes of the row before are kept at a latch point (R102). -/
def State.keepCodes (s : State) : State := { s with panel.prevCodes := s.panel.srcCodes, panel.prevFloat := s.panel.srcFloat }

/-- A row the high-voltage die latched as float (R20, R107). -/
def State.rowMissed (s : State) (row : Nat) : State :=
  { s.keepCodes with panel.srcFloat := true, panel.srcCodes := [], panel.zeroPass := [], scan.missed := s.scan.missed ++ [row] }

/-- Window columns of a row. -/
def State.windowCols (s : State) (row : Nat) : List Nat :=
  match s.winRect with
  | some r => if r.row0 ≤ row ∧ row < r.row0 + r.height then (List.range r.width).map (fun c => r.col0 + c) else []
  | none => []

/-- The row's window groups are re-read after the write-back, with what flipped since; a group that is uncorrectable by then
gives no words, and its pixels fail the check, once there is a reference (R152, R280; log 111). -/
def State.reread (s : State) (row : Nat) (l : List RowPixel) (lost : List Nat) (flips : List BitFlip) : State :=
  let s1 := s.flipBits flips
  let cols := s1.windowCols row
  let mine := fun (g : Nat) => g / 768 == row && cols.contains (g % 768 * 4)
  let gone := s1.lostGroups mine
  let running := (s1.pgh_ 0).state == .running
  let fails := (cols.filter (fun c =>
    let p : RowPixel := (l.find? (fun p => p.col == c)).getD
      { col := c, before := pixelOf unknownWord, code := if lost.contains (groupOf row c) then 4 else 0, after := unknownWord
        boundary := false, done := false }
    let now := pixelOf (sget unknownWord s1.mem.pixels (pixelKey row c))
    (gone.contains (groupOf row c) && s1.rw.reference.isSome) || s1.readbackFails running row c p.before now p.code p.boundary)).length
  let s2 := s1.mend mine
  { s2 with scan.rbFailed := s2.scan.rbFailed + fails }

/-- A row delivered: codes latched, words and additions written back where the bank's guard accepts them, the report, the
readback (R94, R99, R135, R136, R141, R152). -/
def State.rowDelivered (s : State) (row : Nat) (i : RowInput) (lost : List Nat) : State :=
  let scanned := s.rowPixels row lost
  let codes := rowCodes row scanned (lost.filter (fun g => s.takesPart row (g % 768 * 4)))
  let zp := zeroPasses s.panel.words.zp s.panel.srcFloat s.panel.srcCodes codes
  let refused := s.refusedGroups row
  let l : List RowPixel := if refused.isEmpty then scanned else scanned.filter (fun p => !refused.contains (p.col / 4))
  let word := fun (k : Nat) (w : PixelWord) => match l.find? (fun p => p.col == k % 3072) with
    | some p => if k / 3072 = row then p.after else w
    | none => w
  let hits := l.filter (fun p => p.boundary && !s.scan.cancelAll
    && (match s.sieveAct row p.col p.before with | .cancel => true | _ => false))
  let s1 := { s.keepCodes with
    mem.pixels := smap unknownWord word s.mem.pixels, panel.srcFloat := false, panel.srcCodes := codes, panel.zeroPass := zp
    scan.lost := s.scan.lost ++ lost, mem.stale := sat32 s.mem.stale refused.length
    scan.completed := s.scan.completed + (l.filter (fun (p : RowPixel) => p.done)).length }
  let s2 := hits.foldl (fun (t : State) p => t.markCancelHit row p.col) (s1.rewritten (fun g => g / 768 == row && !refused.contains (g % 768) && s.takesPart row (g % 768 * 4)))
  let s3 := (s2.addCharge i.charge).ledgerRow row codes (fun g => !refused.contains g)
  (s3.reread row scanned lost i.lateFlips).raiseAll (if refused.isEmpty then [] else [fltStale])

/-- Reads of the row's groups: corrected ones are counted, uncorrectable ones counted, located and raised (R92, R93). While an
injected FS_DOUBLE is held every group reads so (R477). -/
def State.rowReads (s : State) (row : Nat) : State × List Nat :=
  let mine := fun (g : Nat) => g / 768 == row
  let bad := if s.held fltFsDouble then (List.range s.groupsInRow).map (fun g => row * 768 + g) else s.lostGroups mine
  (bad.foldl State.countDouble (s.countMended mine), bad)

/-- The row is missed: a code of it failed on the bridge, or had not arrived from a slot with a furrow, or a drill is fenced
(R20, R132, R143). An injected BRIDGE_PARITY that is held fails the codes' transfer (R477). -/
def State.rowMisses (s : State) (i : RowInput) : Bool :=
  i.bridgeFail == some .codes || s.held fltBridge || anyTo 14 (fun k => i.missing.getLsbD k && decide (0 < s.furrowSize k)) || s.anyFenced

/-- A row at its latch point (R19, R20, R136, R143), its locks released. -/
def State.latchRow (s : State) (row : Nat) (i : RowInput) : State :=
  let s1 := if 0 < row ∧ row % s.plotH = 0 then s.latchCharge else s
  let r := s1.rowReads row
  (if s.rowMisses i then r.1.rowMissed row else r.1.rowDelivered row i r.2).releaseRow row

/-- One row slot of the frame: blanking drives code 0 (R106), then E0's check of one heartbeat from every drill (R142); the fences
have judged what came late (R146). -/
def State.rowSlot (s : State) (i : RowInput) : State :=
  let n := s.scan.slot
  let s1 := ((s.reach (s.slotTime n)).flipBits i.flips).flipCells i.ledgerFlips
  let s2 := if n < 32 then { s1.keepCodes with panel.srcCodes := [], panel.srcFloat := false, panel.zeroPass := [] }
    else s1.latchRow (n - 32) i
  let drops := s1.dropped i.late
  let s3 := { s2 with scan.slot := n + 1, mem.brgPerr := sat32 s2.mem.brgPerr (if s1.held fltBridge then max 1 i.repeats else i.repeats), mem.stale := sat32 s2.mem.stale drops }
  let s4 := s3.checkHeartbeats n i.heartbeats
  s4.raiseAll ((if 0 < drops then [fltStale] else []) ++ (if i.bridgeFail.isSome || s1.held fltBridge then [fltBridge] else []))

/-! ### Surplus passes (R84 to R87, R149 to R151, R518) -/

/-- The scrub pass runs: the frame time exceeds 62.5 ms (R149, R151). -/
def State.scrubs (s : State) : Bool := s.scan.scanning && decide (12582912 < s.frameTime)

/-- Drill place at work in a row's bank: its owner, while it holds a slot. A fenced drill's ages and scrubs its stripe until the
boundary (DESIGN CHOICE, log 134). -/
def State.workerOf (s : State) (row : Nat) : Option Nat :=
  let o := (vget s.mem.banks (row / 16)).owner
  if 2 ≤ o ∧ s.drillIs (o - 2) .active then some (o - 2) else none

/-- Each active drill reads every in-use group of its stripe; corrected ones are counted and written back, those of rows that the
scan has locked once it releases them (R92, R151, R154, R518). -/
def State.scrubPass (s : State) : State :=
  if s.scrubs then
    let t := s.scrubRows (fun r => (s.workerOf r).isSome && !s.rowLocked r)
    { t with mem.scrubWait := (List.range s.rows).filter (fun r => s.rowLocked r && (s.workerOf r).isSome) }
  else s

/-- Time an aging pass takes drill place d: its stripe's idle pixels, one a cycle, in the share of its cycles that its furrow and a
scrub pass leave; none left, it does not end while the scan runs (R149, R150; uniform, log 99). -/
def State.passSpan (s : State) (d : Nat) : Nat :=
  let e := d + 2
  let active := (s.mem.pixels.filter (fun x => (pixelOf x.2).active && (vget s.mem.banks (x.1 / 49152)).owner == e)).length
  let idle := s.stripePixels d - active
  if ¬ s.scan.scanning then idle
  else
    let whole := s.frameTime
    let used := 4 * s.furrowSize (vget s.drills.drill d).slot * s.rows
      + (if s.scrubs then s.stripePixels d * whole / 12582912 else 0)
    if whole ≤ used then 12582913 else (idle * whole + (whole - used) - 1) / (whole - used)

/-- The drill at work in a row's bank begins this tick's pass: it has none running (R150). -/
def State.passStarts (s : State) (row : Nat) : Bool :=
  match s.workerOf row with
  | some d => decide ((vget s.drills.drill d).passTo ≤ s.now)
  | none => false

/-- The aging pass of a tick: k of R87 in the first after HOLD, R85 in the others; rows that the scan has locked are visited when it
releases them (R154). -/
def State.agePass (s : State) : State :=
  let a : AgeVisit := { rows := (List.range s.rows).filter (fun r => s.rowLocked r && s.passStarts r), tick := s.mem.tickNum
                        hold := s.mem.holdAge }
  let s1 := s.visitRows (fun r => s.passStarts r && !s.rowLocked r) a
  let s2 := { s1 with mem.holdAge := none, mem.ageWait := some a }
  s2.mapDrills (fun i d => if d.role = .active ∧ d.passTo ≤ s.now then { d with passTo := s.now + s.passSpan i } else d)

/-- An aging tick: the scrub pass in slow frames, then the aging pass, which is skipped while the directive holds it and does not
run in HOLD (R86, R87, R149, R150). A tick from the commit point of an entry to HOLD on runs none; one that falls in the return,
before the boundary at which the drills are given D, is an ordinary pass of R85 (DESIGN CHOICE, log 112). -/
def State.ageTick (s : State) : State :=
  let held := s.inHold || s.aNow == 0
  let s1 := if held then s else s.scrubPass
  let s2 := if s.pgh.deferAge || held then s1 else s1.agePass
  { s2 with mem.tickNum := s.mem.tickNum + 1 }

/-- When the next aging tick falls (R150). -/
def State.nextTickAt (s : State) : Option Nat := s.mem.tickBase.map (fun t => t + s.mem.tickNum * 12582912)

end Sys2Proof.Machine
end

