-- ==== Sys2Proof/Machine/Thermal.lean ====
section
/-! DEFINITION. The thermal loop (09_thermal_plots): the boundary's energies and steps, the conditions of R235 with grace and
enforcement, the residual checks, and the slow round's slots (with R63, R297, R326 and R398's reads). -/

namespace Sys2Proof.Machine

/-- Rewrites every plot with its number. -/
def State.mapPlots (s : State) (f : Nat → Plot → Plot) : State := { s with therm.plot := vmapIdx f s.therm.plot }

/-! ### Conditions (R235 to R238) -/

/-- EASE_BUDGET clamped to the class (R175, R235). -/
def State.easeMw (s : State) : Nat := min (easeBudget s.alm.thermal) s.budgetMw

/-- Some, or every, plot's T_P at its 1/16 °C value. -/
def State.somePlot (s : State) (q : Int → Bool) : Bool := anyTo 64 (fun p => q (plotTemp16 (vget s.therm.plot p).t))

/-- Length of the grace time: 16,384 crystal cycles for 0.5 s (R73, R236). -/
def State.graceSpan (s : State) : Nat := scanGraceMs (s.bin 9) * 16384 / 500 * cycle

/-- A graced condition after a check: entry starts its grace, its end stops it; `broke`: a sensor broke at this check (R236, R237,
R243). -/
def GracedCond.check (c : GracedCond) (now span : Nat) (enter ends broke : Bool) : GracedCond :=
  if c.inForce then (if ends then GracedCond.reset else { c with broke := c.broke || (c.graceTo.isSome && broke) })
  else if enter then { inForce := true, graceTo := some (now + span), ripe := false, enforced := false, broke := false }
  else c

/-- Grace that has ended enforces at a boundary (R236, R243). -/
def GracedCond.ripen (c : GracedCond) (now : Nat) : GracedCond :=
  if c.inForce then
    match c.graceTo with
    | some t => if t ≤ now then { c with graceTo := none, ripe := false, enforced := true } else c
    | none => if c.ripe then { c with ripe := false, enforced := true } else c
  else c

/-- Its enforcement is a change that EASE_CHANGE marks: a sensor that broke within the grace has enforced the budget already (R236,
R243). -/
def GracedCond.enforces (was now : GracedCond) : Bool := now.enforced && !was.enforced && !now.broke

/-- Budgets of the conditions that count: hot 0 mW, the others EASE_BUDGET. -/
def State.imposed (s : State) (hot other : Bool) : Option Nat := if hot then some 0 else if other then some s.easeMw else none

/-- EASE_CHANGE is set (R236, R238). -/
def State.easeChanged (s : State) : State := { (s.attnArises 1).hwSet 0x901 0x80 with therm.easeChange := true }

/-- The checks of R235, at a frame boundary or, with `atBoundary` false, at a slow round outside the scan (R243, R464): there an
enforced budget neither comes nor goes, which waits for the next boundary (R238, R479). EASE_CHANGE marks every entry, every
enforcement, and the end of the last condition (R236, R238, R243, R244). A condition still present sets a sticky bit that the host
has cleared again (R474). -/
def State.checkConditions (s : State) (atBoundary : Bool) : State :=
  let a := s.alm.thermal
  let tp := throttlePlot a
  let td := throttleDie a
  let was := s.therm
  let hot := s.injected fltPlotHot
    || (if was.hot then s.somePlot (fun t => decide (tp ≤ t)) else s.somePlot (fun t => decide (tp + 160 ≤ t)))
  let ip := s.injected fltPlotThrottle
  let id := s.injected fltDieThrottle
  let sensor := s.sensorBroken
  let dieAt := fun (q : Int → Bool) => match s.tDie with | some t => q t | none => false
  let breaks := sensor && !was.sensor
  let plotC := was.plotC.check s.now s.graceSpan (ip || s.somePlot (fun t => decide (tp ≤ t)))
    (!(ip || s.somePlot (fun t => decide (tp - 32 < t)))) breaks
  let dieC := was.dieC.check s.now s.graceSpan (id || dieAt (fun t => decide (td ≤ t)))
    (!(id || dieAt (fun t => decide (td - 32 < t)))) breaks
  let plotC' := if atBoundary then plotC.ripen s.now else plotC
  let dieC' := if atBoundary then dieC.ripen s.now else dieC
  let req := hot || sensor || plotC'.inForce || dieC'.inForce
  let budget := if atBoundary then s.imposed hot (sensor || plotC'.enforced || dieC'.enforced) else was.budget
  let entered := (hot && !was.hot) || breaks || (plotC.inForce && !was.plotC.inForce)
    || (dieC.inForce && !was.dieC.inForce)
  let enforcing := (budget.isSome && was.budget.isNone) || was.plotC.enforces plotC' || was.dieC.enforces dieC'
  let change := entered || enforcing || (was.easeReq && !req)
  let dieHot := s.dieAtLeast 2000 || s.injected fltDieHot
  let s1 := { s with
    therm.hot := hot, therm.sensor := sensor, therm.plotC := plotC', therm.dieC := dieC', therm.easeReq := req
    therm.impose := (s.imposed hot req).getD 0, therm.budget := budget, therm.enforced := budget.isSome
    flt.dieHot := dieHot || (s.flt.dieHot && s.condition fltDieHot) }
  let s2 := if change then s1.easeChanged else s1
  let s3 := s2.raiseAll ((if dieHot && !s.flt.dieHot then [fltDieHot] else []) ++ (if hot && !was.hot then [fltPlotHot] else [])
    ++ (if plotC.inForce && !was.plotC.inForce then [fltPlotThrottle] else [])
    ++ (if dieC.inForce && !was.dieC.inForce then [fltDieThrottle] else []))
  (((s3.redetect fltDieHot dieHot).redetect fltPlotHot hot).redetect fltPlotThrottle plotC.inForce).redetect fltDieThrottle
    dieC.inForce

/-! ### The boundary (R219, R220, R228 to R233, R239 to R242) -/

/-- pJ held in a plot by the units that held commitments during the frame (R239). -/
def State.plotCeiling (s : State) (q : Nat) : Nat :=
  s.pgh.tab.foldl (fun n x => x.2.units.foldl (fun n u =>
    if u.complete then n else u.ceiling.foldl (fun n c => if c.1 = q then n + c.2 else n) n) n) 0

/-- r_P is above 0. -/
def residualOver (e ceil : Nat) : Bool := decide (105 * ceil + 400000000 < 100000 * e)

/-- The residual checks are blanked: a rail drop runs, or ended less than 1 ms ago (R242). -/
def State.dropBlank (s : State) : Bool := (decide (2 ≤ s.seq.railStep) && !s.seq.rising) || decide (s.now < s.seq.gateBlankTo)

/-- Checks of R239 and R241 for the frame that ended. Past 8 frames a plot's THERM_RESIDUAL is set again in each, and PLOT shows the
highest-numbered of several (DESIGN CHOICE, log 135); the boundary that starts the scan, with no frame behind it, makes no check and
breaks no run (DESIGN CHOICE, log 136). -/
def State.residualChecks (s : State) : State :=
  if s.scan.firstFrame || s.dropBlank then s
  else
    let up := fun p (x : Plot) => if residualOver x.e (s.plotCeiling p) || (p == 0 && s.injected fltResidual) then x.overN + 1 else 0
    let s1 := s.mapPlots (fun p x => { x with overN := up p x })
    let any := anyTo 64 (fun p => decide (0 < (vget s1.therm.plot p).overN))
    let late := (List.range 64).filter (fun p => decide (8 ≤ (vget s1.therm.plot p).overN))
    let over' := if s.pgh.budget < 1000 * s.therm.eTot ∨ s.injected fltOverrun then s.therm.overrun + 1 else 0
    let s2 := { s1 with therm.residCount := if any then sat16 s.therm.residCount 1 else s.therm.residCount
                        therm.residPlot := (late.getLast?).getD s.therm.residPlot, therm.overrun := over' }
    s2.raiseAll ((if late.isEmpty then [] else [fltResidual]) ++ (if 16 ≤ over' then [fltOverrun] else []))

/-- The published bands into slot F mod 256 of the log (R167, R232). -/
def State.logBands (s : State) : State :=
  let base := s.scan.frame.toNat % 256 * 64
  let keys := (List.range 64).map (fun p => base + p)
  { s with alm.bandLog := sapply 11 (fun k _ => BitVec.ofNat 4 (vget s.therm.plot (k - base)).pub) s.alm.bandLog keys }

/-- Energies of the frame that ended, shown and kept for R240 (R219, R220). -/
def State.frameEnergy (s : State) : State :=
  let s1 := s.latchCharge.formEnergy
  let keep := s1.therm.drive.filter (fun d => decide (s.now < d.1 + 64 * sclkHz))
  { s1 with panel.qLast := s1.panel.qPlot, panel.qPlot := Vector.replicate 64 (Vector.replicate 6 0)
            therm.drive := if s.scan.firstFrame then keep else keep ++ [(s.now, s1.therm.eTot, s.frameTime)] }

/-- A_P becomes T_P and the bands are found from band 11 (R229). -/
def State.startModel (s : State) : State :=
  State.findBands (State.mapPlots { s with therm.started := true } (fun p x => { x with t := s.ambient p, band := 11 }))

/-- E0's work at a boundary: the tables of a commit one boundary after D, the step over the frame that ended, bands, conditions
(R28, R229 to R236). `h` is that frame's time; at a start of the scan, which no frame precedes, that of the last frame before the
stop (DESIGN CHOICE, log 115). -/
def State.thermStep (s : State) (h : Nat) : State :=
  let s1 := if s.alm.thermalDue then { s with alm.thermal := s.alm.image, alm.thermalDue := false } else s
  if s1.therm.started then
    State.checkConditions (s1.stepPlots h (fun p => (vget s1.therm.plot p).e)).findBands true
  else if 1 ≤ s1.therm.rounds then s1.startModel.checkConditions true
  else s1

/-- The working budget that counts from this boundary (R234). -/
def State.takeBudget (s : State) : State :=
  let s1 := { s with therm.wbudNow := s.therm.ctl.toNat % 65536 }
  { s1 with therm.w := s1.workingBudget }

/-- The thermal steps of a boundary that a frame follows: its bands go into the log. -/
def State.thermBoundary (s : State) (h : Nat) : State := (s.thermStep h).logBands.takeBudget

/-! ### The slow round (R221 to R226, R240, R297) -/

/-- A thermistor after a reading (R223, R226). -/
def ntcStep (a : Alm) (n : Ntc) (code : Nat) : Ntc :=
  let t := ntcTemp code (ntcRnom a) (ntcBeta a)
  let st := match ntcClass code, n.st with
    | .good, .good => NtcSt.good
    | .good, .awaiting => .good
    | .good, _ => .awaiting
    | c, _ => c
  { code := code, temp := t, st := st }

/-- A diode after a reading (R225, R226). -/
def diodeStep (d : Diode) (t : Int) : Diode :=
  if diodeBad t then { temp := t, seen := true, bad := true, half := false }
  else if d.bad && !d.half then { temp := t, seen := true, bad := true, half := true }
  else { temp := t, seen := true, bad := false, half := false }

/-- Attenuation of slots 10 to 31 (R326). -/
def slotAtten (n : Nat) : Nat :=
  [20, 4, 10, 10, 4, 4, 10, 10, 20, 20, 1, 1, 1, 1, 1, 1, 4, 4, 2, 2, 4, 1].getD (n - 10) 1

/-- Largest whole mV of a slot's reading: the converter's full scale of 2.0475 V before its attenuator (R326, R504). -/
def slotScale (n : Nat) : Nat := slotAtten n * 20475 / 10

/-- One slot's reading taken by E0 (R221, R226, R326). -/
def State.takeReading (s : State) (n : Nat) (x : Int) : State :=
  if n < 4 then
    let o := vget s.therm.ntc n
    let y := ntcStep s.alm.thermal o (min x.toNat 65520)
    let s1 := { s with therm.ntc := vset s.therm.ntc n y }
    if o.st == .good && !(y.st == .good) then s1.raise fltNtc else s1.redetect fltNtc (!(ntcClass y.code == .good))
  else if n < 10 then
    let o := vget s.therm.diode (n - 4)
    let y := diodeStep o x
    let s1 := { s with therm.diode := vset s.therm.diode (n - 4) y }
    let s2 := { s1 with therm.lastDie := match s1.tDie with | some t => some t | none => s1.therm.lastDie }
    let s3 := if y.bad && !o.bad then s2.raise fltDiode else s2.redetect fltDiode (diodeBad x)
    s3.tryReactUp
  else
    let v := clampI (-(slotScale n : Int)) (slotScale n) x
    let y := if n = 24 then roundFree 8 (v * s.tree.ratio) 256 else v
    let s1 := { s with tree.meas := vset s.tree.meas (n - 10) y }
    if n = 31 ∧ (v < -4 ∨ 4 < v) then s1.raise fltAdcZero else s1

/-- The rise per watt of a slow round (R240): not formed while no diode, or no thermistor, is good. -/
def State.riseCheck (s : State) : State :=
  match s.tDie with
  | none => s
  | some d =>
    if s.ntcCount = 0 then s
    else
      let r := s.riseRatio d
      let hi := decide (20 * (r.2 : Int) < r.1)
      let (i, s0) := s.draw
      let shown := if r.1 < 0 then Config.freeNat i % 65536 else min 65535 (roundFree 6 (10 * r.1) r.2).toNat
      let run := if s.therm.roundBlank then s.therm.bondRun
        else if (hi && s.driveHalfWatt) || s.injected fltBond then s.therm.bondRun + 1 else 0
      let s1 := { s0 with therm.rise := shown, therm.bond := hi, therm.bondRun := run }
      if !s.therm.roundBlank && decide (4 ≤ run) then s1.raise fltBond else s1

/-- One step of 50 µV towards c (R297). -/
def State.refStep (s : State) : State :=
  match s.tDie with
  | none => s
  | some t =>
    let c := roundNear 7 (Config.curv s.otp.trims * (t - 432) * (t - 432)) 12800
    let a := s.clock.applied
    { s with clock.target := c, clock.applied := if a < c then a + 1 else if c < a then a - 1 else a }

/-- A triplicated register field read: copies that differ are rewritten, counted and reported (R398). -/
def State.voteField (s : State) (bad addr : Nat) : State :=
  if bad = 0 then s
  else State.raise { s with acc.voteCnt := sat16 s.acc.voteCnt bad, acc.voteAddr := addr } fltRegVote

def Trip.mend {w : Nat} (t : Trip w) : Trip w := Trip.all t.maj

/-- Addresses of the triplicated registers other than the straps (R328, R346, R412). -/
def addrRailSet : Nat := 0x0D00
def addrSeqStat : Nat := 0x0E00
def addrLcStat : Nat := 0x0231

def State.voteRailSet (s : State) : State :=
  State.voteField { s with tree.railSet := s.tree.railSet.mend } s.tree.railSet.bad addrRailSet
def State.voteSeqPlan (s : State) : State :=
  State.voteField { s with seq.plan := s.seq.plan.mend } s.seq.plan.bad addrSeqStat
def State.voteLc (s : State) : State := State.voteField { s with otp.lc := s.otp.lc.mend } s.otp.lc.bad addrLcStat

/-- The comparison of the strap copies (R63), which an injected STRAP_VOTE meets (R477). -/
def State.voteStraps (s : State) : State :=
  let n := max s.strapVotes (if s.injected fltStrapVote then 1 else 0)
  if n = 0 then s
  else State.raise { s with strap.bins := vmapIdx (fun _ (t : Trip 4) => t.mend) s.strap.bins
                            strap.votes := sat16 s.strap.votes n } fltStrapVote

/-- Disturbances of copies since the last slot. -/
def State.upset (s : State) (u : Upset) : State :=
  match u.field with
  | .strap k => { s with strap.bins := vmod s.strap.bins k.val (fun t => t.flip u.copy.val u.flip) }
  | .railSet => { s with tree.railSet := s.tree.railSet.flip u.copy.val u.flip }
  | .seqPlan => { s with seq.plan := s.seq.plan.flip u.copy.val u.flip }
  | .lcState => { s with otp.lc := s.otp.lc.flip u.copy.val (u.flip.setWidth 2) }

/-- The triplicated register fields are read: by the hardware that uses them in every cycle, so that a disturbance is found in the
cycle after it, and by E0 in each slow round (R14, R398; DEDUCED, log 113). An injected REG_VOTE is met there, at a field that is
not stated (R477; log 77). The straps have their own comparison (R63). -/
def State.readTrips (s : State) : State :=
  (s.voteRailSet.voteSeqPlan.voteLc).voteField (if s.injected fltRegVote then 1 else 0)
    ([addrRailSet, addrSeqStat, addrLcStat].getD (Config.freeNat s.free % 3) addrRailSet)

/-- The front-light power of R325, in µW × 4,096, from the last reading of VLED. -/
def State.lightProduct (s : State) : Nat :=
  (vget s.tree.meas 14).toNat * sumTo (ledUsed (s.bin 7)) (fun n =>
    let l := vget s.tree.led n
    (if l.cur = 0 then 0 else max 10 l.cur) * l.dim)

/-- The factor of R325 formed; RATIO 0 disables it. -/
def State.formPower (s : State) : State :=
  let p := s.lightProduct
  if s.tree.ratio ≠ 0 ∧ 8000000 * 4096 < p then
    { s with tree.pclamp := true, tree.power := p, tree.scale := (roundFree 9 (8000000 * 4096 * 32768) p).toNat }
  else { s with tree.pclamp := false, tree.power := 0, tree.scale := 0x8000 }

/-- The end of a slow round: its checks, and outside the scan the step with no drive (R229, R464). -/
def State.roundEnd (s : State) : State :=
  let s1 := ({ s with therm.rounds := s.therm.rounds + 1 }.voteStraps.readTrips).refStep.riseCheck
  let s2 := { s1 with therm.roundBlank := false }.formPower
  if !s2.scan.scanning && s2.therm.started then
    State.checkConditions (s2.stepPlots 12877824 (fun _ => 0)) false
  else s2

/-- The reading a slot delivers: an injected condition puts a value of its kind, not stated further, in its place (R477,
R478). -/
def State.slotReading (s : State) (n : Nat) (x : Int) : Int :=
  let f := Config.freeNat s.free
  if n = 0 ∧ s.injected fltNtc then 64800 + (f % 721 : Nat)
  else if n = 4 ∧ s.injected fltDiode then 2401 + (f % 1695 : Nat)
  else if n = 31 ∧ s.injected fltAdcZero then 5 + (f % 1000 : Nat)
  else x

/-- End of the four conversions: the first whole periods of the ADC's free-running grid, on which the slots of the slow round
lie, from 16,384 SCLK after the boundary (R123, R222). -/
def State.headlandTime (s : State) : Nat :=
  let o := s.therm.slotAt % 1024
  (s.scan.boundaryAt + 16384 + 1023 - o) / 1024 * 1024 + o + 4096

/-- The frame's headland measurement, if one is due, and the periods it will take (R123, R222). -/
def State.headlandBegin (s : State) : State :=
  { s with panel.hlNow := s.headlandDue
           panel.hlFrom := if s.headlandDue.isSome then some (s.headlandTime - 4096) else s.panel.hlFrom }

/-- Conversion periods of the slot in progress that a headland measurement takes before the slot's 256th conversion (R222). -/
def State.slotLoses (s : State) : Nat :=
  match s.panel.hlFrom with
  | some h => (List.range 4).foldl (fun a j =>
      let p := h + 1024 * j
      if s.therm.slotAt + 98304 ≤ p ∧ p < s.therm.slotAt + 360448 + 1024 * a then a + 1 else a) 0
  | none => 0

/-- The 256th conversion of the slot in progress ends (R221, R222). -/
def State.slotRead (s : State) : Nat := s.therm.slotAt + 360448 + 1024 * s.slotLoses

/-- The reading of a slot of the slow round, as its 256th conversion ends; the next slot begins 402,432 SCLK after it began, on the
converter's own grid. After the last slot's time the round is complete (R221, R222; log 128). -/
def State.slotEnd (s : State) (i : SlotInput) : State :=
  if s.therm.slowOn && s.clock.pllLock then
    let s1 := s.reach s.slotRead
    let s2 := i.upsets.foldl (fun (t : State) u => (t.upset u).readTrips) s1
    let n := s.therm.slot
    let s3 := State.takeReading { s2 with free := s2.free + 1 } n (s2.slotReading n i.reading)
    let s4 := { s3 with therm.slot := (n + 1) % 32, therm.slotAt := s.therm.slotAt + 402432, tree.boostOv := i.boostOv }
    if n = 31 then (s4.reach s4.therm.slotAt).roundEnd else s4
  else s

/-- The grace time of a condition ends: it enforces from the next boundary (R236). -/
def GracedCond.endGrace (c : GracedCond) : GracedCond :=
  if c.inForce && c.graceTo.isSome then { c with graceTo := none, ripe := true } else c

end Sys2Proof.Machine
end

