-- ==== Sys2Proof/Machine/Sched.lean ====
section
/-! DEFINITION. The scheduler (08_pigeonholes, R202, R205, R209 to R216, R251): eligibility, rank, intake, load and the
start set of a frame. -/

namespace Sys2Proof.Machine

/-- The scan and the almanac let a unit start (R185, R202, R258): no final delivery, and in Sealed or Stubble a window. -/
def State.hostMayStart (s : State) : Bool :=
  s.scan.scanning && !s.alm.drainOn && s.rtc.deliveryAt.isNone && (s.rw.present || decide (s.lcNow < 2))

/-- No cancel window overlaps a rectangle, and no cancel that waits for one (R202, R204). -/
def State.cancelFree (s : State) (r : Rect) : Bool :=
  !(s.pgh.sieve.toList.any (fun w => match w with | some x => x.cancel && x.rect.overlaps r | none => false))
    && !(s.pgh.tab.any (fun x => x.2.cancelWaits && x.2.startedRect.overlaps r))

/-- A letter was accepted at least 1 SCLK before the frame's start set is fixed (R197, R217). -/
def State.acceptedBefore (s : State) (p : Pgh) : Bool := decide (p.acceptedAt < s.scan.boundaryAt + 10240)

/-- A host unit is eligible over the rectangle r: the whole of its pigeonhole, or the next band of a split one (R202, R206). -/
def State.eligibleUnit (s : State) (n : Nat) (p : Pgh) (r : Rect) : Bool :=
  isHost n && s.acceptedBefore p && p.waiting && !p.doneDue && !p.rect.isEmpty && s.hostMayStart && s.cancelFree r
    && !(s.pgh.tab.any (fun x => x.1 != n && x.1 != 0 && x.2.rect.overlaps r
          && ((x.2.waiting && olderTicket x.2.ticket p.ticket)
              || ((!p.preempt || p.restate) && (x.2.going && (isHost x.1 || x.2.state == .running))))))
    && (!p.preempt || p.restate || s.freeWindow.isSome || (s.ownWindow n false).isSome)

/-- A pigeonhole's next unit is eligible; E gives the height of a band. What it may overlap is judged on the unit, of other
pigeonholes on their whole rectangles (R202, R211; log 119). -/
def State.eligibleHost (s : State) (e : Int) (n : Nat) (p : Pgh) : Bool := s.eligibleUnit n p (s.nextRect n p e)

/-- A hidden unit is eligible (R251); none once an entry to DORMANT is accepted (R354). -/
def State.eligibleHidden (s : State) (n : Nat) (p : Pgh) : Bool :=
  let r := p.rect
  isHidden n && p.state == .pending && s.hostMayStart && !s.pgh.deferLdg && !(s.pwr.st == .enterDormant) && s.cancelFree r
    && !(s.pgh.tab.any (fun x => x.1 != n && x.1 != 0 && x.2.going && x.2.rect.overlaps r))

/-- Effective priority (R210). -/
def Pgh.effective (p : Pgh) : Nat := min 3 (p.prio.val + p.waited / 16)

/-- Rank order: host units by effective priority, then ticket; hidden units after them by ticket (R210). -/
def ranksBefore (a b : Nat × Pgh) : Bool :=
  let old := a.2.ticket = b.2.ticket || olderTicket a.2.ticket b.2.ticket
  if isHidden a.1 = isHidden b.1 then
    (if isHidden a.1 then old
     else decide (b.2.effective < a.2.effective) || (decide (a.2.effective = b.2.effective) && old))
  else isHidden b.1

/-- The walk of R212: headroom, commitments, energy started, the units started, and whether it has returned. -/
structure Walk where
  st : State
  h : Int
  c : Nat
  used : Nat
  started : List Nat
  ended : Bool

/-- One unit of the walk; E is passed for the height of a band. A PREEMPT unit whose last free window an earlier start of the walk
took is passed over, and has waited this set (DESIGN CHOICE, log 120). -/
def Walk.visit (e a : Int) (w : Walk) (n : Nat) : Walk :=
  let p := w.st.pgh_ n
  let r := w.st.nextRect n p e
  let f := w.st.forecast n p r
  let noRoom := p.preempt && w.st.freeWindow.isNone && (w.st.ownWindow n false).isNone
  if w.ended then w
  else if a ≤ w.used then { w with ended := true }
  else if noRoom then w
  else if (f : Int) ≤ w.h ∨ (w.c = 0 ∧ w.used = 0) then
    { st := w.st.startUnit n r, h := w.h - f, c := w.c + f, used := w.used + f, started := n :: w.started, ended := false }
  else if 48 ≤ p.waited then { w with ended := true }
  else w

/-- Load in 0.1 % units (R212, R213). -/
def loadOf (c p : Nat) (e : Int) : Nat := if e ≤ 0 then 4095 else min 4095 ((c + p) * 1000 / e.toNat)

/-- The directive's holds, with the levels at which they end (R214). -/
def State.holds (s : State) (load : Nat) : State :=
  { s with pgh.load := load, pgh.overload := decide (999 < load)
           pgh.deferLdg := if s.pgh.deferLdg then decide (850 < load) else decide (900 < load)
           pgh.deferAge := if s.pgh.deferAge then decide (900 < load) else decide (950 < load) }

/-- Restate units that are eligible start at once; empty rectangles are due to be DONE (R193, R195, R205). -/
def State.startFree (s : State) : State :=
  let s1 := s.mapPgh (fun n p => if isHost n ∧ s.acceptedBefore p ∧ p.state = .pending ∧ p.rect.isEmpty then { p with doneDue := true } else p)
  (s1.pghWhere (fun n p => p.restate && s1.eligibleUnit n p p.rect)).foldl (fun (t : State) n =>
    if t.eligibleUnit n (t.pgh_ n) (t.pgh_ n).rect then t.startUnit n (t.pgh_ n).rect else t) s1

/-- Pigeonhole 0 starts at the first start set at which it is eligible (R209, R278). -/
def State.startSetZero (s : State) : State :=
  if (s.pgh_ 0).state = .pending ∧ s.scan.scanning ∧ ¬ s.alm.drainOn then s.startZero else s

/-- E of R209 after pigeonhole 0. -/
def State.openEnergy (s : State) (b : Nat) : Int :=
  let r := b / 10
  (b : Int) - r - ((s.pgh_ 0).commitment - r : Nat)

/-- Units that were eligible and have not started wait one set more (R202, R212). -/
def State.ageWaiting (s : State) (l : List Nat) : State :=
  l.foldl (fun (t : State) n => t.modPgh n (fun p => { p with waited := min 127 (p.waited + 1) })) s

/-- The start set of a frame (R212 to R216). -/
def State.fixStarts (s : State) : State :=
  let s1 := s.startSetZero
  let b := s1.frameBudget s1.workingBudget
  let e := s1.openEnergy b
  let s2 := State.startFree (State.withdrawDue { s1 with pgh.budget := b })
  let cand := s2.pghWhere (fun n p => !p.restate && s2.eligibleHost e n p)
  -- a unit that exceeds E is split (R211), and every eligible host unit's latency counts this set (R213)
  let s3 := cand.foldl (fun (t : State) n => t.modPgh n (fun p =>
    { p with since := p.since + 1
             split := p.split || (p.state == .pending && decide (e < (t.forecast n p p.rect : Int))) })) s2
  let c := s3.committed
  let p := cand.foldl (fun x n => x + s3.forecast n (s3.pgh_ n) (s3.nextRect n (s3.pgh_ n) e)) 0
  let waitingHosts := (s3.pghWhere (fun n p => isHost n && p.waiting)).length
  let s4 := State.holds { s3 with pgh.loadPending := waitingHosts } (loadOf c p e)
  let hidden := s4.pghWhere (fun n p => s4.eligibleHidden n p)
  let order := (((cand ++ hidden).map (fun n => (n, s4.pgh_ n))).mergeSort ranksBefore).map Prod.fst
  let h := e - c
  let a := max (tdiv (e * 7) 10 - c) (tdiv h 3)
  let w := order.foldl (Walk.visit e a) { st := s4, h := h, c := c, used := 0, started := [], ended := false }
  let s5 := w.st.ageWaiting ((cand ++ hidden).filter (fun n => !w.started.contains n))
  let s6 := s5.mapPgh (fun n p => if isHidden n ∧ p.state = .pending then { p with age := p.age + 1 } else p)
  { s6 with pgh.eavail := (e / 1000000).toNat, pgh.commit := w.c / 1000000, scan.startSetDone := true }

/-- The start writer walks the started rectangles row by row (R25), so `FS_DED_LOC` ends on the last row's uncorrectable group,
whichever unit it lies in; `before` are those there were. Within a row it takes the last group (log 110). -/
def State.lastDouble (s : State) (before : List Nat) : State :=
  match (before.filter (fun g => !(s.mem.flips.map Prod.fst).contains g)).getLast? with
  | some g => { s with mem.dedLoc := some (g / 768, g % 768) }
  | none => s

/-- START_SET at 10,240 SCLK after the boundary: start set, then the drills' sweeps (R28, R149, R212, R246). -/
def State.startSet (s : State) (i : StartInput) : State :=
  if s.scan.scanning ∧ ¬ s.scan.startSetDone ∧ s.scan.slot ≤ 32 then
    let s1 := ((s.reach (s.scan.boundaryAt + 10240)).flipBits i.flips).flipCells i.ledgerFlips
    (((s1.fixStarts).lastDouble (s1.lostGroups (fun _ => true))).settleKept).sweepAll
  else s

end Sys2Proof.Machine
end

