-- ==== Sys2Proof/Machine/Boundary.lean ====
section
/-! DEFINITION. The frame boundary (R28) and what meets there: the end of a frame, the orderly stop and start (R130), changes
of row time (R353), field trims (R119, R309), the almanac's drain (R185), the end of a return and of a recovery. -/

namespace Sys2Proof.Machine

/-- The sequencer is idle: no rail-up, rail-down or plan step in progress (R344, R349). -/
def State.seqIdle (s : State) : Bool := s.seq.railStep == 0 && s.seq.run == .none

/-- A posted or guarded write to the power-tree or sequencing blocks is in flight, or a write is held by TRANSIT (R349, R405). -/
def State.postedPower (s : State) : Bool :=
  let power := fun (b : Nat) => b == 13 || b == 14
  s.acc.posted.any (fun p => power p.block.val) || s.acc.guarded.any (fun g => power (g.reg / 256 % 16))
    || s.link.serving.any (fun v => v.held)

/-- All row slots of the frame have passed: a boundary falls due. -/
def State.frameOver (s : State) : Bool := s.scan.scanning && decide (s.frameRows ≤ s.scan.slot)

/-- The pigeonhole wait of R354 is over. -/
def State.pghWaitOver (s : State) : Bool :=
  !(s.pgh.tab.any (fun x => isHidden x.1 && x.2.state == .running)) && !((s.pgh_ 0).state == .pending)
    && !((s.pgh_ 0).state == .running) && !s.drawPending

/-- A frame boundary falls due: a frame has ended, or the scan is to start. -/
def State.boundaryDue (s : State) : Bool := s.frameOver || (!s.scan.scanning && s.scan.startDue.isSome)

/-- This boundary is the commit point of an entry to HOLD or DORMANT (R349, R354). -/
def State.commitDue (s : State) : Bool :=
  !s.pwr.committed && s.seqIdle &&
    ((s.pwr.st == .enterHold && !s.postedPower && s.boundaryDue)
      || (s.pwr.st == .enterDormant
            && (if s.pwr.noWait then s.boundaryDue || !s.scan.scanning else s.boundaryDue && s.pghWaitOver)))

/-- A rail trim that a boundary now takes: one that landed in an earlier cycle (R327). -/
def State.trimTaken (s : State) (k : Nat) : Int :=
  if vget s.tree.trimAt k < s.now then vget s.tree.trim k else vget s.tree.trimWas k

/-- Field trims of raised rails take effect in one step, their detectors blanked for 1.06 ms (R309, R340). -/
def State.applyTrims (s : State) : State :=
  let ch := fun (k : Nat) => s.enabled k && !(vget s.tree.trimNow k == s.trimTaken k)
  let t := fun (k : Nat) (x : Nat) => if ch k then s.now + usToSclk 1060 else x
  { s with tree.trimNow := vmapIdx (fun k x => if ch k then s.trimTaken k else x) s.tree.trimNow
           seq.blankTo := vmapIdx t s.seq.blankTo, seq.blankOv := vmapIdx t s.seq.blankOv }

/-- No row of the last frame was missed and no pixel is left ACTIVE (R185). -/
def State.frameClean (s : State) : Bool := s.scan.missed.isEmpty && !(s.mem.pixels.any (fun x => (pixelOf x.2).active))

/-- The end of a frame at time zero of the boundary: energies, residual checks, completion, pigeonhole 0, readback, hidden
units (R28, R207, R219, R239, R250, R281). A start of the scan has no frame behind it; the groups lost in a frame that stopped
before its boundary mark their units there (R93; DEDUCED, log 122). -/
def State.endFrame (s : State) : State :=
  let s1 := s.frameEnergy.residualChecks
  if s.scan.firstFrame then { s1.markLost with scan.lost := [] }
  else
    let s2 := s1.complete
    let s3 := if (s1.pgh_ 0).state = .running ∧ (s2.pgh_ 0).state = .done then s2.zeroDone else s2
    let s4 := { s3 with scan.cleanLast := s.frameClean, scan.cancelAll := false, scan.lost := [] }
    s4.readbackBoundary.fillAll

/-- E0's thermal work at a boundary at which the scan stops (R28, R130, R233, R235): no bands are logged for a frame that does not
come. -/
def State.stopStep (s : State) : State := (s.thermStep s.frameTime).takeBudget

/-- Time zero of a boundary, once the frame behind it has ended and before another begins: field trims and the drills' steps (R144
to R148, R155, R157). The frame's charge is priced at the trims it was drawn under (R219; DEDUCED, log 115). -/
def State.betweenFrames (s : State) : State :=
  let s1 := s.freeGrids.endFrame.applyTrims
  State.drillBoundary { s1 with scan.scanning := false, scan.startDue := some s1.now }

/-- An orderly stop at time zero of a boundary (R130). -/
def State.orderlyStop (s : State) : State := s.betweenFrames.stopStep.stopScan

/-- Row time of the frame to come, after a change between RUN and slow scan (R127, R158, R353). -/
def State.changeRate (s : State) : State :=
  match s.pwr.change with
  | some slow =>
    if s.seqIdle then
      { s with pwr.change := none, pwr.st := if slow then .slow else .run, scan.slow := slow }
    else s
  | none => s

/-- The return from HOLD ends at the first boundary: its length, the drills' k, the state (R87, R352). -/
def State.endReturn (s : State) : State :=
  if s.pwr.st = .ret then
    let d := s.now - s.pwr.holdFrom.getD s.now
    let k : Fin 4 := if 3600 * sclkHz ≤ d then 3 else if 60 * sclkHz ≤ d then 2 else if sclkHz ≤ d then 1 else 0
    State.markState
      { s with pwr.st := if s.pwr.retSlow then .slow else .run, pwr.holdFrom := none
               pwr.holdT := min 0xFFFFFFFF (d / (2048 * cycle)), scan.slow := s.pwr.retSlow
               mem.holdAge := some (match s.mem.holdAge with | some j => max j k | none => k) }
  else s

/-- Draining of an almanac load begins at the first boundary after acceptance, and its frames are counted; after an ABORT
starts resume at the boundary (R185, R187). -/
def State.drainBoundary (s : State) : State :=
  if s.alm.load = .draining then
    if s.alm.copyAt.isNone ∧ s.alm.since ≤ s.now then
      { s with alm.drainOn := true, alm.drainFrames := min 511 (s.alm.drainFrames + 1) }
    else s
  else { s with alm.drainOn := false }

/-- A reaction's rail-up has led to its first boundary (R469). -/
def State.reactBoundary (s : State) : State :=
  match s.flt.react with
  | some r => if r.stage = .railUp then { s with flt.react := some { r with stage := .frame, at_ := s.now } } else s
  | none => s

/-- Row time of the words in force for RUN or slow scan; slow scan under words that forbid it runs at ROW_T (R127, R158;
log 27). -/
def State.rowTimeNow (s : State) : Nat :=
  if s.scan.slow ∧ s.panel.words.slowRowT ≠ 0 then s.panel.words.slowRowT else s.panel.words.rowT

/-- Timing words that waited for a boundary (R103). -/
def State.takeWords (s : State) : State :=
  if s.alm.wordsDue then { s with panel.words := timingOf s.alm.image s.frameRows, alm.wordsDue := false } else s

/-- The next frame begins (R129, R130). -/
def State.beginFrame (s : State) : State :=
  let f := if s.scan.fresh then s.scan.frame else s.scan.frame + 1
  { s with scan.scanning := true, scan.startDue := none, scan.rowT := s.rowTimeNow, scan.frame := f, scan.fresh := false, scan.boundaryAt := s.now
           scan.slot := 0, scan.startSetDone := false, scan.firstFrame := false, scan.missed := []
           scan.completed := 0, scan.rbFailed := 0, mem.satNow := false, panel.qRun := Vector.replicate 8 (Vector.replicate 6 0)
           seq.phase := if s.seq.phase = .delivery then .delivery else .up }

/-- A row time in force that the drills in service no longer meet, where the one before it was met (R138). -/
def State.checkSpan (s t : State) : State := if t.shortFor t.aNow && !s.shortFor s.aNow then t.raiseShortfall else t

/-- Steps of a boundary that a frame follows (R28). A stop that a step here brings comes between two frames. -/
def State.nextFrame (s : State) : State :=
  let h := s.frameTime
  let s2 := s.betweenFrames
  if s2.scan.startDue.isNone then s2.stopStep
  else
    let s3 := s2.takeWords.changeRate.endReturn.beginFrame
    let s4 := s3.vcomBoundary.thermBoundary h
    if !s4.scan.scanning then s4
    else
      let s5 := s4.drainBoundary.reactBoundary
      let s6 := { s5.headlandBegin with rw.boundarySeen := true }
      s2.checkSpan s6.firstRender

/-- The drawing of a final delivery has ended at this boundary, or its time (R438, R439). -/
def State.deliveryOver (s : State) : Bool :=
  match s.rtc.deliveryAt with
  | some t => !s.rtc.deliveryDone
      && (decide (t + 49152 * cycle ≤ s.now)
          || ((s.pgh_ 0).state == .done && s.rw.statusShown == .poff && !s.drawPending))
  | none => false

/-- Rail-down of a final delivery begins (R438). -/
def State.deliveryDown (s : State) : State := State.beginRailDown { s with rtc.deliveryDone := true } .delivery

/-- The scan stops at this boundary for a reaction of HOLD that waited for it (R463); a step of the boundary may have gone further.
-/
def State.reactionStop (s : State) : State :=
  let t := s.orderlyStop
  match t.flt.react with
  | some q =>
    if q.stage = .waitBoundary then
      State.beginRailDown { t with flt.react := some { q with stage := .railDown, at_ := t.now } } .reaction
    else t
  | none => t

/-- A boundary within a final delivery (R438, R439). -/
def State.deliveryBoundary (s : State) : State :=
  let t := s.orderlyStop
  if t.deliveryOver then t.deliveryDown else s.nextFrame

/-- A frame boundary (R28, R130). -/
def State.boundary (s : State) : State :=
  if s.frameOver then
    let s1 := s.reach (s.slotTime s.frameRows)
    if s1.commitDue then s
    else
      match s1.flt.react with
      | some r => if r.stage = .waitBoundary then s1.reactionStop else s1.nextFrame
      | none => if s1.rtc.deliveryAt.isSome then s1.deliveryBoundary else s1.nextFrame
  else
    match s.scan.startDue with
    | some t => if s.scan.scanning || s.commitDue then s else (s.reach t).nextFrame
    | none => s

end Sys2Proof.Machine
end

