-- ==== Sys2Proof/Machine/Supply.lean ====
section
/-! DEFINITION. The steps of the rails and their supervisors, the plan's steps, the auxiliary rails and the front light
(13_power_tree, 14_sequencing_and_supervision), and headland readings (05_panel_outputs). -/

namespace Sys2Proof.Machine

/-! ### Rail-up and rail-down (R330, R331) -/

/-- `SUP_FIRST` takes the first supervisor event after each clear (R338, R346). -/
def State.supFirst (s : State) (source kind : Nat) : State :=
  match s.seq.first with
  | some _ => s
  | none => { s.hwSet 0xE03 0x80000000 with seq.first := some { source := source, kind := kind, frame := s.scan.frame.toNat % 65536 } }

/-- A rail rises: steps 1 to 8 of a rail-up. -/
def State.railRising (s : State) : Bool := s.seq.rising && decide (1 ≤ s.seq.railStep) && decide (s.seq.railStep ≤ 8)

/-- A rail falls: steps 2 to 9 of a rail-down, VGL not held. -/
def State.railFalling (s : State) : Bool := !s.seq.rising && decide (2 ≤ s.seq.railStep) && !s.seq.vglHold

/-- The rising rail is power-good, and the next step begins (R305, R330); none after a step that a write of the rail-enable word
alone asked for (R334). -/
def State.railGood (s : State) : State :=
  if s.railRising then
    let k := s.seq.railStep
    let s1 := s.reach (s.seq.railAt + usToSclk 1000)
    let s2 := { s1 with tree.pg := setBit s1.tree.pg (upRail k) true }
    if s2.seq.lone then s2.loneEnd else s2.nextUp k
  else s

/-- No power-good within 5.0 ms: rail-up stops at the step (R330). -/
def State.pgTimeout (s : State) : State :=
  if s.railRising then
    let k := s.seq.railStep
    let s1 := s.reach (s.seq.railAt + usToSclk 5000)
    let s2 := (s1.supFirst (upRail k) 3).raise fltRailPg
    if s2.railRising then s2.beginRailDown .nothing else s2
  else s

/-- The falling rail reads below 1 V; with VGL held, the source rails now do (R331). -/
def State.discharged (s : State) : State :=
  if s.seq.vglHold then State.startDrop { s with seq.stuckRails := s.seq.stuckRails &&& 0xC0 } 9
  else if s.railFalling then s.endDrop false
  else s

/-- Limits of a discharge and of VGL's hold, in crystal cycles when the hedge times them (R331, R342). -/
def State.dischLimit (s : State) : Nat := if s.hedgeTimes then 656 * cycle else usToSclk 20000
def State.holdLimit (s : State) : Nat := if s.hedgeTimes then 3277 * cycle else usToSclk 100000

/-- The step's 20 ms run out: it counts as ended (R331). -/
def State.dischOver (s : State) : State :=
  if s.railFalling then
    let s1 := s.reach (s.seq.railAt + s.dischLimit)
    let s2 := State.raise { s1 with seq.dischRaised := true } fltDisch
    s2.endDrop true
  else s

/-- VGL has been held for 100 ms (R331). -/
def State.vglHoldOver (s : State) : State :=
  if s.seq.vglHold then
    let s1 := s.reach (s.seq.railAt + s.holdLimit)
    let s2 := if s1.seq.dischRaised then s1 else State.raise { s1 with seq.dischRaised := true } fltDisch
    s2.startDrop 9
  else s

/-- The VCOM ramps of a rail-up have ended: the scan starts, or waits for drills (R130, R330, R483). -/
def State.vcomUpEnd (s : State) : State :=
  let s1 := s.reach (s.seq.railAt + usToSclk 1000)
  let s2 := s1.vcomRampDone.showPhase .up
  let s3 := { s2 with seq.railStep := 0, seq.lone := false, seq.timeUp := min 65535 ((s1.now - s.seq.beganAt) * 100000 / sclkHz) }
  if s3.scanMayStart then { s3 with scan.startDue := some s3.now }
  else
    match s3.flt.react with
    | some r => { s3 with flt.react := some { r with stage := .waitCond, waits := r.waits ++ [fltShortfall] } }
    | none => s3

/-- The VCOM ramp of a rail-down has ended (R331, R340, R342). -/
def State.vcomDownEnd (s : State) : State :=
  let s1 := s.reach (s.seq.railAt + s.vcomDownLen)
  let s2 := { s1.vcomZero with seq.vcomBlankTo := s1.now + usToSclk 1000 }
  let s3 := if s2.seq.hedge then { s2 with seq.hedgeStep := 3 } else s2
  if s3.seq.lone then State.loneEnd { s3 with tree.railsUp := false } else s3.downFrom 1

/-- The end of a VCOM ramp: a rail-up's, a rail-down's, or a single channel's (R120). -/
def State.vcomEnd (s : State) : State :=
  if s.seq.railStep = 9 ∧ s.seq.rising then s.vcomUpEnd
  else if s.seq.railStep = 1 ∧ ¬ s.seq.rising then s.vcomDownEnd
  else match s.vcomRampEndAt with
    | some t => (s.reach t).vcomRampDone
    | none => s

/-! ### The rail-enable word (R334) -/

/-- Step up of a bit of the word: rails by R329, VCOM last. -/
def stepUpOf (k : Nat) : Nat := if k = 8 then 9 else ((List.range 9).find? (fun j => decide (1 ≤ j) && upRail j == k)).getD 9

/-- Every rail earlier in the order is power-good, but those that final delivery skips (R329, R333). -/
def State.sourcesUp (s : State) (k : Nat) : Bool :=
  (List.range (stepUpOf k)).all (fun j => j == 0 || s.tree.pg.getLsbD (upRail j) || s.seq.skip.getLsbD (upRail j))

/-- No later rail of the order is up, and no step of a rail-down runs, VCOM's ramp and VGL's hold among them. -/
def State.laterDown (s : State) (k : Nat) : Bool :=
  (List.range 9).all (fun b => decide (stepUpOf b ≤ stepUpOf k) || !s.enabled b) && (s.seq.railStep == 0 || s.seq.rising)

/-- The order of R329 within one write: a rail that rises keeps every earlier rail, one that falls raises no later one. -/
def writeOrdered (w : BitVec 9) (k : Nat) : Bool :=
  (List.range 9).all (fun b =>
    if w.getLsbD k then decide (stepUpOf k ≤ stepUpOf b) || w.getLsbD b
    else decide (stepUpOf b ≤ stepUpOf k) || !w.getLsbD b)

/-- Bits that a write changes. -/
def State.enableChanges (s : State) (w : BitVec 9) : List Nat :=
  (List.range 9).filter (fun k => s.enabled k != w.getLsbD k)

/-- Whether a write keeps the order: rail by rail as the device stands, and among the rails it changes. The rails that final
delivery skips are no sources of what it raises (R333). -/
def State.enableLegal (s : State) (w : BitVec 9) : Bool :=
  (s.enableChanges w).all (fun k =>
    (if w.getLsbD k then s.sourcesUp k else s.laterDown k) && writeOrdered (w ||| s.seq.skip.setWidth 9) k)

/-- A write that the sequencer acts on begins its rail's step, and no step beyond it: SEQ_TIME counts from here. VCOM's ramp to 0 V
stops the scan at once, as every rail-down does (R130, R331; log 103). -/
def State.actOn (s : State) (w : BitVec 9) : State :=
  (s.enableChanges w).foldl (fun (t : State) k =>
    let u := { t with seq.beganAt := t.now, seq.lone := true }
    if w.getLsbD k then
      let v := u.showPhase .railUp
      if k = 8 then v.startVcomStep else v.startUpStep (stepUpOf k)
    else
      let v := State.showPhase { u with seq.dischRaised := false } .railDown
      if k = 8 then State.downFrom { v.abruptStop with seq.stuckRails := 0 } 0 else v.dropStep (10 - stepUpOf k)) s

/-- A write of the rail-enable word, or its copies found in disagreement on two consecutive cycles (R334, R341). The
sequencer acts on a majority that differs from the word it follows where that keeps the order; no other moves a rail (R329;
log 103). -/
def State.railVote (s : State) (w : EnableWrite) : State :=
  let write := fun (x : BitVec 9) =>
    if s.seq.hedge then s
    else if s.enableLegal x then s.actOn x
    else s.raise fltSeqOrder
  if !s.e0Runs then s
  else match w with
    | .write x => write x
    | .copies a b c =>
      if a = b ∧ b = c then write a
      else
        let m := Trip.maj { a := a, b := b, c := c }
        let s1 := if !s.seq.hedge && s.enableLegal m then s.actOn m else s
        State.takeover { s1 with seq.enable := { a := a, b := b, c := c } } 3

/-! ### The panel rails' supervisors (R338, R340) -/

/-- Undervoltage of a rail: armed from its power-good to its drop, unless blanked. A rail back above its threshold clears
the bit that shows it now (R346); so for the next two. -/
def State.railUvFired (s : State) (k : Nat) (present : Bool) : State :=
  if !present then { s with seq.uv := setBit s.seq.uv k false }
  else if s.tree.pg.getLsbD k ∧ vget s.seq.blankTo k ≤ s.now then
    (State.supFirst { s with seq.uv := setBit s.seq.uv k true } k 0).raise fltRailUv
  else s

/-- Overvoltage: armed from its soft-start to its drop, blanked for a trim step. -/
def State.railOvFired (s : State) (k : Nat) (present : Bool) : State :=
  if !present then { s with seq.ov := setBit s.seq.ov k false }
  else if s.enabled k ∧ vget s.seq.blankOv k ≤ s.now then
    (State.supFirst { s with seq.ov := setBit s.seq.ov k true } k 1).raise fltRailOv
  else s

/-- Overcurrent: never blanked. -/
def State.railOcFired (s : State) (k : Nat) (present : Bool) : State :=
  if !present then { s with seq.oc := setBit s.seq.oc k false }
  else if s.enabled k then
    (State.supFirst { s with seq.oc := setBit s.seq.oc k true } k 2).raise fltRailOc
  else s

/-- Number of an internal rail as `SUP_FIRST.SOURCE` codes it. -/
def intRailSource : IntRail → Nat
  | .vcore => 9
  | .vdrv => 10
  | .vddh => 11
  | .vddio => 12
  | .vdda => 13

/-- Undervoltage of an internal rail: armed from the end of start-up. -/
def State.intUvFired (s : State) (r : IntRail) : State :=
  if s.up.stage = .complete then
    (State.supFirst { s with flt.intUv := true } (intRailSource r) 0).raise fltIntUv
  else s

/-- A gate line's overload: while the rails are up (R116, R340). -/
def State.gateFired (s : State) (line : Nat) : State :=
  if s.tree.railsUp ∧ s.seq.gateBlankTo ≤ s.now then
    State.raise { s.hwSet 0x302 0x80000000 with panel.goaLine := BitVec.ofNat 4 line, panel.goaSeen := true } fltGate
  else s

/-- A VCOM channel's overload: while the rails are up and the channel is not at high impedance (R122, R340). -/
def State.vcomFired (s : State) (ch : Nat) : State :=
  let c := vget s.panel.vcom ch
  if s.tree.railsUp ∧ c.phase ≠ .off ∧ s.seq.vcomBlankTo ≤ s.now ∧ ¬ (s.seq.railStep = 1 ∧ ¬ s.seq.rising) then
    State.raise { s.hwSet 0x301 (1#32 <<< (8 + ch)) with panel.vcom := vset s.panel.vcom ch { c with ovl := true } } fltVcom
  else s

/-- A condition that an injection still presents meets its detector (R477, R478; log 77). -/
def State.meet (s : State) (n : Nat) (detect : State → State) : State := if s.injected n then detect s else s

/-- RAIL_POWER_GOOD: the rail's checks are armed, and with the last rail those of the gate lines and VCOM channels (R305, R330,
R338). -/
def State.powerGood (s : State) : State :=
  if s.railRising then
    let s1 := s.railGood
    let s2 := if upRail s.seq.railStep = 0 then
        ((s1.meet fltRailUv (fun t => t.railUvFired 0 true)).meet fltRailOv (fun t => t.railOvFired 0 true)).meet fltRailOc
          (fun t => t.railOcFired 0 true)
      else s1
    (s2.meet fltGate (fun t => t.gateFired 0)).meet fltVcom (fun t => t.vcomFired 0)
  else s

/-! ### Field trims (R309) -/

/-- A rail's trim lands: kept beside the one it replaces, which a boundary in this cycle still takes (R309, R327). -/
def State.landTrim (s : State) (k : Nat) (x : Int) : State :=
  let old := if vget s.tree.trimAt k < s.now then vget s.tree.trim k else vget s.tree.trimWas k
  { s with tree.trim := vset s.tree.trim k x, tree.trimAt := vset s.tree.trimAt k s.now
           tree.trimWas := vset s.tree.trimWas k old }

/-! ### Plans and auxiliary rails (R316, R317, R335, R337) -/

/-- The auxiliary rail whose power-good the plan's step awaits. -/
def State.planAwaits (s : State) : Option (Fin 4) :=
  match s.seq.run, s.seq.steps with
  | .powerUp, .aux n :: _ => some n
  | .holdReturn, .aux n :: _ => some n
  | _, _ => none

/-- When a rising auxiliary reference reaches its end. -/
def Aux.riseEnd (a : Aux) : Option Nat := match a.ramp with | .up e => some e | _ => none

/-- An auxiliary rail is power-good. -/
def State.auxGood (s : State) (n : Nat) : State :=
  match (vget s.tree.aux n).riseEnd with
  | some e => (s.reach e).modAux n (fun a => { a with pg := true, armed := true, ramp := .none })
  | none => s

/-- The step's 10 ms run out: the rail is left running and the plan goes on (R335). -/
def State.auxPgTimeout (s : State) : State :=
  match s.planAwaits with
  | some _ => State.planNext ((s.reach (s.seq.stepAt + usToSclk 10000)).raise fltAuxPg)
  | none => s

/-- A delay step ends (R335). -/
def State.delayEnd (s : State) : State :=
  match s.seq.steps with
  | .delay ms :: _ => (s.reach (s.seq.stepAt + usToSclk (1000 * ms))).planNext
  | _ => s

/-- The hedge's order, DARK's or RESET_N's has dropped its items (R342, R343, R463, R475): the sixth event, which a RESET_N
that is asserted ends; the reset condition; DORMANT after a delivery or a lost VIN. -/
def State.dropsEnd (s : State) : State :=
  match s.seq.run with
  | .hedgeDrop =>
    let s1 := { s with seq.run := .none }
    if s.seq.hedge then
      let s2 := { s1.reach s.seq.hedgeEnd with seq.hedgeStep := 6 }
      if s.rtc.resetN || s.rtc.resetDue then s2.enterReset else if s.tree.vinValid ∧ ¬ s.rtc.vinBack then s2 else s2.enterDormant
    else if s.rtc.deliveryAt.isSome ∨ ¬ s.tree.vinValid then s1.enterDormant
    else s1
  | .resetDrop => s.enterReset
  | _ => s

/-- A ramp to 0 V ends: HGn and LGn held low (R316). -/
def State.auxDown (s : State) (n : Nat) : State :=
  match (vget s.tree.aux n).ramp with
  | .down e => (s.reach e).modAux n (fun a => { a with running := false, armed := false, ov := false, ramp := .none })
  | _ => s

/-- The list of items to drop goes on after rail n, whose step it awaited (R337). -/
def State.dropNext (s : State) (n : Nat) : State :=
  match s.seq.run, s.seq.steps with
  | .holdDrop, .aux m :: _ | .dormantDrop, .aux m :: _ => if m.val == n then s.planNext else s
  | _, _ => s

/-- AUX_RAMP_END of rail n; steps of the hedge's order that still waited have come first. -/
def State.auxRampEnd (s0 : State) (n : Nat) : State :=
  let s := if s0.seq.tail = 0 then s0 else (s0.reach (s0.seq.stepAt + 2 * cycle)).hedgeDue
  let ends := match (vget s.tree.aux n).ramp with | .down _ => true | _ => false
  let s1 := s.auxDown n
  match s.seq.run with
  | .hedgeDrop | .resetDrop => if s1.auxFalling then s1 else s1.dropsEnd
  | _ => if ends then s1.dropNext n else s1

/-- Latched off by its valley limit, armed from power-good: a ramp-down that a plan awaited is over with it (R317, R337,
R338). -/
def State.auxOcFired (s : State) (n : Nat) : State :=
  let a := vget s.hedgeDue.tree.aux n
  if a.running && a.armed then
    let falling := match a.ramp with | .down _ => true | _ => false
    let off := fun (a : Aux) =>
      { a with oc := true, latched := true, running := false, pg := false, armed := false, ov := false, ramp := .none }
    let s1 := State.raise ((s.hwSet (0xD40 + n) 0x20).modAux n off) fltAuxOc
    if falling then s1.dropNext n else s1
  else s

/-- Overvoltage of an auxiliary rail: armed from its power-good until it stops running; HGn off and LGn on until FBn is below
105 % (R317, R338). -/
def State.auxOvFired (s : State) (n : Nat) (over' : Bool) : State :=
  if !over' then s.modAux n (fun a => { a with ov := false })
  else if (vget s.hedgeDue.tree.aux n).armed then (s.modAux n (fun a => { a with ov := true })).raise fltAuxOv
  else s

/-- Undervoltage: armed from power-good, blanked in a ramp-down, the hedge's too, and 1 ms after (R317, R340). -/
def State.auxUvFired (s : State) (n : Nat) : State :=
  let a := vget s.hedgeDue.tree.aux n
  let falling : Bool := match a.ramp with | .down _ => true | _ => false
  if a.armed && !falling && decide (a.blankTo ≤ s.now) then s.raise fltAuxUv else s

/-- An injected condition that is held meets its detector as a row passes, so also where a blanking has ended: a trim step's, a
ramp's (R340, R477, R479; log 77). -/
def State.meetHeld (s : State) : State :=
  let s1 := if s.held fltRailUv then s.railUvFired 0 true else s
  let s2 := if s1.held fltRailOv then s1.railOvFired 0 true else s1
  if s2.held fltAuxUv then s2.auxUvFired 0 else s2

/-- Power-good of a rail arms its checks (R317, R338). -/
def State.auxArmed (s : State) (n : Nat) : State :=
  let s1 := s.auxGood n
  if n = 0 then
    ((s1.meet fltAuxOc (fun t => t.auxOcFired 0)).meet fltAuxOv (fun t => t.auxOvFired 0 true)).meet fltAuxUv
      (fun t => t.auxUvFired 0)
  else s1

/-- Power-good of the rail the plan awaits; outside a plan's step, of the first rail that rises (log 24). -/
def State.planPg (s : State) : State :=
  match s.planAwaits with
  | some n => if (vget s.tree.aux n).riseEnd.isSome then (s.auxArmed n).planNext else s
  | none =>
    match firstTo 4 (fun n => (vget s.tree.aux n).riseEnd.isSome) with
    | some n => s.auxArmed n
    | none => s

/-- A landed EN of an auxiliary rail: a set needs the plan; a clear ramps down and the plan does not wait (R316, R327). In a
takeover the value is stored and the rail stays as R46 has it (R409). -/
def State.landAuxEn (s : State) (n : Nat) (en : Bool) : State :=
  if s.seq.hedge then s.modAux n (fun a => { a with en := if en && !s.planAux n then a.en else en })
  else if en then
    if s.planAux n ∧ ¬ (vget s.tree.aux n).en then
      (s.modAux n (fun a => { a with en := true })).auxStart n
    else s
  else
    let s1 := (s.modAux n (fun a => { a with en := false, latched := false })).auxStop n (s.now + usToSclk 2000)
    match s.planAwaits with
    | some m => if m.val = n then s1.planNext else s1
    | none => s1

/-- A landed EN of a load switch (R318); in a takeover it is stored only (R46, R409). -/
def State.landLswEn (s : State) (n : Nat) (en : Bool) : State :=
  if en && !s.planLsw n then s
  else
    let s1 := s.modLsw n (fun l => { l with en := en })
    if s.seq.hedge then s1 else s1.lswFollow n

/-! ### The front light (R319 to R325) -/

/-- Start of the next PWM period, which restarts at each frame boundary and runs freely outside the scan (R289, R291). -/
def State.nextPwm (s : State) : Nat :=
  let b := s.pwmFrom
  let t := b + ((s.now - b) / 40960 + 1) * 40960
  if s.scan.scanning then min t (max s.now (b + s.frameTime)) else t

/-- The front light is allowed to run: E0 runs, no hedge, DARK, delivery or backup run (R46, R342, R438, R440,
R463). -/
def State.lightsAllowed (s : State) : Bool :=
  s.e0Runs && !s.seq.hedge && !s.flt.dark && s.rtc.deliveryAt.isNone && !s.rtc.backupRun

/-- A channel is set on, used and not latched. -/
def State.ledWanted (s : State) (n : Nat) : Bool :=
  let l := vget s.tree.led n
  s.lightsAllowed && decide (n < ledUsed (s.bin 7)) && l.en && !(l.cur == 0) && !(l.dim == 0) && !l.short && !l.openL

/-- A channel follows its setting from the next PWM period on: from off to on it soft-starts there, and a soft-start that runs goes
on to that period's start where the channel is set off (R321, R322, R345). -/
def State.ledFollow (s : State) (n : Nat) : State :=
  let l := vget s.tree.led n
  let was := l.driven s.now
  let x :=
    if s.ledWanted n then
      if l.on then l
      else { l with on := true, onWas := was, due := s.nextPwm, soft := if was then l.soft else some (s.nextPwm + 402653) }
    else { l with on := false, onWas := was, due := s.nextPwm, soft := if was then l.soft else none }
  { s with tree.led := vset s.tree.led n x }

/-- A landed write of a channel: the ceiling clamps, an unused channel ignores it; CUR and DIM act from the next PWM period
(R71, R321). -/
def State.landLed (s : State) (n : Nat) (w : Word) : State :=
  if n < ledUsed (s.bin 7) then
    let l := vget s.tree.led n
    let x := { l with en := bit w 31, cur := min (fld w 16 7) (ledCeiling (s.bin 7)), dim := fld w 0 12
                      onWas := l.driven s.now, curWas := l.curNow s.now, dimWas := l.dimNow s.now, due := s.nextPwm }
    (State.ledFollow { s with tree.led := vset s.tree.led n x } n).formPower
  else s

/-- Latches cleared by a write of 1 (R324). -/
def State.clearLedLatch (s : State) (short open' : BitVec 8) : State :=
  (List.range 8).foldl (fun (t : State) n =>
    let l := vget t.tree.led n
    let x := { l with short := l.short && !short.getLsbD n, openL := l.openL && !open'.getLsbD n }
    State.ledFollow { t with tree.led := vset t.tree.led n x } n) s

/-- The short check of a channel has filled its time (R322, R323). -/
def State.ledShortFired (s : State) (n : Nat) : State :=
  let l := vget s.tree.led n
  if (vget s.hedgeDue.tree.led n).driven s.now ∧ ¬ l.softNow s.now then
    State.raise { s.hwSet 0xD5B (1#32 <<< n) with tree.led := vset s.tree.led n { l with short := true, on := false, onWas := false } } fltLedShort
  else s

/-- The open check: the boost stood at overvoltage while it ran (R322, R324). Where the channel was the last one on, the
boost stops (R319). -/
def State.ledOpenFired (s : State) (n : Nat) : State :=
  let l := vget s.tree.led n
  if (vget s.hedgeDue.tree.led n).driven s.now ∧ ¬ l.softNow s.now then
    let s1 := { s.hwSet 0xD5B (1#32 <<< (8 + n)) with tree.led := vset s.tree.led n { l with openL := true, on := false, onWas := false } }
    State.raise { s1 with tree.boostOv := s1.boostOn } fltLedOpen
  else s

/-- A soft-start ends: the channel's checks are armed (R322). -/
def State.ledSoftEnd (s : State) (n : Nat) : State :=
  let l := vget s.tree.led n
  match l.soft with
  | some e =>
    let s1 := s.reach e
    let s2 := { s1 with tree.led := vset s1.tree.led n { l with soft := none } }
    if n = 0 then (s2.meet fltLedShort (fun t => t.ledShortFired 0)).meet fltLedOpen (fun t => t.ledOpenFired 0) else s2
  | none => s

/-! ### Headland loops (R123 to R125) -/

/-- Class of a reading of loop n; an injected condition decides loop 1's (R478). -/
def State.loopClass (s : State) (n : Fin 8) (r : Nat) : HlClass :=
  if n = 0 ∧ s.injected fltHlOpen then .open
  else if n = 0 ∧ s.injected fltHlShort then .low
  else headlandClass (vget s.panel.words.hlLo n.val) (vget s.panel.words.hlHi n.val) r

/-- A reading of loop n recorded; the second in one class other than good raises its fault. -/
def State.recordLoop (s : State) (n : Fin 8) (r : Nat) : State :=
  let o := vget s.panel.headland n.val
  let c := s.loopClass n r
  let s1 := { s with panel.headland := vset s.panel.headland n.val { ohm := r, cls := c, suspect := !(c == .good) } }
  if c = .good ∨ c ≠ o.cls then s1
  else s1.raise (if c = .low then fltHlShort else fltHlOpen)

/-- The measurement of the frame ends; it is discarded where GX4 was not at VGL (R125). -/
def State.headlandEnd (s : State) (codes : Vector (BitVec 12) 4) (gx4 : Bool) : State :=
  match s.panel.hlNow with
  | none => s
  | some n =>
    let s1 := { s.reach s.headlandTime with panel.hlNow := none }
    if gx4 then s1.recordLoop n (sumTo 4 (fun i => (vget codes i).toNat) / 4) else s1

end Sys2Proof.Machine
end

