-- ==== Sys2Proof/Machine/Otp.lean ====
section
/-! DEFINITION. Operations on the OTP (20_otp_and_life_cycle, R449 to R462): the checks of a guarded write, the beginning
and end of an operation, healing, seal openings, the supply window and the filtered SEAL_N. -/

namespace Sys2Proof.Machine

/-- Programming is possible (R452). -/
def State.progOk (s : State) : Bool := s.otp.supplyOk && s.clock.pllLock && !s.rtc.onBackup

/-- `OTP_STAT.BUSY`. -/
def State.otpBusy (s : State) : Bool := s.otp.op.isSome

/-- In factory test mode, in Fallow (R392, R460). -/
def State.inTest (s : State) : Bool := s.lcNow == 0 && s.acc.testMode

/-! ### What a write asks (R446, R453, R460) -/

/-- Regions of the ECC words. -/
inductive OtpRegion where
  | patch
  | key (slot : Nat)
  | desc (slot : Nat)
  | maker
deriving DecidableEq, Repr

/-- Region of a word. -/
def otpRegion (w : Nat) : OtpRegion :=
  if w < 320 then .patch
  else if w < 464 then .key ((w - 320) / 9 + 1)
  else if w < 984 then .desc ((w - 464) / 8)
  else .maker

/-- What a guarded write of the group asks for. -/
inductive OtpAsk where
  | program (w : Nat)
  | step (c : Nat)
  | margin (c w : Nat)
  | life (next : Nat)
  /-- `OTP_CTL.OP` 0 or 4 to 7. -/
  | bad
deriving DecidableEq, Repr

/-- The life-cycle state in force permits it (R460). -/
def State.otpPermits (s : State) : OtpAsk → Bool
  | .program w => match otpRegion w with
    | .patch => s.inTest
    | .maker => decide (s.lcNow ≤ 1)
    | _ => decide (s.lcNow ≤ 2)
  | .step c => if c = ctrPatch then s.inTest else if c = ctrEpoch ∨ c = ctrReprov then decide (s.lcNow ≤ 2) else true
  | .margin _ _ => true
  | .life _ => decide (s.lcNow ≤ 2)
  | .bad => true

/-- It needs SEAL_N (R458, R460). -/
def State.otpNeedsSeal (s : State) : OtpAsk → Bool
  | .program w => match otpRegion w with
    | .key _ | .desc _ => s.lcNow == 2
    | _ => false
  | .step c => (c == ctrEpoch || c == ctrReprov) && s.lcNow == 2
  | .life _ => s.lcNow == 1 || s.lcNow == 2
  | _ => false

/-- The reason a write that needs the seal gets from the count of openings (R454 order 5, R461). -/
def State.sealWhy (s : State) : Option Nat :=
  if s.lcNow < 2 then none
  else if 0 < s.otp.openings then some 0x1A
  else if s.counter ctrSeal = 1024 then some 0x1B
  else none

/-- Target of a STEP (R448): the next patch record if its CRC is valid, the next valid slot. -/
def State.stepTarget (s : State) (c : Nat) : Option Nat :=
  let v := s.counter c
  if c = ctrPatch then
    match s.patches[v]? with
    | some r => if s.patchValid r then some (v + 1) else none
    | none => none
  else if c = ctrEpoch then ((List.range 16).map (fun i => i + 1)).find? (fun k => decide (v < k) && (s.keyOf k).isSome)
  else ((List.range 65).find? (fun k => decide (v < k) && s.descRead k && s.descValid (s.descSlot k)))

/-- Conditions of the step to Sealed (R458). -/
def State.sealReady (s : State) : Bool :=
  let e := s.counter ctrEpoch
  let v := s.counter ctrReprov
  decide (1 ≤ e) && (s.keyOf e).isSome && s.descRead v && s.descValid (s.descSlot v)

/-- Orders 6 to 9 of R454. -/
def State.otpContent (s : State) : OtpAsk → Option Nat
  | .bad => some 0x15
  | .margin _ _ => none
  | .program w =>
    let place := match otpRegion w with
      | .key k => decide (s.counter ctrEpoch < k)
      | .desc v => decide (s.counter ctrReprov ≤ v)
      | .patch => s.patchPlace w
      | .maker => true
    if !place then some 0x13
    else if !(s.otpWord w).blank then some 0x12
    else if !s.progOk then some 0x10 else none
  | .step c =>
    if !(c == ctrPatch || c == ctrEpoch || c == ctrReprov) then some 0x15
    else if s.counter c = counterSteps c then some 0x14
    else if (s.stepTarget c).isNone then some 0x16
    else if !s.progOk then some 0x10 else none
  | .life t =>
    let v := s.counter ctrLife
    if t ≠ v + 1 then some 0x17
    else if v ≠ s.lcNow then some 0x18
    else if t = 2 ∧ ¬ s.sealReady then some 0x19
    else if !s.progOk then some 0x10 else none

/-- The first check of R454 that fails at the letter, given whether the group was armed. -/
def State.otpWhy (s : State) (armed : Bool) (a : OtpAsk) : Option Nat :=
  if !armed then some 0x01
  else if s.otpBusy then some 0x11
  else if !s.otpPermits a then some 0x04
  else if s.otpNeedsSeal a && !s.acc.sealIn then some 0x02
  else
    match (if s.otpNeedsSeal a then s.sealWhy else none) with
    | some c => some c
    | none => s.otpContent a

/-- What a write of `OTP_CTL` with an operation asks, under `OTP_ADDR`. -/
def State.askOf (s : State) (op : Nat) : OtpAsk :=
  let c := fld s.otp.addr 16 3
  let w := fld s.otp.addr 0 10
  if op = 1 then .program w else if op = 2 then .step c else if op = 3 then .margin c w else .bad

/-- An operation begins: BUSY. Where it raises a counter, copy B's first pulse ends a time later that the spec bounds only: at least
two pulses of 2,014 SCLK, at most the pump's 250 µs, copy A's 96 µs and a pulse (R450, R452; log 129). -/
def State.beginOp (s : State) (o : OtpOp) : State :=
  let (i, s1) := s.draw
  { s1 with otp.op := some o, otp.shownAt := s.now + 4028 + Config.freeNat i % (usToSclk 346 + 2014 - 4028) }

/-- An accepted operation begins (R453). -/
def State.beginAsk (s : State) : OtpAsk → State
  | .program w => s.beginOp (.program w s.otp.data)
  | .step c => s.beginOp (.raise c (s.counter c) ((s.stepTarget c).getD 0))
  | .margin c w => s.beginOp (.margin c w)
  | .life t => s.beginOp (.raise ctrLife (t - 1) t)
  | .bad => s

/-! ### What runs when nothing is busy (R184, R451, R461) -/

/-- The first healing pulse of a start-up sets OTP_HEALED (R451). -/
def State.beginHeal (s : State) : State :=
  let s1 := State.beginOp { s with otp.healed := true } .heal
  if s.otp.healed then s1 else s1.raise fltOtpHealed

/-- Every copy of the logical bits c to t of a counter is programmed (R450). -/
def State.raisedTo (s : State) (n c t : Nat) : Bool := decide (firstUnset (fun i => s.thermo (counterBase n + i)) c t = t)

/-- The work that waits: a seal opening, a COMMIT's counter, healing. -/
def State.otpNext (s : State) : State :=
  if s.otpBusy || !s.progOk then s
  else if 0 < s.otp.openings then s.beginOp .sealCount
  else match s.otp.commitTo with
    | some x => s.beginOp (.commit (firstUnset (fun i => s.thermo (counterBase ctrAlmanac + i)) x.1 x.2) x.2)
    | none => if s.otp.healDue && !s.healOrder.isEmpty then s.beginHeal else s

/-- Count of a margin read: marginal bits of a word, or logical bits of a counter with a marginal copy (R453). -/
def State.marginCount (s : State) (c w : Nat) : Nat :=
  if 6 ≤ c then popcount 39 (s.otpWord w).marginal.toNat
  else (s.otp.thermo.filter (fun x =>
    decide (counterBase c ≤ x.1) && decide (x.1 < counterBase c + counterSteps c) && x.2.anyMarginal)).length

/-- The window is drawn again with a counted opening (R277, R283, R461). -/
def State.sealCounted (s : State) : State :=
  let s1 := { s with otp.openings := s.otp.openings - 1, rw.postSeal := s.counter ctrSeal }
  if s1.rw.firstDraw then s1 else s1.typeset

/-- An operation or counter programming ends, or is cut as far as `e` says (R445, R450, R455). -/
def State.otpDone (s : State) (e : OtpEnd) : State :=
  match s.otp.op with
  | none => s
  | some (.margin c w) =>
    State.otpNext { s with otp.op := none, otp.marginBits := s.marginCount c w }
  | some o =>
    let before := s.counterCells ctrSeal
    let e := s.fitEnd e
    let s1 := s.pulseOp e
    let s2 := { s1 with otp.op := none }
    let s3 := match o with
      | .commit _ _ => match s2.otp.commitTo with
        | some x => if s2.raisedTo ctrAlmanac x.1 x.2 then { s2 with otp.commitTo := none, alm.ctrBusy := false } else s2
        | none => s2
      | .sealCount =>
        if before < s2.counterCells ctrSeal then
          let s4 := s2.sealCounted
          { s4 with otp.healDue := s4.otp.healDue || e.completed.isSome }
        else s2
      | .heal => { s2 with otp.healDue := e.completed.isSome }
      | _ => s2
    s3.otpNext

/-- Programming stops between pulses: what is programmed ends where it has come, and BUSY clears; a margin read goes on
(R451, R453, R455, R461; log 26). -/
def State.stopPulses (s : State) : State :=
  match s.otp.op with
  | none | some (.margin _ _) => s
  | some _ => s.draw.2.otpDone (s.cutPlace s.draw.1)

/-- SUPPLY_OK changes: programming in progress ends when it clears, and what waits resumes when it sets (R451, R455, R461). -/
def State.supplyChange (s : State) (ok : Bool) : State :=
  let s1 := { s with otp.supplyOk := ok }
  if s1.progOk then s1.otpNext else s1.stopPulses

/-- The filtered SEAL_N changes: a release is remembered by a guarded write that needs the seal; an assertion in Sealed or
Stubble is an opening, counted before a healing in progress goes on (R402, R461). -/
def State.sealChange (s : State) (asserted : Bool) : State :=
  if !s.recording || s.acc.sealIn == asserted then s
  else
    let s1 := { s with acc.sealIn := asserted
                       acc.guarded := if asserted then s.acc.guarded
                         else s.acc.guarded.map (fun g => { g with sealed := false }) }
    if asserted && decide (2 ≤ s.lcNow) && decide (s.counter ctrSeal + s.otp.openings < 1024) then
      let s2 := { s1 with otp.openings := s1.otp.openings + 1 }
      if s2.otp.op = some .heal then s2.stopPulses else s2.otpNext
    else s1

end Sys2Proof.Machine
end

