-- ==== Sys2Proof/Machine/AlmLoad.lean ====
section
/-! DEFINITION. Loading an almanac (07_almanac, R181 to R189): the operations of `ALM_CTL` and their refusals, staging,
validation, draining, the copy, and the background recheck. -/

namespace Sys2Proof.Machine

/-- Pages of the staging area (R182, R199). -/
def stagingPages : Nat := 421

/-- ALM_ROLLBACK staged, as far as the counter goes (R184; log 17). -/
def State.stagedRollback (s : State) : Nat := min 256 (almRollback (some s.alm.staged))

/-- What the state of the load says against an operation: its state, the mailroom's room, the validation, anti-rollback and the
supply (R182 to R184). -/
def State.almStage (s : State) (op : Nat) : Option Nat :=
  if op = 0 then (if s.alm.load = .idle then some 0x22 else none)
  else if op = 1 then
    (if s.alm.load ≠ .idle then some 0x22 else if s.pagesFree * 1024 < almLen then some 0x23 else none)
  else if op = 2 then (if s.alm.load = .staging then none else some 0x22)
  else if s.alm.load ≠ .staged then some 0x22
  else match s.alm.check with
    | some .pass =>
      if almRollback (some s.alm.staged) < s.counter ctrAlmanac then some 0x26
      else if s.counter ctrAlmanac < s.stagedRollback ∧ ¬ s.progOk then some 0x27
      else none
    | some .wrongClass => some 0x25
    | _ => some 0x24

/-- The reason a write of `ALM_CTL` is refused (R183), given whether the group was armed. Where R461's seal codes stand among these
is the model's choice: after ALM_NO_SEAL, before ALM_STATE (DESIGN CHOICE, log 117). -/
def State.almWhy (s : State) (armed : Bool) (op : Nat) : Option Nat :=
  let needsSeal := op == 3 && decide (2 ≤ s.lcNow)
  if !armed then some 0x20
  else if needsSeal && !s.acc.sealIn then some 0x21
  else
    match (if needsSeal then s.sealWhy else none) with
    | some c => some c
    | none => s.almStage op

/-- The staging area freed; state IDLE (R182, R185). -/
def State.freeStaging (s : State) : State :=
  { s with alm.load := .idle, alm.staged := #[], alm.stagedPages := [], alm.check := none }

/-- OPEN accepted. -/
def State.openLoad (s : State) : State :=
  let (p, s1) := s.allocate stagingPages
  { s1 with alm.load := .staging, alm.staged := #[], alm.stagedBytes := 0, alm.stagedPages := p, alm.check := none
            alm.drainFrames := 0 }

/-- CLOSE accepted. -/
def State.closeLoad (s : State) : State := { s with alm.load := .checking, alm.since := s.now }

/-- COMMIT accepted: draining, and the counter's programming where ALM_ROLLBACK asks for it (R184, R185). -/
def State.commitLoad (s : State) : State :=
  let t := s.stagedRollback
  let s1 := { s with alm.load := .draining, alm.since := s.now, alm.drainFrames := 0 }
  if s.counter ctrAlmanac < t then State.otpNext { s1 with alm.ctrBusy := true, otp.commitTo := some (s.counter ctrAlmanac, t) } else s1

/-- ABORT of a load: every group is disarmed; counter steps already programmed stay, and a programming in progress runs to its end
(R182, R187, R401; DESIGN CHOICE, log 117). Where the copy had begun, the timing words of the almanac that stays in use come
back at the next boundary. -/
def State.abortLoad (s : State) : State :=
  if s.alm.load = .idle then s
  else
    let s1 := s.freeStaging
    { s1 with alm.ctrBusy := false, alm.copyAt := none, otp.commitTo := none, acc.armed := none
              alm.wordsDue := s.alm.wordsDue || s.alm.copyAt.isSome }

/-- An operation accepted. -/
def State.almOperate (s : State) (op : Nat) : State :=
  let s1 := { s with alm.lastOp := BitVec.ofNat 2 op }
  if op = 0 then s1.abortLoad else if op = 1 then s1.openLoad else if op = 2 then s1.closeLoad else s1.commitLoad

/-- Status of a STAGE letter, and the bytes taken where it is accepted (R182, R373). -/
def State.stageLetter (s : State) (offset : Nat) (data : List Byte) : State × Byte :=
  if s.alm.load ≠ .staging then (s, 0x40)
  else if offset ≠ s.alm.stagedBytes then (s, 0x41)
  else if almLen < offset + data.length then (s, 0x42)
  else
    ({ s with alm.staged := s.alm.staged ++ data.toArray, alm.stagedBytes := s.alm.stagedBytes + data.length }, 0)

/-- Validation ends (R181, R182). -/
def State.validationEnd (s : State) : State :=
  if s.alm.load = .checking ∧ s.clock.pllLock then
    { s with alm.load := .staged, alm.check := some (validate s.alm.staged (s.bin 3) (s.bin 5)) }
  else s

/-- VCOM's separations under the words in force. -/
def State.reclip (s : State) : State :=
  { s with panel.vcom := vmapIdx (fun _ (c : VcomCh) =>
      { c with clip := decide (vcomHalfOf s.panel.words.vcomHalf c.code < s.panel.words.vcomHalf) }) s.panel.vcom }

/-- Nothing holds D back at this boundary (R185). -/
def State.drainDone (s : State) : Bool :=
  s.alm.load == .draining && s.alm.drainOn && s.alm.copyAt.isNone && s.scan.scanning && s.scan.cleanLast
    && !s.scan.startSetDone && s.scan.slot == 0 && !s.alm.ctrBusy

/-- D: the timing words take effect and the copy begins; PENDING hidden units and deferral lists go (R185, R248, R254). A row time
too short for the drills in service is a shortfall (R138). -/
def State.drainEnd (s : State) : State :=
  if s.drainDone then
    let s1 := { s with panel.words := timingOf (some s.alm.staged) s.frameRows, alm.copyAt := some s.now }
    let s2 := State.headlandBegin { s1 with scan.rowT := s1.rowTimeNow }
    s.checkSpan (s2.reclip.withdraw (fun _ => true)).clearDefer
  else s

/-- The ROM almanac in the almanac RAM; its timing words take effect at the next boundary (R103, R186, R188, R189). -/
def State.loadRom (s : State) : State := { s with alm.image := none, alm.thermalDue := true, alm.wordsDue := true }

/-- The copy ends (R185, R186). -/
def State.copyDone (s : State) (ok : Bool) : State :=
  match s.alm.copyAt, s.clock.pllLock with
  | none, _ | _, false => s
  | some t, true =>
    let s1 := s.reach (t + 3361)
    let s2 := if ok then { s1 with alm.image := some s1.alm.staged, alm.thermalDue := true } else s1.loadRom
    let s3 := s2.freeStaging
    let s4 := { s3 with alm.copyAt := none, alm.drainOn := false, alm.suspect := false, alm.passAt := s1.now }
    if ok then s4 else s4.raiseAs fltAlmCrc .note

/-- The almanac RAM can be read: E0 has started the recheck, not in retention, no copy. -/
def State.almReadable (s : State) : Bool := s.e0Runs && !(s.up.stage == .e0) && !(s.pwr.st == .hold) && s.alm.copyAt.isNone && s.clock.pllLock

/-- A recheck pass completes (R189). -/
def State.recheckPass (s : State) (agrees : Bool) : State :=
  if s.almReadable then
    let s1 := s.reach (s.alm.passAt + 860160)
    let s2 := { s1 with alm.passes := (s1.alm.passes + 1) % 65536, alm.passAt := s1.now }
    if agrees then { s2 with alm.suspect := false }
    else if s.alm.suspect then State.raiseAs { s2 with alm.suspect := false } fltAlmCrc .hold
    else { s2 with alm.suspect := true }
  else s

/-- The repair of an ALM_CRC reaction (R189): the ROM almanac, every ACTIVE pixel cancelled in the first frame scanned. -/
def State.repairAlm (s : State) : State := State.markAlmLost { s.loadRom with scan.cancelAll := true }

end Sys2Proof.Machine
end

