-- ==== Sys2Proof/Machine/Power.lean ====
section
/-! DEFINITION. Power states (15_power_states, R347 to R359) and what moves the device without a request: wake events,
VIN's loss and return, final delivery and the backup run (19_rtc_and_backup, R422, R437 to R441), RESET_N (22_start_up, R488). -/

namespace Sys2Proof.Machine

/-! ### Requests (R347, R348) -/

/-- The request that names the state being entered, if a passage is in progress. -/
def State.entering (s : State) : Option PwrReq :=
  match s.pwr.st with
  | .enterHold => some .hold
  | .enterDormant => some .dormant
  | .ret => some (if s.pwr.retSlow then .slow else .run)
  | .run | .slow => s.pwr.change.map (fun b => if b then PwrReq.slow else .run)
  | _ => none

/-- A host pigeonhole is PENDING, BANDING or RUNNING (R348). -/
def State.hostBusy (s : State) : Bool := s.pgh.tab.any (fun x => isHost x.1 && x.2.busy)

/-- An OTP operation, a margin read among them, healing, a seal count or a COMMIT's counter is in progress (R348, R453, R462). -/
def State.otpProgramming (s : State) : Bool := s.alm.ctrBusy || s.otp.op.isSome

/-- Code of the first check of R348 that fails. -/
def State.refuserOf (s : State) (r : PwrReq) : Option Nat :=
  let down := r == .hold || r == .dormant
  if s.seq.hedge then some 1
  else if s.rtc.deliveryAt.isSome then some 2
  else if s.flt.react.isSome || s.flt.dark then some 3
  else if s.entering.isSome && !(s.entering == some r) then some 4
  else if down && s.windowRefuses then some 5
  else if r == .dormant && s.hostBusy then some 6
  else if r == .dormant && s.otpProgramming then some 7
  else if r == .slow && s.panel.words.slowRowT == 0 then some 8
  else none

/-- Wake event of R351 before C: the entry is abandoned (R349, R354). -/
def State.abandonEntry (s : State) : State :=
  { s with pwr.st := if s.pwr.resume then .slow else .run, pwr.result := .abandoned, pwr.noWait := false }

/-- An entry is accepted; PENDING hidden units go on entry to DORMANT (R349, R354). -/
def State.beginEntry (s : State) (dormant : Bool) : State :=
  let held := s.pwr.st == .hold
  let s1 := { s with pwr.st := if dormant then .enterDormant else .enterHold, pwr.committed := false, pwr.held := false
                     pwr.heldAlarm := 0, pwr.noWait := held, panel.hlNow := if dormant then s.panel.hlNow else none
                     pwr.resume := if held then s.pwr.resume else s.pwr.st == .slow }
  if dormant then s1.withdraw (fun _ => true) else s1

/-- What an accepted request begins (R347); the state the device is in, or is entering, is left as it is. -/
def State.grant (s : State) (r : PwrReq) : State :=
  if s.entering.isSome then s
  else
    match s.pwr.st, r with
    | .run, .slow => { s with pwr.change := some true }
    | .slow, .run => { s with pwr.change := some false }
    | .run, .hold | .slow, .hold => s.beginEntry false
    | .run, .dormant | .slow, .dormant | .hold, .dormant => s.beginEntry true
    | .hold, .run => s.beginReturn false
    | .hold, .slow => s.beginReturn true
    | _, _ => s

/-- A request decided (R347, R348). The second part is the refuser's code, if it is refused. -/
def State.request (s : State) (r : PwrReq) : State × Option Nat :=
  match s.refuserOf r with
  | some c =>
    ({ s with pwr.result := .refused, pwr.refuser := c, pwr.refuse := vmod s.pwr.refuse (c - 1) (fun x => sat32 x 1) }, some c)
  | none => (State.grant { s with pwr.req := r, pwr.result := .accepted } r, none)

/-! ### Wake events (R350, R351, R359) -/

/-- What a wake event comes from (R350, R351). -/
inductive WakeBy where
  /-- A letter passes order 5: an edge. -/
  | letter
  /-- A set alarm flag: a level. -/
  | alarm
  /-- Registered-port attention: a level. -/
  | port
deriving DecidableEq, Repr, Inhabited

/-- Counts of a wake-race window (R350). -/
def State.countRace (s : State) (held lost : Nat) : State :=
  { s with pwr.raceHeld := sat16 s.pwr.raceHeld held, pwr.raceLost := sat16 s.pwr.raceLost lost }

/-- A wake event past HOLD's commit point: an edge in the window is lost for waking, and counted; all else is held (R350, R359). -/
def State.heldEvent (s : State) (w : WakeBy) : State :=
  if s.raceWindow then
    match w with
    | .letter => s.countRace 0 1
    | .port => if s.pwr.portHeld then s else State.countRace { s with pwr.held := true, pwr.portHeld := true } 1 0
    | .alarm => { s with pwr.held := true }
  else { s with pwr.held := true }

/-- A wake event of R351; registered-port attention makes an entry to DORMANT wait instead. -/
def State.wakeEvent (s : State) (w : WakeBy) : State :=
  match s.pwr.st with
  | .hold => s.beginReturn s.pwr.resume
  | .enterHold => if s.pwr.committed then s.heldEvent w else s.abandonEntry
  | .enterDormant => if s.pwr.committed || s.pwr.noWait || w == .port then s else s.abandonEntry
  | _ => s

/-- The level events of R351: registered-port attention and a set alarm flag under ALARM_WAKE. -/
def State.attend (s : State) : State :=
  let s1 := if s.pwr.alarmWake && (s.rtc.alm1F || s.rtc.alm2F) then s.wakeEvent .alarm else s
  if s1.rw.attention then s1.wakeEvent .port else s1

/-! ### Commit points (R349, R350, R354) -/

/-- The stop of the scan at C. Where C is the boundary at which the scan was to start, its steps are made and no frame follows; with
no boundary the scan stays stopped (R28, R130, R229, R349). -/
def State.stopAtCommit (s : State) : State :=
  if s.scan.scanning then State.orderlyStop (s.reach (s.slotTime s.frameRows))
  else match s.scan.startDue with
    | some t => State.orderlyStop (s.reach t)
    | none => s.stopScan

/-- C of an entry to HOLD: orderly stop, the wake-race window's counts, and what follows; a cause of ATTN_N that arises here waits
for the entry's completion (R349, R350). A DARK reaction of the boundary ends the entry (R359). -/
def State.holdCommit (s : State) (attn lost : Nat) : State :=
  if s.pwr.st == .enterHold && s.commitDue then
    let s0 := s.stopAtCommit
    if s0.flt.dark then s0
    else
      let s1 := (s0.countRace attn lost).commitHold
      { s1 with pwr.attnHeld := BitVec.ofNat 5 s0.attnWord &&& ~~~(BitVec.ofNat 5 s.attnWord) }
  else s

/-- C of an entry to DORMANT (R350, R354). -/
def State.dormantCommit (s : State) (attn lost : Nat) : State :=
  if s.pwr.st == .enterDormant && s.commitDue then
    let s1 := s.stopAtCommit
    if s1.flt.dark then s1 else (State.countRace { s1 with pwr.heldAlarm := 0 } attn lost).commitDormant
  else s

/-- The return's rail-up at 200 µs, with the plan's items alongside, or waiting for a reaction's decision point (R352,
R469). -/
def State.returnUp (s : State) : State :=
  match s.pwr.retAt with
  | some t =>
    if s.pwr.st = .ret ∧ ¬ s.up.firstUp then
      let s1 := s.reach (t + usToSclk 200)
      if s1.reactionHolds then { s1 with up.firstUp := true }
      else (State.beginRailUp { s1 with pwr.retAt := none }).planHoldReturn
    else s
  | none => s

/-! ### VIN loss (R347, R359, R437, R438) -/

/-- A reaction in progress when DORMANT is entered goes no further; FAULT_N stays as it is until R354 releases it. -/
def Reacting.inert (r : Reacting) : Reacting := if r.stage = .frame then r else { r with stage := .waitReturn }

/-- The entry to DORMANT without its pigeonhole wait (R354): C at the next boundary, or now where the scan is stopped. -/
def State.enterUnwaited (s : State) : State :=
  let s1 := { s with pwr.st := .enterDormant, pwr.noWait := true, pwr.change := none, pwr.held := false, pwr.heldAlarm := 0
                     pwr.committed := false, flt.react := s.flt.react.map Reacting.inert, up.firstUp := false }
  if s.scan.scanning then s1
  else
    let s2 := { s1 with scan.startDue := none }
    if s2.seqIdle then s2 else s2.commitDormant

/-- Some step of the window's entries drives VSN10: code 6 (R333). -/
def State.windowUsesSix (s : State) : Bool :=
  anyTo 12 (fun b => anyTo 4 (fun g => anyTo 32 (fun c => [0, 30].any (fun t =>
    match sequenceOf s.alm.image (entryNo s.winMode b g c t) with
    | some l => l.any (fun x => x.1 == 6)
    | none => false))))

/-- Backup domain and main domains without supply; the OTP cells stay, and `RTC_COMP` with them (R422, R423). -/
def State.powerOff (s : State) : State :=
  let s1 := s.cutOp
  { State.reset with
    pending := s1.pending, now := s1.now, free := s1.free
    otp := { OtpState.reset with words := s1.otp.words, thermo := s1.otp.thermo, factory := s1.otp.factory }
    rtc := { RtcState.reset with alive := false, onBackup := false, comp := s1.rtc.comp, vbakConn := s1.rtc.vbakConn, resetN := s1.rtc.resetN, bak := 0, causes := 0 }
    pwr := { PwrState.reset with st := .unpowered, wake := 0 }
    rw := { RwState.reset with sent := s1.rw.sent }
    up := { UpState.reset with stage := .off, rstOut := false } }

/-- Final delivery begins in the device's present condition (R437). -/
def State.delivers (s : State) : Bool :=
  s.rw.session.isSome && s.up.stage == .complete && !s.seq.hedge && !s.flt.dark
    && !(s.pwr.st == .enterDormant || s.pwr.st == .delivery)

/-- The rails that final delivery finds down are raised (R333, R344, R438). -/
def State.deliveryUp (s : State) : State :=
  if s.seq.railStep = 9 ∧ s.seq.rising then s
  else if s.tree.railsUp ∧ s.seq.railStep = 0 then
    if s.scan.scanning ∨ ¬ s.scanMayStart then s else { s with scan.startDue := some s.now }
  else s.beginRailUp

/-- Time zero of final delivery (R438). -/
def State.beginDelivery (s : State) : State :=
  let skip : BitVec 8 := if s.windowUsesSix then 2 else 18
  let s1 := (s.abortLoad.lightsOff).dropItems false (s.now + usToSclk 2000)
  let s2 := { s1 with
    pwr.st := .delivery, pwr.change := none, pwr.held := false, pwr.committed := false, pwr.noWait := false
    seq.phase := .delivery, seq.skip := skip, seq.run := .none, seq.steps := [], seq.place := 0, seq.after := .nothing
    flt.react := none, up.firstUp := false, rtc.deliveryAt := some s.now, rtc.deliveryDone := false, rtc.path := true
    rtc.isolated := true
    rw.checking := none, rw.waiting := none, rw.rx := [], rw.requestDue := none, rw.requestWaits := false, rw.poff := true
    rw.typesetting := none, rw.typesetAgain := false, rw.firstDraw := false }
  s2.typeset.deliveryUp

/-- VIN falls through VIN loss: with VBAK disconnected the backup domain has no supply (R422). Otherwise a record under check is
dropped without reply, and one that waits with it. A guarded write in its 1.000 ms gets no reply, and lands only where final
delivery begins; OTP programming stops (R283, R347, R359, R405, R437, R455, R479, R489). -/
def State.vinLoss (s : State) : State :=
  if s.tree.vinValid && s.rtc.alive && !s.rtc.vbakConn then State.powerOff { s with tree.vinValid := false }
  else if s.tree.vinValid && s.rtc.alive then
    let g := if s.delivers && !s.resetOrder then s.acc.guarded.map (fun g => { g with reply := false }) else []
    let s1 := State.stopPulses { s with
      tree.vinValid := false, rtc.charging := false, rtc.testing := none, rtc.onBackup := true, rtc.vinLostAt := s.now
      pwr.vinGone := s.pwr.vinGone || s.up.stage == Stage.off, otp.supplyOk := false
      rw.checking := none, rw.waiting := none, acc.guarded := g }
    match s1.up.stage with
    | .off => s1
    | .held => { s1 with tree.startReg := false }
    | .wait | .otp | .otpFail | .straps | .pll | .boot => s1.enterDormant
    | _ =>
      if s1.resetOrder || s1.rtc.deliveryAt.isSome then s1
      else if s1.seq.hedge then (if s1.seq.hedgeStep = 6 then s1.enterDormant else s1)
      else if s1.delivers then s1.beginDelivery
      else if s1.pwr.st = .enterDormant then
        (if s1.pwr.committed then s1 else s1.enterUnwaited)
      else s1.enterUnwaited
  else s

/-! ### VIN's return (R355, R422, R440, R441) -/

/-- VIN valid in a backup run: the isolation switch closes, and the sequence plan runs (R440). -/
def State.endBackupRun (s : State) : State :=
  let s1 := { s with rtc.backupRun := false, rtc.path := false, rtc.isolated := false, rtc.runDoneAt := none }
  if s.up.stage = .linkWait ∨ s.up.stage = .plan ∨ s.up.stage = .complete then s1.planPowerUp else s1

/-- VIN becomes valid with the backup domain alive. -/
def State.vinReturn (s : State) : State :=
  if s.rtc.alive && !s.tree.vinValid then
    let unlocked := s.up.stage == .held || s.up.stage == .wait
    let s1 := { s with tree.vinValid := true, tree.startReg := s.tree.startReg || unlocked, rtc.onBackup := false }
    if s1.up.stage = .off then
      State.enterStartup ((s1.addCause wakeVinBit).addCause wakeDormantBit)
    else if s1.up.stage = .wait then State.tryTimeZero { s1 with rtc.backupRun := false }
    else if s1.up.stage = .held then s1
    else if s1.rtc.backupRun ∧ s1.pwr.st ≠ .enterDormant ∧ ¬ s1.seq.hedge then s1.endBackupRun
    else State.countRace { s1 with rtc.vinBack := true } (if s1.pwr.st = .enterDormant ∧ s1.raceWindow then 1 else 0) 0
  else s

/-! ### The backup domain's supply (R421 to R423) -/

/-- The backup domain comes alive from no supply (R423). -/
def State.backupAlive (s : State) (vin : Bool) : State :=
  if s.rtc.alive then s
  else
    let r := { RtcState.reset with comp := s.rtc.comp, aliveAt := s.now, secondAt := s.now, vbakConn := s.rtc.vbakConn || !vin, onBackup := !vin
                                   resetN := s.rtc.resetN }
    { s with rtc := r, pwr := PwrState.reset, seq := SeqState.reset, tree.vinValid := vin, tree.startReg := vin
             up := { UpState.reset with stage := if s.rtc.resetN then .held else .wait, at_ := s.now } }

/-- VBAK falls through the cutoff (R421, R422). -/
def State.vbakCutoff (s : State) : State :=
  let s1 := { s with rtc.vbakConn := false }
  if s.tree.vinValid || !s.rtc.alive then s1 else s1.powerOff

/-- VBAK rises through the restore level (R421). -/
def State.vbakRestore (s : State) : State :=
  { s with rtc.vbakConn := true, rtc.onBackup := s.rtc.alive && !s.tree.vinValid }

/-! ### Ends of a delivery and of a backup run (R439, R440) -/

/-- 1.5 s of final delivery: rail-down at the next boundary, or at once with the scan stopped. -/
def State.deliveryLimit (s : State) : State :=
  match s.rtc.deliveryAt with
  | some t =>
    let s1 := s.reach (t + 49152 * cycle)
    if s1.rtc.deliveryDone || s1.scan.scanning || s1.seq.hedge || s1.flt.dark then s1 else s1.deliveryDown
  | none => s

/-- VBAK below 1.30 V for 1 ms: a backup run ends wherever its start-up stands (R439, R440). -/
def State.vbakLow (s : State) : State :=
  if s.seq.hedge || s.flt.dark then s
  else if s.rtc.deliveryAt.isSome then (if s.rtc.deliveryDone then s else s.abruptStop.deliveryDown)
  else if s.rtc.backupRun && !(s.pwr.st == .enterDormant) then (if s.e0Runs then s.abruptStop.enterUnwaited else s.enterDormant)
  else s

/-- A backup run ends once started and not already ending. -/
def State.runEnds (s : State) : Bool :=
  s.rtc.backupRun && s.e0Runs && !(s.pwr.st == .enterDormant) && !s.seq.hedge && !s.flt.dark

/-- 2 s with pigeonhole 0 DONE and no letter. -/
def State.backupIdleEnd (s : State) : State :=
  if s.runEnds && (s.pgh_ 0).state == .done then State.enterUnwaited (s.reach (s.rtc.quietAt + 2 * sclkHz)) else s

/-- 10 s after start-up completed. -/
def State.backupTimeEnd (s : State) : State :=
  match s.rtc.runDoneAt with
  | some t => if s.runEnds then State.enterUnwaited (s.reach (t + 10 * sclkHz)) else s
  | none => s

/-! ### RESET_N (R51, R487, R488) -/

/-- RESET_N's order with a panel rail up (R343); what meets it meanwhile does not turn it aside. -/
def State.beginResetOrder (s : State) : State :=
  let s1 := s.hedgeStop
  State.beginRailDown { s1 with rtc.resetDue := true, flt.react := none, flt.dark := false, up.firstUp := false, seq.run := .none, seq.steps := []
                                seq.place := 0, seq.after := .reset, pwr.change := none } .reset

/-- RESET_N counts as asserted: programming stops after the pulse in progress (R455, R462). -/
def State.resetAssert (s : State) : State :=
  if s.rtc.resetN then s
  else
    let s1 := { s with rtc.resetN := true }
    if !s.rtc.alive then s1
    else if s.up.stage = .off then State.enterReset ((s1.addCause wakeResetBit).addCause wakeDormantBit)
    else if !s.e0Runs then State.enterReset (s1.addCause wakeResetBit)
    else if s.resetOrder then s1
    else if s.rtc.deliveryAt.isSome then { s1 with rtc.resetDue := true }
    else if s.seq.hedge then
      let s2 := s1.addCause wakeResetBit
      if s.seq.hedgeStep = 6 then s2.enterReset else { s2 with rtc.resetDue := true }
    else
      let s2 := State.stopPulses { s1.addCause wakeResetBit with otp.supplyOk := false }
      if s.anyRail || !(s.seq.railStep == 0) then s2.beginResetOrder else s2.enterReset

/-- RESET_N released: a reset start-up, once the reset condition is reached. -/
def State.resetRelease (s : State) : State :=
  let s1 := { s with rtc.resetN := false }
  if s.up.stage = .held ∧ s.rtc.alive then s1.enterStartup else s1

end Sys2Proof.Machine
end

