-- ==== Sys2Proof/Machine/StartUp.lean ====
section
/-! DEFINITION. The steps of a start-up (22_start_up, R482 to R486; 20_otp_and_life_cycle, R456, R457; 03_straps, R62) and
the clock's events with the hedge's triggers (12_clock, R286 to R296; R341). -/

namespace Sys2Proof.Machine

/-! ### Up to lock -/

/-- Main domains held in reset after a failed integrity check (R457). -/
def State.otpFailed (s : State) : State :=
  let s1 := (s.raise fltOtpFail).mainReset
  { s1 with up := { UpState.reset with stage := .otpFail, at_ := s.now } }

/-- A seal asserted since the filter's start, found in Sealed or Stubble, is an opening (R461). -/
def State.openingAtDelivery (s : State) : State :=
  if s.acc.sealIn ∧ 2 ≤ s.lcNow ∧ s.counter ctrSeal < 1024 then { s with otp.openings := s.otp.openings + 1 } else s

/-- The shift delivery and its integrity check end: the critical words, corrected, have reached their users (R456, R457). -/
def State.delivered (s : State) (d : DeliverySense) : State :=
  if s.up.stage = .otp then
    let s0 := (s.reach (s.up.at_ + 65 * cycle)).senseFactory d.flips
    let s1 := { s0 with otp.trims := (List.range 63).map s0.factoryValue }
    if !s1.criticalOk then s1.otpFailed
    else
      let lc := BitVec.ofNat 2 (s1.counter ctrLife)
      State.openingAtDelivery { s1 with otp.lc := Trip.all lc, otp.patch := s1.counter ctrPatch, rtc.comp := Config.rtcComp s1.otp.trims
                                        up.stage := .straps, up.at_ := s1.now }
  else s

/-- VGH's pump mode: 0 for ×2, 1 for ×7/3, 2 for ×3 (R304). -/
def pumpMode (b : Nat) : Nat :=
  let row := railSetRow b
  let hp := row.getD 0 0
  let need := 103 * row.getD 3 0 + 200000
  if need ≤ 97 * 2 * hp then 0 else if 3 * need ≤ 97 * 7 * hp then 1 else 2

/-- Code of a charging current in tenths of mA as `RTC_CHG.CUR` has it (R419). -/
def chgCode (t : Nat) : Nat := [5, 10, 20, 50, 100, 200].idxOf t % 6

/-- The fields that take a strap's value at start-up (R65 to R76). Bin 15 of BAKSET has no element: it has no reserve (R72). -/
def State.takeStraps (s : State) : State :=
  { s with
    tree.railSet := Trip.all (BitVec.ofNat 4 (s.bin 5)), tree.pump := pumpMode (s.bin 5)
    seq.plan := Trip.all (BitVec.ofNat 4 (s.bin 10))
    panel.vcom := vmapIdx (fun _ (c : VcomCh) =>
      { c with trim := vcomStart (s.bin 6), trimWas := vcomStart (s.bin 6), code := vcomStart (s.bin 6) }) s.panel.vcom
    panel.words := timingOf none s.frameRows
    therm.ctl := BitVec.ofNat 32 s.budgetMw, therm.wbudNow := s.budgetMw, therm.w := s.budgetMw
    rtc.chgEn := true, rtc.full := false, rtc.chgCur := chgCode (bakTenths (s.bin 8))
    rtc.liveOk := s.rtc.liveOk && !(s.bin 8 == 15), rtc.wakeOk := s.rtc.wakeOk && !(s.bin 8 == 15)
    rtc.usable := if s.bin 8 = 15 then 0 else s.rtc.usable }

/-- The twelve bins latched in three copies, from four results each (R59 to R63, R68). -/
def State.strapsRead (s : State) (codes : Vector (Vector (BitVec 12) 4) 12) : State :=
  if s.up.stage = .straps then
    let raw := vmapIdx (fun _ c => strapRaw c) codes
    let s1 := s.reach (s.up.at_ + 673 * cycle)
    let bins := vmapIdx (fun _ (r : BitVec 14) => Trip.all (BitVec.ofNat 4 (strapBin r.toNat))) raw
    let margin := BitVec.ofNat 12 (sumTo 12 (fun k => bw (strapMargin (vget raw k).toNat) k))
    let s2 := { s1 with strap.bins := bins, strap.raw := raw, strap.margin := margin, up.stage := .pll, up.at_ := s1.now }
    let s3 := { s2.takeStraps with strap.rsvd := budgetReserved (s2.bin 4) }
    if s3.strap.rsvd then s3.raise fltStrapRsvd else s3
  else s

/-- Lock, after at least 32 cycles in phase: the core buck takes over, the first slow round begins, the boot is under way (R287,
R312, R482). -/
def State.locked (s : State) : State :=
  if s.up.stage = .pll ∧ s.clock.xtalOk then
    let s1 := s.reach (s.up.at_ + 32 * cycle)
    { s1 with clock.pllLock := true, tree.startReg := false, therm.slowOn := true, therm.slotAt := s1.now
              up.stage := .boot, up.at_ := s1.now }
  else s

/-- Reactions of the faults recorded before E0 ran begin now (R338, R475; DEDUCED, log 36). -/
def State.reactRecorded (s : State) : State :=
  ([0, 1, 2, 3, 5, 6, 14, 15, 21, 34, 42].filter s.sticky).foldl (fun t n => t.react (faultReaction n) n) s

/-- E0 runs; the watchdog counts (R341, R482). -/
def State.booted (s : State) : State :=
  if s.up.stage = .boot then
    let s1 := s.reach (s.up.at_ + 16384)
    (State.loadStores { s1 with up.stage := .e0, seq.kickAt := some s1.now } (fun e => e == 0)).reactRecorded
  else s

/-! ### E0's work (R482) -/

/-- Window descriptor, key and printed counts read at boot (R256 to R258, R273). -/
def State.readWindow (s : State) : State :=
  let e := s.counter ctrEpoch
  let v := s.counter ctrReprov
  let ok := s.descRead v && s.descValid (s.descSlot v)
  let s1 := { s with rw.present := ok, rw.desc := s.descSlot v, rw.epoch := e, rw.key := s.keyOf e
                     rw.postSeal := s.counter ctrSeal, rw.postRp := v, rw.firstDraw := ok }
  if !ok && decide (2 ≤ s.lcNow) then s1.raise fltRwGeometry else s1

/-- The re-check of the kept record begins, or ends at once (R486); the floor in force is the kept one (R268). -/
def State.beginRecheck (s : State) : State :=
  match s.keptSlot with
  | some k => { s with rw.recheck := true, rw.floor := k.floor, rw.lastVerified := s.now }
  | none => s

/-- VIN's loss or a backup run's end has abandoned the start-up: it goes no further (R440, R489). -/
def State.abandoned (s : State) : Bool := s.pwr.st == .enterDormant && s.pwr.noWait

/-- E0's cycle at L + 36,864: patches, memories, ROM almanac, drills' test, re-check, healing, plan. -/
def State.e0Start (s : State) : State :=
  if s.up.stage = .e0 ∧ s.clock.pllLock ∧ ¬ s.seq.hedge ∧ ¬ s.abandoned then
    let s1 := s.reach (s.up.at_ + 36864)
    if s1.patchesOk then
      let s2 := { s1 with up.stage := .linkWait, pwr.st := .run, mem.tickBase := some s1.now, alm.passAt := s1.now
                          panel.words := timingOf none s1.frameRows, drills.startTest := true, otp.healDue := !s1.healOrder.isEmpty
                          otp.secondary := (List.range 192).map (fun k => s1.factoryValue (64 + k)) }
      (((s2.loadStores (fun e => e == 1)).clearStores (fun e => decide (2 ≤ e))).readWindow.beginRecheck.otpNext).planPowerUp
    else s1.otpFailed
  else s

/-- E1 brings the link up, closed (R375, R482). -/
def State.linkUp (s : State) : State :=
  if s.up.stage = .linkWait ∧ ¬ s.seq.hedge ∧ ¬ s.abandoned then
    let s1 := s.reach (s.up.at_ + 53248)
    { s1 with up.stage := .plan, link.version := 0 }
  else s

/-! ### Completion (R269, R433, R484) -/

/-- The first request falls due at the later of completion and the end of the re-check (R486). -/
def State.firstRequest (s : State) : State :=
  if s.up.stage == .complete && !s.rw.recheck && s.rw.requestDue.isNone && s.requestHolds then
    { s with rw.requestDue := some s.now }
  else s

/-- The gauge test at the end of a start-up: the charger pauses; bin 15 has none, nor has a start-up without VIN (R433, R434). -/
def State.beginGauge (s : State) : State :=
  if s.bin 8 = 15 ∨ s.rtc.testing.isSome ∨ ¬ s.tree.vinValid then s
  else { s with rtc.testing := some s.now, rtc.gaugeAt := some s.now, rtc.charging := false }

/-- Start-up is complete. -/
def State.completed (s : State) : State :=
  if s.up.stage == .plan && s.up.planDone && !s.seq.hedge && !s.resetOrder && !s.abandoned then
    let s1 := { s with up.stage := .complete, up.rstOut := false, rtc.quietAt := s.now
                       rtc.runDoneAt := if s.rtc.backupRun then some s.now else none }
    s1.beginGauge.firstRequest
  else s

/-! ### The clock (R286, R288, R294 to R296, R312) -/

/-- The crystal counts as running, 1,024 quiet cycles after it could begin. The calendar goes on with the part of the second
it held; a takeover's relock is attempted, whatever became of an earlier one (R286, R288, R295, R296). -/
def State.xtalStarts (s0 : State) : State :=
  if s0.rtc.alive ∧ ¬ s0.clock.xtalOk then
    let s := s0.reach ((if s0.clock.xtalStopped then s0.rtc.stopAt else s0.rtc.aliveAt) + 1024 * cycle)
    let a := if s.clock.xtalStopped then s.rtc.aliveAt + (s.now - s.rtc.stopAt) else s.rtc.aliveAt
    let s1 := { s with clock.xtalOk := true, clock.xtalStopped := false, rtc.secondAt := s.now - s.rtc.subHeld
                       rtc.subHeld := 0, rtc.aliveAt := a
                       clock.relock := if s.clock.pllLock then s.clock.relock else .none }
    s1.tryTimeZero.tryRelock
  else s0

/-- The start-up goes back to the wait of R286; its causes stay those of the start-up to come (R489; log 29). -/
def State.backToWait (s : State) : State :=
  let s1 := s.mainReset
  State.tryTimeZero { s1 with rtc.causes := s.rtc.causes ||| s.pwr.wake, up := { UpState.reset with stage := .wait, at_ := s.now } }

/-- The crystal-loss detector fires; `real`: the crystal has stopped, else the fault was injected (R295, R477, R489). A takeover
that began in the same crystal cycle runs from the RC count, an earlier one moves to it at its next step (R296). -/
def State.xtalLost (s : State) (real : Bool) : State :=
  if s.rtc.alive ∧ s.clock.xtalOk then
    let s1 := if real then
        { s with clock.xtalOk := false, clock.xtalStopped := true, rtc.stopAt := s.now, rtc.subHeld := s.now - s.rtc.secondAt
                 clock.relock := if s.clock.relock = Relock.running then Relock.none else s.clock.relock }
      else s
    let s2 := s1.raiseAll [fltXtal, fltXtalStop]
    if s.e0Runs then
      (if s2.seq.hedge ∧ s.seq.hedgeAt + cycle ≤ s.now then
        { s2 with clock.rcStep := s2.clock.rcStep.or (some (s2.hedgeStepNow * 16 + s2.seq.railStep)) }
      else { s2 with clock.onRc := true }).takeover 1
    else match s.up.stage with
      | .otp | .straps | .pll | .boot => if real then s2.backToWait else s2
      | _ => s2
  else s

/-- Loss of lock: the hedge; before E0 runs the start-up goes back to the PLL step. OTP programming stops
(R288, R296, R452, R462). -/
def State.lockLost (s : State) : State :=
  if s.clock.pllLock then
    let s1 := (State.stopPulses { s with clock.pllLock := false }).raise fltPll
    if s.e0Runs then s1.takeover 2
    else { s1 with up.stage := .pll, up.at_ := s.now, therm.slowOn := false }
  else s

/-- The relock of a takeover ends in lock, after at least 32 cycles in phase, or 2.0 ms on without it (R287, R288, R312). Where it
comes after an earlier one that failed, the start regulator, which then holds VCORE, goes on: the spec states no second hand-over to
the core buck (DESIGN CHOICE, log 126). -/
def State.relocked (s : State) : State :=
  if s.clock.relock = .running ∧ s.clock.xtalOk then
    { s.reach (s.clock.relockAt + 32 * cycle) with clock.relock := .done, clock.pllLock := true }
  else s
def State.notRelocked (s : State) : State :=
  if s.clock.relock = .running then
    { s.reach (s.clock.relockAt + usToSclk 2000) with clock.relock := .failed, tree.startReg := true }
  else s

/-- No kick for 2,097 crystal cycles (R341). -/
def State.watchdog (s : State) : State :=
  match s.seq.kickAt with
  | some t => if s.e0Runs then (s.reach (t + 2097 * cycle)).takeover 0 else s
  | none => s

end Sys2Proof.Machine
end

