-- ==== Sys2Proof/Machine/Rtc.lean ====
section
/-! DEFINITION. The calendar, its alarms and rate compensation, the charger and the reserve gauge (19_rtc_and_backup, R424 to
R434). -/

namespace Sys2Proof.Machine

/-! ### The calendar (R424 to R426) -/

def leapYear (y : Nat) : Bool := y % 4 == 0

/-- Length of a month, 1 to 12, of year 2000 + y. -/
def monthDays (y m : Nat) : Nat :=
  if m = 2 ∧ leapYear y then 29 else [31, 28, 31, 30, 31, 30, 31, 31, 30, 31, 30, 31].getD (m - 1) 31

/-- WEEKDAY of a date (R425). -/
def weekdayOf (y m d : Nat) : Nat :=
  let cum := [0, 31, 59, 90, 120, 151, 181, 212, 243, 273, 304, 334].getD (m - 1) 0
  let n := 365 * y + (y + 3) / 4 + cum + d - 1
  let n' := if 2 < m ∧ leapYear y then n + 1 else n
  (n' + 5) % 7 + 1

def Calendar.withDay (c : Calendar) : Calendar := { c with weekday := weekdayOf c.year c.month c.day }

/-- The date one day on; after 2099-12-31 comes 2000-01-01. -/
def Calendar.nextDay (c : Calendar) : Calendar :=
  Calendar.withDay (
    if c.day < monthDays c.year c.month then { c with day := c.day + 1 }
    else if c.month < 12 then { c with day := 1, month := c.month + 1 }
    else { c with day := 1, month := 1, year := (c.year + 1) % 100 })

/-- The date one day back. -/
def Calendar.prevDay (c : Calendar) : Calendar :=
  Calendar.withDay (
    if 1 < c.day then { c with day := c.day - 1 }
    else if 1 < c.month then { c with day := monthDays c.year (c.month - 1), month := c.month - 1 }
    else { c with day := 31, month := 12, year := (c.year + 99) % 100 })

/-- One second on. -/
def Calendar.second (c : Calendar) : Calendar :=
  if c.sec < 59 then { c with sec := c.sec + 1 }
  else if c.min < 59 then { c with sec := 0, min := c.min + 1 }
  else if c.hour < 23 then { c with sec := 0, min := 0, hour := c.hour + 1 }
  else Calendar.nextDay { c with sec := 0, min := 0, hour := 0 }

/-- A net of summer-time commands in hours (R426). -/
def Calendar.step (c : Calendar) (n : Int) : Calendar :=
  let h := (c.hour : Int) + n
  let c1 := { c with hour := (h % 24).toNat }
  let d := Int.fdiv h 24
  if 0 ≤ d then Nat.repeat Calendar.nextDay d.toNat c1 else Nat.repeat Calendar.prevDay (-d).toNat c1

/-- LOAD from the staging words (R425); a YEAR above 99 does not exist (log 30). -/
def stagedCal (t d : Word) : Option Calendar :=
  let c : Calendar := { sec := fld t 0 6, min := fld t 8 6, hour := fld t 16 5, day := fld d 0 5, month := fld d 8 4
                        year := fld d 16 7, weekday := 0 }
  if c.sec ≤ 59 ∧ c.min ≤ 59 ∧ c.hour ≤ 23 ∧ 1 ≤ c.month ∧ c.month ≤ 12 ∧ 1 ≤ c.day ∧ c.day ≤ monthDays c.year c.month
      ∧ c.year ≤ 99 then some c.withDay
  else none

/-! ### Rate compensation (R429, R430) -/

/-- ADJ of a temperature in 1/16 °C under `RTC_COMP`. -/
def adjOf (comp : Word) (temp : Int) : Int :=
  let d := temp - 16 * sgn 8 (fld comp 24 8)
  let c : Int := fld comp 16 8
  clampI (-2097) 2097 (roundRat (c * d * d * 1000) (256 * 476837) - sgn 16 (fld comp 0 16))

/-- Crystal cycles of second s of a period. -/
def secondCycles (adj : Int) (k : Nat) : Nat :=
  let a := adj.natAbs
  let n := a * (k + 1) / 64 - a * k / 64
  if 0 ≤ adj then 32768 - n else 32768 + n

/-- At a period's first tick TEMP follows T_DIE of the latest slow round, where there is one (R430; log 31). -/
def State.newPeriod (s : State) : State :=
  let t := if 1 ≤ s.therm.rounds then s.tDie.getD s.rtc.temp else s.rtc.temp
  { s with rtc.period := 0, rtc.temp := t, rtc.adj := adjOf s.rtc.comp t }

/-! ### Alarms (R427, R428) -/

/-- Unmasked fields equal (R427). -/
def alarmMatches (c : Calendar) (t d : Word) : Bool :=
  bit d 31
    && (bit t 21 || fld t 16 5 == c.hour) && (bit t 14 || fld t 8 6 == c.min) && (bit t 6 || fld t 0 6 == c.sec)
    && (bit d 19 || fld d 16 3 == c.weekday) && (bit d 12 || fld d 8 4 == c.month) && (bit d 5 || fld d 0 5 == c.day)

/-- What matched alarms do beyond their flags (R428); nothing in the crystal cycle of VIN's loss (R441). -/
def State.alarmEffect (s : State) (a : BitVec 2) : State :=
  if a = 0 ∨ (!s.tree.vinValid ∧ s.now < s.rtc.vinLostAt + cycle) then s
  else if s.up.stage = .off then (if s.rtc.alive then s.alarmStart a else s)
  else if s.up.stage = .wait then
    if !s.tree.vinValid && !s.rtc.backupRun && s.backupWakes && !s.rtc.resetN then
      let s1 := if a.getLsbD 0 then s.addCause wakeAlarm1Bit else s
      let s2 := if a.getLsbD 1 then s1.addCause wakeAlarm2Bit else s1
      State.tryTimeZero { s2 with rtc.backupRun := true, rtc.path := true, rtc.isolated := true }
    else s
  else
    let s1 := s.countRace (if s.raceWindow then 1 else 0) 0
    if s.pwr.st = .enterDormant ∧ s.pwr.committed then { s1 with pwr.heldAlarm := s1.pwr.heldAlarm ||| a } else s1.attend

/-- The alarm flags that a match sets, against a clear of its crystal cycle (R13, R420). -/
def State.flagAlarms (s : State) (a : BitVec 2) : State := if a = 0 then s else s.hwSet 0xC15 (a.setWidth 32)

/-- A completed second (R424 to R430). A summer-time command that landed in this cycle waits for the next (R426). -/
def State.rtcTick (s : State) : State :=
  if s.rtc.alive && s.clock.xtalOk then
    let s1 := s.reach (s.rtc.secondAt + secondCycles s.rtc.adj s.rtc.period * cycle)
    let fresh := decide (s1.now ≤ s1.rtc.dstAt)
    let c := s1.rtc.cal.second.step (if fresh then s1.rtc.dst else s1.rtc.dst + s1.rtc.dstNew)
    let m1 := alarmMatches c s1.rtc.alm1 s1.rtc.alm1D
    let m2 := alarmMatches c s1.rtc.alm2 s1.rtc.alm2D
    let s2 := { s1 with rtc.cal := c, rtc.secondAt := s1.now, rtc.dst := 0, rtc.dstNew := if fresh then s1.rtc.dstNew else 0
                        rtc.dstPending := s1.rtc.dstPending && fresh
                        rtc.alm1F := s1.rtc.alm1F || m1, rtc.alm2F := s1.rtc.alm2F || m2 }
    let s3 := if s2.rtc.period = 63 then s2.newPeriod else { s2 with rtc.period := s2.rtc.period + 1 }
    let a := BitVec.ofNat 2 (bw m1 0 + bw m2 1)
    (s3.flagAlarms a).alarmEffect a
  else s

/-! ### LOAD and the summer-time commands (R419, R425, R426) -/

/-- A summer-time command of n hours lands. -/
def State.dstLand (s : State) (n : Int) : State :=
  let fresh := decide (s.now ≤ s.rtc.dstAt)
  { s with rtc.dst := if fresh then s.rtc.dst else s.rtc.dst + s.rtc.dstNew
           rtc.dstNew := if fresh then s.rtc.dstNew + n else n, rtc.dstAt := s.now, rtc.dstPending := true }

/-- The tick that falls due in the crystal cycle in which a LOAD lands comes before it, without the summer-time commands that
waited for it: the LOAD cancels them (R420, R425, R441). -/
def State.tickFirst (s : State) : State :=
  let due := s.rtc.secondAt + secondCycles s.rtc.adj s.rtc.period * cycle
  if due ≤ s.now ∧ s.now < due + cycle then State.rtcTick { s with rtc.dst := 0, rtc.dstNew := 0, rtc.dstPending := false } else s

/-- `RTC_CTL.OP` lands (R419, R425, R426): LOAD takes the calendar, and a match of its cycle is taken on the time before. -/
def State.rtcOp (s : State) (op : Nat) : State :=
  if op = 1 then
    match stagedCal s.rtc.stageT s.rtc.stageD with
    | some c => { s.tickFirst with rtc.cal := c, rtc.secondAt := s.now, rtc.dst := 0, rtc.dstNew := 0, rtc.dstPending := false }
    | none => { s.hwSet 0xC15 16 with rtc.badSet := true }
  else if op = 2 then s.dstLand 1
  else if op = 3 then s.dstLand (-1)
  else s

/-! ### Charger and gauge (R431 to R434) -/

/-- FULL is reached. -/
def State.chargerFull (s : State) : State := if s.rtc.charging then State.chargeFollow { s with rtc.full := true } else s

/-- Charging resumes; a charge that is never stopped does not. -/
def State.chargingResumes (s : State) : State :=
  if s.rtc.full && s.chargerOn && !s.nimh then State.chargeFollow { s with rtc.full := false } else s

/-- Time from one gauge test to the next: 86,400 s for primary lithium (R433). -/
def gaugeEvery (b : Nat) : Nat := (if b ≤ 1 then 86400 else 64) * sclkHz

/-- A gauge test falls due while VIN is valid (R433). -/
def State.gaugeStart (s : State) : State :=
  match s.rtc.gaugeAt with
  | some t =>
    if s.rtc.alive && s.tree.vinValid && s.rtc.testing.isNone && s.rtc.deliveryAt.isNone && !(s.bakBin == 15) then
      let s1 := s.reach (t + gaugeEvery s.bakBin)
      { s1 with rtc.testing := some s1.now, rtc.gaugeAt := some s1.now, rtc.charging := false }
    else s
  | none => s

/-- Supercapacitor elements. -/
def bakSuper (b : Nat) : Bool := decide (9 ≤ b) && decide (b ≤ 13)

/-- USABLE in mJ from the readings in 2 mV units (R433); the spec states no rounding (log 4). -/
def usableOf (b v0 v1 v20 : Nat) : Nat :=
  let a : Int := 2 * v0
  let drop : Int := 4 * ((v0 : Int) - v1)
  if b = 15 then 0
  else if bakSuper b then
    let e := 1300 + drop
    let dv : Int := max (2 * ((v1 : Int) - v20)) 4
    if a ≤ e then 0 else min 65535 (roundFree 10 (38 * (a * a - e * e)) (10000 * dv.toNat)).toNat
  else if 1400 ≤ a - drop then 65535 else 0

/-- A gauge test ends, its readings 12 bits of 2 mV; with BAKSET bin 15 USABLE is 0 (R433, R504). -/
def State.gaugeDone (s : State) (v0 v1 v20 : Nat) : State :=
  match s.rtc.testing with
  | some t =>
    let s1 := s.reach (t + usToSclk 20000)
    let u := usableOf s1.bakBin (min 4095 v0) (min 4095 v1) (min 4095 v20)
    State.chargeFollow { s1 with rtc.testing := none, rtc.gVbak := min 4095 v0, rtc.usable := u, rtc.liveOk := decide (2000 ≤ u)
                                 rtc.wakeOk := decide (12000 ≤ u) }
  | none => s

end Sys2Proof.Machine
end

