-- ==== Sys2Proof/Machine/Map.lean ====
section
/-! DEFINITION. The register map (18_register_map and the register tables of the other chapters): which register lies at an
address, its domain, its guard group, and which of its bits are written, cleared by a 1, or reserved; service and full
decode (R391 to R393, R407, R408). -/

namespace Sys2Proof.Machine

/-- The registers, arrays by their place. -/
inductive Reg where
  | idPart | idRev | idCaps | idSerial (k : Nat) | idUptime (k : Nat)
  | strapBin0 | strapBin1 | strapFlag | strapVote | strapRaw (k : Nat)
  | regStat | regVote | secKey | secStat | secWhy
  | otpAddr | otpData | otpCtl | otpRd | otpStat | lcCtl | lcStat | pmCnt (k : Nat)
  | vcomEn | vcomStat | goaStat | hlStat | vcomGroup | pnlTime (k : Nat) | vcomTrim (n : Nat) | vcomTrimAll | vcomTrimGroup
  | hlOhm (n : Nat) | qcSel | qcSeg (k : Nat)
  | scanRowT | scanFrame | scanStat | drlCtl | drlTest | scanCnt (k : Nat) | fsDedLoc | drlStat (i : Nat) | fsBankOwn (b : Nat)
  | novStat | novAttn | novCfg | novErr0 | novErr1 | novCnt
  | fltStat | fltFirst | fltSticky (k : Nat) | fltBak | fltInj | fltInjStat
  | almCtl | almStat | almInfo | almId | almRecheck
  | pghIndex | pghDesc (k : Nat) | pghCtl | pghCtlAll | pghCtlGroup | pghCfg | pghLoad | pghEavail | pghCommit
  | pghLat (k : Nat) | mailFree | pghDone (j : Nat)
  | thermCtl | thermStat | thermEase | thermEtot | thermNtc (i : Nat) | thermDie | thermResid | thermCfgAll | thermCfgGroup
  | thermGroup (k : Nat) | thermDiode (j : Nat) | thermTemp (p : Nat) | thermEn (p : Nat) | thermCfg (p : Nat)
  | ldgStat | ldgBound | ldgSatCnt | ldgPerrCnt | ldgSum (k : Nat) | ldgPeak | ldgComp | ldgCellSel | ldgCell
  | rwStat | rwSeq | rwSession | rwPost | rwDesc (k : Nat) | rwRxcnt | rwAbandon | rwRb | rwRbLast | rwFlag | rwCfg
  | rwRecSel | rwRec
  | clkStat | clkRef | rtcTime | rtcDate | rtcStageT | rtcStageD | rtcCtl | rtcStat | rtcAlm (k : Nat)
  | rtcComp | rtcAdj | rtcChg | rtcGauge
  | railSet | railTrim (k : Nat) | railStat | pwrMeas (k : Nat)
  | auxCtl (n : Nat) | auxAll | auxGroupAlias | auxGroup | lswCtl (n : Nat) | lswAll | lswGroupAlias | lswGroup
  | ledDim (n : Nat) | ledAll | ledGroupAlias | ledGroup | ledStat | ledPwr
  | seqStat | seqTime | supStat | supFirst | hedgeStat
  | pwrCtl | pwrStat | pwrWake | pwrMatch | pwrHoldT | pwrRace | pwrRefuse (k : Nat)
deriving DecidableEq, Repr, Inhabited

/-- Where a register lies (R409); `drills`: answered by the drills' status ports (R417). -/
inductive Dom where
  | core | drills | memory | house | drive | backup
deriving DecidableEq, Repr, Inhabited

/-- A row of the map: `n` registers from an address. -/
structure RegRow where
  lo : Nat
  n : Nat
  make : Nat → Reg
  dom : Dom
  /-- Guard group (R400). -/
  key : Option Group
  /-- Bits of RW, RWK and POSTED fields; W1C bits; reserved bits, in 32. -/
  rw : Nat
  w1c : Nat
  rsv : Nat
  /-- It has a WO field. -/
  wo : Bool

/-- A row all of whose fields are read-only. -/
def ro (lo n : Nat) (make : Nat → Reg) (dom : Dom) (rsv : Nat) : RegRow :=
  { lo := lo, n := n, make := make, dom := dom, key := none, rw := 0, w1c := 0, rsv := rsv, wo := false }
/-- A row with written bits and bits cleared by a 1. -/
def rwRow (lo n : Nat) (make : Nat → Reg) (dom : Dom) (w w1c rsv : Nat) : RegRow :=
  { lo := lo, n := n, make := make, dom := dom, key := none, rw := w, w1c := w1c, rsv := rsv, wo := false }
/-- A key-guarded row. -/
def keyRow (lo n : Nat) (make : Nat → Reg) (dom : Dom) (g : Group) (w rsv : Nat) : RegRow :=
  { lo := lo, n := n, make := make, dom := dom, key := some g, rw := w, w1c := 0, rsv := rsv, wo := false }
/-- A row of WO fields. -/
def woRow (lo n : Nat) (make : Nat → Reg) (dom : Dom) (rsv : Nat) : RegRow :=
  { lo := lo, n := n, make := make, dom := dom, key := none, rw := 0, w1c := 0, rsv := rsv, wo := true }

/-- Blocks 0x0 and 0x1 (R412, R414). -/
def rowsId : List RegRow :=
  [ ro 0x000 1 (fun _ => .idPart) .core 0, ro 0x001 1 (fun _ => .idRev) .core 0, ro 0x002 1 (fun _ => .idCaps) .core 0x80
  , ro 0x004 2 .idSerial .core 0, ro 0x008 1 (fun _ => .idUptime 0) .backup 0xFFFF0000
  , ro 0x009 1 (fun _ => .idUptime 1) .backup 0, ro 0x00A 1 (fun _ => .idUptime 2) .backup 0xFFFF0000
  , ro 0x100 1 (fun _ => .strapBin0) .house 0, ro 0x101 1 (fun _ => .strapBin1) .house 0xFFFF0000
  , ro 0x102 1 (fun _ => .strapFlag) .house 0xFFFEF000, ro 0x103 1 (fun _ => .strapVote) .house 0xFFFF0000
  , ro 0x110 12 .strapRaw .house 0xFFFFC000 ]

/-- Block 0x2 (R406, R415). -/
def rowsAccess : List RegRow :=
  [ ro 0x200 1 (fun _ => .regStat) .core 0x7FFF0000, ro 0x201 1 (fun _ => .regVote) .core 0xC000
  , woRow 0x210 1 (fun _ => .secKey) .core 0xFFFF0000, ro 0x211 1 (fun _ => .secStat) .core 0xFFFC0000
  , ro 0x212 1 (fun _ => .secWhy) .core 0xFFFFFF00
  , rwRow 0x220 1 (fun _ => .otpAddr) .house 0x703FF 0 0xFFF8FC00, rwRow 0x221 1 (fun _ => .otpData) .house 0xFFFFFFFF 0 0
  , keyRow 0x222 1 (fun _ => .otpCtl) .house .otp 7 0xFFFFFFF8, ro 0x223 1 (fun _ => .otpRd) .house 0
  , ro 0x224 1 (fun _ => .otpStat) .house 0x3FFF800
  , keyRow 0x230 1 (fun _ => .lcCtl) .house .otp 3 0xFFFFFFFC, ro 0x231 1 (fun _ => .lcStat) .house 0xFFFFFEFC
  , ro 0x232 3 .pmCnt .house 0 ]

/-- Block 0x3 (R416). -/
def rowsPanel : List RegRow :=
  [ rwRow 0x300 1 (fun _ => .vcomEn) .house 0xFF 0 0xFFFFFF00, rwRow 0x301 1 (fun _ => .vcomStat) .house 0 0xFF00 0x7FFF0000
  , rwRow 0x302 1 (fun _ => .goaStat) .house 0 0x80000000 0x7FFFFFF0, ro 0x303 1 (fun _ => .hlStat) .house 0xFF00
  , rwRow 0x304 1 (fun _ => .vcomGroup) .house 0xFF 0 0xFFFFFF00, ro 0x305 2 .pnlTime .house 0
  , keyRow 0x308 8 .vcomTrim .house .trims 0x3FF 0xFFFFFC00, keyRow 0x310 1 (fun _ => .vcomTrimAll) .house .trims 0x3FF 0
  , keyRow 0x311 1 (fun _ => .vcomTrimGroup) .house .trims 0x3FF 0, ro 0x318 8 .hlOhm .house 0xFFFFF000
  , rwRow 0x320 1 (fun _ => .qcSel) .house 0x707 0 0xFFFFF8F8, ro 0x328 8 .qcSeg .drive 0xFF000000 ]

/-- Blocks 0x4 and 0x5 (R389, R417). -/
def rowsScan : List RegRow :=
  [ ro 0x400 1 (fun _ => .scanRowT) .core 0xFFFC0000, ro 0x401 1 (fun _ => .scanFrame) .core 0
  , ro 0x402 1 (fun _ => .scanStat) .core 0xFFFF00FC, rwRow 0x403 1 (fun _ => .drlCtl) .core 1 0 0xFFFFFFFE
  , rwRow 0x404 1 (fun _ => .drlTest) .core 0xF 0 0xFFFFF8F0, ro 0x405 4 .scanCnt .core 0
  , ro 0x409 1 (fun _ => .fsDedLoc) .core 0xFC00F800, ro 0x412 14 .drlStat .drills 0xFFFFF808
  , ro 0x480 128 .fsBankOwn .memory 0xFFFF00F0
  , ro 0x500 1 (fun _ => .novStat) .core 0xF9000C, rwRow 0x501 1 (fun _ => .novAttn) .core 0 0x18 0xFFFFFFE0
  , rwRow 0x502 1 (fun _ => .novCfg) .core 3 0 0xFFFFFFFC, ro 0x503 1 (fun _ => .novErr0) .core 0
  , ro 0x504 1 (fun _ => .novErr1) .core 0, ro 0x505 1 (fun _ => .novCnt) .core 0 ]

/-- Blocks 0x6 and 0x7 (R190, R418). -/
def rowsFault : List RegRow :=
  [ ro 0x600 1 (fun _ => .fltStat) .house 0x7FFFFFE0, rwRow 0x601 1 (fun _ => .fltFirst) .house 0 0x80000000 0x7F000080
  , rwRow 0x608 1 (fun _ => .fltSticky 0) .house 0 0xFFFFFF 0xFF000000
  , rwRow 0x609 1 (fun _ => .fltSticky 1) .house 0 0xFFFFF 0xFFF00000
  , rwRow 0x60B 1 (fun _ => .fltBak) .backup 0 0x1F 0xFFFFFFE0
  , keyRow 0x610 1 (fun _ => .fltInj) .house .test 0xFFFF017F 0xFE80, ro 0x611 1 (fun _ => .fltInjStat) .house 0
  , keyRow 0x700 1 (fun _ => .almCtl) .core .almanac 3 0xFFFFFFFC, ro 0x701 1 (fun _ => .almStat) .core 0
  , ro 0x702 1 (fun _ => .almInfo) .core 0xFFF00000, ro 0x703 1 (fun _ => .almId) .core 0
  , ro 0x704 1 (fun _ => .almRecheck) .core 0xFFFF0000 ]

/-- Blocks 0x8 and 0x9 (R218, R244). -/
def rowsPgh : List RegRow :=
  [ rwRow 0x800 1 (fun _ => .pghIndex) .core 0xFFF 0 0xFFFFF000, ro 0x801 4 .pghDesc .core 0
  , woRow 0x805 1 (fun _ => .pghCtl) .core 0xFFFFFFFC, woRow 0x806 1 (fun _ => .pghCtlAll) .core 0
  , woRow 0x807 1 (fun _ => .pghCtlGroup) .core 0, rwRow 0x808 1 (fun _ => .pghCfg) .core 0x1F 0 0xFFFFFFE0
  , ro 0x809 1 (fun _ => .pghLoad) .core 0xF0001000, ro 0x80A 1 (fun _ => .pghEavail) .core 0
  , ro 0x80B 1 (fun _ => .pghCommit) .core 0, ro 0x810 8 .pghLat .core 0, ro 0x818 1 (fun _ => .mailFree) .core 0xE000E000
  , rwRow 0x840 64 .pghDone .core 0 0xFFFFFFFF 0
  , rwRow 0x900 1 (fun _ => .thermCtl) .core 0xFFFF 0 0xFFFF0000, rwRow 0x901 1 (fun _ => .thermStat) .core 0 0x80 0xFFFF00
  , ro 0x902 1 (fun _ => .thermEase) .core 0, ro 0x903 1 (fun _ => .thermEtot) .core 0
  , ro 0x904 4 .thermNtc .core 0x20000000, ro 0x908 1 (fun _ => .thermDie) .core 0
  , ro 0x909 1 (fun _ => .thermResid) .core 0xFFC0, rwRow 0x910 1 (fun _ => .thermCfgAll) .core 1 0 0
  , rwRow 0x911 1 (fun _ => .thermCfgGroup) .core 1 0 0, rwRow 0x912 2 .thermGroup .core 0xFFFFFFFF 0 0
  , ro 0x920 6 .thermDiode .core 0x7FFFE000, ro 0x940 64 .thermTemp .core 0x7F0E000, ro 0x980 64 .thermEn .core 0
  , rwRow 0x9C0 64 .thermCfg .core 1 0 0xFFFFFFFE ]

/-- Blocks 0xA and 0xB (R255, R284). -/
def rowsLedger : List RegRow :=
  [ rwRow 0xA00 1 (fun _ => .ldgStat) .core 0 7 0xFFFFFFE0, ro 0xA01 1 (fun _ => .ldgBound) .core 0xFFFFF800
  , ro 0xA02 1 (fun _ => .ldgSatCnt) .core 0, ro 0xA03 1 (fun _ => .ldgPerrCnt) .core 0
  , ro 0xA04 3 .ldgSum .core 0xFFF80000, ro 0xA07 1 (fun _ => .ldgPeak) .core 0, ro 0xA08 1 (fun _ => .ldgComp) .core 0
  , rwRow 0xA10 1 (fun _ => .ldgCellSel) .core 0x7FFFF 0 0xFFF80000, ro 0xA11 1 (fun _ => .ldgCell) .memory 0xFFFE0000
  , ro 0xB00 1 (fun _ => .rwStat) .core 0xF000F000, ro 0xB01 1 (fun _ => .rwSeq) .core 0
  , ro 0xB02 1 (fun _ => .rwSession) .core 0, ro 0xB03 1 (fun _ => .rwPost) .core 0xF80080E0
  , ro 0xB08 8 .rwDesc .core 0, ro 0xB10 1 (fun _ => .rwRxcnt) .core 0, ro 0xB11 1 (fun _ => .rwAbandon) .core 0xFFFF0000
  , ro 0xB12 1 (fun _ => .rwRb) .core 0, ro 0xB13 1 (fun _ => .rwRbLast) .core 0xFFF80000
  , rwRow 0xB14 1 (fun _ => .rwFlag) .core 0 0x3F 0xFFFFFFC0, rwRow 0xB15 1 (fun _ => .rwCfg) .core 1 0 0xFFFFFFFE
  , rwRow 0xB20 1 (fun _ => .rwRecSel) .core 0x7FF 0 0xFFFFF800, ro 0xB21 1 (fun _ => .rwRec) .core 0 ]

/-- Block 0xC (R298, R419). -/
def rowsClock : List RegRow :=
  [ ro 0xC00 1 (fun _ => .clkStat) .house 0xFF80, ro 0xC01 1 (fun _ => .clkRef) .house 0
  , ro 0xC10 1 (fun _ => .rtcTime) .backup 0xFFE0C0C0, ro 0xC11 1 (fun _ => .rtcDate) .backup 0xF880F0E0
  , rwRow 0xC12 1 (fun _ => .rtcStageT) .backup 0x1F3F3F 0 0xFFE0C0C0
  , rwRow 0xC13 1 (fun _ => .rtcStageD) .backup 0x7F0F1F 0 0xFF80F0E0
  , woRow 0xC14 1 (fun _ => .rtcCtl) .backup 0xFFFFFFFC, rwRow 0xC15 1 (fun _ => .rtcStat) .backup 0 0x13 0x7FFFFFE0
  , rwRow 0xC16 1 (fun _ => .rtcAlm 0) .backup 0x3F7F7F 0 0xFFC08080
  , rwRow 0xC17 1 (fun _ => .rtcAlm 1) .backup 0x800F1F3F 0 0x7FF0E0C0
  , rwRow 0xC18 1 (fun _ => .rtcAlm 2) .backup 0x3F7F7F 0 0xFFC08080
  , rwRow 0xC19 1 (fun _ => .rtcAlm 3) .backup 0x800F1F3F 0 0x7FF0E0C0
  , ro 0xC1A 1 (fun _ => .rtcComp) .backup 0, ro 0xC1B 1 (fun _ => .rtcAdj) .backup 0
  , rwRow 0xC1C 1 (fun _ => .rtcChg) .backup 0x71 0 0xFFFFFC8E, ro 0xC1D 1 (fun _ => .rtcGauge) .backup 0xC0000 ]

/-- Block 0xD (R328). -/
def rowsPower : List RegRow :=
  [ ro 0xD00 1 (fun _ => .railSet) .house 0xFFFFFFC0, keyRow 0xD01 8 .railTrim .house .trims 0x7F 0xFFFFFF80
  , ro 0xD09 1 (fun _ => .railStat) .house 0x7FF00000, ro 0xD2A 22 .pwrMeas .house 0xFFF00000
  , rwRow 0xD40 4 .auxCtl .house 1 0x20 0xFFFFFFC0, rwRow 0xD44 1 (fun _ => .auxAll) .house 1 0x20 0
  , rwRow 0xD45 1 (fun _ => .auxGroupAlias) .house 1 0x20 0, rwRow 0xD46 1 (fun _ => .auxGroup) .house 0xF 0 0xFFFFFFF0
  , rwRow 0xD48 4 .lswCtl .house 1 0 0xFFFFFFF0, rwRow 0xD4C 1 (fun _ => .lswAll) .house 1 0 0
  , rwRow 0xD4D 1 (fun _ => .lswGroupAlias) .house 1 0 0, rwRow 0xD4E 1 (fun _ => .lswGroup) .house 0xF 0 0xFFFFFFF0
  , rwRow 0xD50 8 .ledDim .house 0x807F0FFF 0 0x7F80F000, rwRow 0xD58 1 (fun _ => .ledAll) .house 0x807F0FFF 0 0
  , rwRow 0xD59 1 (fun _ => .ledGroupAlias) .house 0x807F0FFF 0 0
  , rwRow 0xD5A 1 (fun _ => .ledGroup) .house 0xFF 0 0xFFFFFF00, rwRow 0xD5B 1 (fun _ => .ledStat) .house 0 0xFFFF 0xF00000
  , rwRow 0xD5C 1 (fun _ => .ledPwr) .house 0xFFFF 0 0 ]

/-- Blocks 0xE and 0xF (R346, R360). -/
def rowsState : List RegRow :=
  [ ro 0xE00 1 (fun _ => .seqStat) .house 0xC00FF, ro 0xE01 1 (fun _ => .seqTime) .house 0
  , ro 0xE02 1 (fun _ => .supStat) .house 0, rwRow 0xE03 1 (fun _ => .supFirst) .house 0 0x80000000 0x7F030000
  , ro 0xE10 1 (fun _ => .hedgeStat) .backup 0xFFFFFE00
  , rwRow 0xF00 1 (fun _ => .pwrCtl) .core 0x103 0 0xFFFFFEFC, ro 0xF01 1 (fun _ => .pwrStat) .core 0x7018FFF0
  , rwRow 0xF02 1 (fun _ => .pwrWake) .backup 0 0xFF 0xFFFFFF00, ro 0xF03 1 (fun _ => .pwrMatch) .backup 0xFFFF0000
  , ro 0xF04 1 (fun _ => .pwrHoldT) .core 0, ro 0xF05 1 (fun _ => .pwrRace) .core 0, ro 0xF11 9 .pwrRefuse .core 0 ]

/-- Rows of a block. -/
def blockRows (b : Nat) : List RegRow :=
  if b < 2 then rowsId else if b = 2 then rowsAccess else if b = 3 then rowsPanel else if b < 6 then rowsScan
  else if b < 8 then rowsFault else if b < 10 then rowsPgh else if b < 12 then rowsLedger else if b = 12 then rowsClock
  else if b = 13 then rowsPower else rowsState

/-- The row of a listed base address. -/
def rowAt (a : Nat) : Option RegRow :=
  (blockRows (a / 256)).find? (fun r => decide (r.lo ≤ a) && decide (a < r.lo + r.n))

/-- The register of a row at an address. -/
def RegRow.reg (r : RegRow) (a : Nat) : Reg := r.make (a - r.lo)

/-- Set, clear and toggle aliases exist (R396). -/
def RegRow.aliased (r : RegRow) : Bool := !(r.rw == 0)
/-- A write has some effect; one of `PWR_MATCH` is posted, and writes no field (R360). -/
def RegRow.effect (r : RegRow) : Bool := !(r.rw == 0) || !(r.w1c == 0) || r.wo || r.lo == 0xF03
/-- Across the die bridge or in the backup domain: writes are posted (R394, R409). -/
def RegRow.posted (r : RegRow) : Bool := r.dom == .house || r.dom == .backup
/-- It has a POSTED field, or is read through the backup mirror: a read waits for TRANSIT (R390, R394). -/
def RegRow.readWaits (r : RegRow) : Bool := (r.dom == .house && !(r.rw == 0) && r.key.isNone) || r.dom == .backup

/-! ### Decoding (R391 to R393, R407, R408) -/

/-- Decoded offset bits of a block, as the mask M of R408. -/
def blockMask (b : Nat) : Nat :=
  [31, 31, 127, 63, 255, 7, 31, 7, 127, 255, 31, 63, 31, 127, 31, 31].getD b 255

/-- Full decode (R393). -/
def State.fullDecode (s : State) : Bool :=
  !s.acc.helloSeen || s.acc.testMode || s.flt.react.isSome || (s.seq.hedge && s.clock.relock == .done)

/-- The listed address, with the alias in bits [13:12], that an address reaches; none: no register (R390 to R392, R408). -/
def State.decodeAddr (s : State) (a : Nat) : Option Nat :=
  if 0x4000 ≤ a then none
  else
    let op := a / 4096
    let b := a / 256 % 16
    let o := if s.fullDecode then a % 256 else (a % 256) &&& blockMask b
    let base := 256 * b + o
    match rowAt base with
    | some r => if op = 0 ∨ r.aliased then some (4096 * op + base) else none
    | none => none

end Sys2Proof.Machine
end

