-- ==== Sys2Proof/Machine/RegRead.lean ====
section
/-! DEFINITION. What each register reads (R12, R396, R409 and the register tables: R190, R218, R244, R255, R284, R298, R328,
R346, R360, R389, R406, R412 to R419), the TRANSIT bits (R394), and test controls (R392). -/

namespace Sys2Proof.Machine

/-! ### TRANSIT, BUSY and waiting accesses (R357, R394, R403) -/

/-- Block of an address. -/
def blockOf (a : Nat) : Nat := a / 256 % 16

/-- Blocks with a TRANSIT bit (R407). -/
def hasTransit (b : Nat) : Bool := [2, 3, 6, 12, 13, 14, 15].contains b

/-- Domain that HOLD gates and an access wakes: 0 the drills, 1 the retention arrays, 2 the output bias (R357). -/
def wakeOf (d : Dom) : Option Nat :=
  match d with
  | .drills => some 0
  | .memory => some 1
  | .drive => some 2
  | _ => none

/-- Delay of R357 in SCLK. -/
def wakeDelay (k : Nat) : Nat := usToSclk ([8, 40, 200].getD k 0)

/-- When a domain that the return from HOLD is waking is awake: none, if it is awake now (R352, R357). -/
def State.returnWakes (s : State) (k : Nat) : Option Nat :=
  match s.pwr.retAt with
  | some t => if s.pwr.st = .ret ∧ s.now < t + wakeDelay k ∧ ¬ s.pwr.retUp.getLsbD k then some (t + wakeDelay k) else none
  | none => none

/-- The domain is off or gated now. -/
def State.asleep (s : State) (k : Nat) : Bool :=
  if s.pwr.st = .hold then (vget s.pwr.awake k).isNone else (s.returnWakes k).isSome

/-- The domain that an access to a listed address must wake, or wait for, now. -/
def State.mustWake (s : State) (a : Nat) : Option Nat :=
  match rowAt (a % 4096) with
  | some r => match wakeOf r.dom with
    | some k => if s.asleep k then some k else none
    | none => none
  | none => none

/-- An access of a letter stalls for the PLL's relock. -/
def State.relocking (s : State) : Bool := s.clock.relock == .running

/-- E1 has its clock for the link: the PLL in lock, in a takeover by its relock (R288, R388). -/
def State.linkClock (s : State) : Bool := s.clock.pllLock && (!s.seq.hedge || s.clock.relock == .done)

/-- The listed address that a letter's next access reaches. -/
def State.nextAccess (s : State) (v : Serving) : Option Nat := if v.todo.isEmpty then none else s.decodeAddr v.next

/-- A stall of R357 holds an access to a block. -/
def State.stallIn (s : State) (b : Nat) : Bool :=
  s.link.serving.any (fun v => match s.nextAccess v with
    | some a => blockOf a == b && (s.relocking || (s.mustWake a).isSome)
    | none => false)

/-- A block's TRANSIT bit (R357, R394, R403). -/
def State.transit (s : State) (b : Nat) : Bool :=
  hasTransit b
    && (s.acc.posted.any (fun p => p.block.val == b) || s.acc.guarded.any (fun g => blockOf g.reg == b) || s.stallIn b)

/-! ### Parts of the words -/

/-- ATTN_N asserted outside the slots of a round, but for causes that arose in HOLD's wake-race window, until the entry completes
(R45, R350, R379). -/
def State.attnOut (s : State) : Bool :=
  let held := if s.pwr.st = .enterHold ∧ s.pwr.committed then s.pwr.attnHeld else 0
  !(BitVec.ofNat 5 s.attnWord &&& ~~~held == 0) && !s.link.inRound

/-- State code of a pigeonhole (R192). -/
def PghSt.code : PghSt → Nat
  | .free => 0 | .pending => 1 | .banding => 2 | .running => 3 | .done => 4

/-- A descriptor as a number of 128 bits (R194). -/
def Pgh.descriptor (p : Pgh) : Nat :=
  p.row0 + p.height * 2 ^ 11 + p.colg0 * 2 ^ 23 + p.widg * 2 ^ 33 + p.mode.val * 2 ^ 43 + bw p.preempt 45
    + p.format.val * 2 ^ 46 + p.prio.val * 2 ^ 48 + bw p.keep 50 + bw p.ref 51 + p.source * 2 ^ 52 + p.page * 2 ^ 63
    + p.ticket * 2 ^ 75 + bw p.restate 90 + p.waited * 2 ^ 91 + p.nextRow * 2 ^ 98 + p.bandH * 2 ^ 110
    + p.state.code * 2 ^ 122 + bw p.pixelLost 125 + bw p.preempted 126 + bw p.cancelled 127

/-- Descriptor of a hidden pigeonhole: FORMAT, REF, SOURCE, PAGE and KEEP at zero (R194). -/
def Pgh.hiddenForm (p : Pgh) : Pgh := { p with format := 0, ref := false, source := 0, page := 0, keep := false }

/-- The pigeonhole that `PGH_INDEX` selects (R218). -/
def State.pghSelected (s : State) : Nat :=
  if bit s.pgh.index 11 then 2048 + fld s.pgh.index 0 6 else fld s.pgh.index 0 11

/-- Its descriptor. -/
def State.selectedDesc (s : State) : Nat :=
  let p := s.pgh_ s.pghSelected
  if bit s.pgh.index 11 then p.hiddenForm.descriptor else p.descriptor

/-- Codes of `NTC`, `HL_STAT`, roles, results, phases and states. -/
def NtcSt.code : NtcSt → Nat
  | .good => 0 | .open => 1 | .short => 2 | .awaiting => 3
def HlClass.code : HlClass → Nat
  | .good => 0 | .open => 1 | .high => 2 | .low => 3
def DrillRole.code : DrillRole → Nat
  | .active => 0 | .spare => 1 | .testing => 2 | .quarantined => 3 | .failed => 4
def TestResult.code : TestResult → Nat
  | .none => 0 | .pass => 1 | .fail => 2 | .noSpare => 3 | .notEligible => 4 | .busy => 5 | .running => 6
def SeqPhase.code : SeqPhase → Nat
  | .idle => 0 | .plan => 1 | .railUp => 2 | .up => 3 | .railDown => 4 | .items => 5 | .delivery => 6 | .hedge => 7
def PwrSt.code : PwrSt → Nat
  | .slow => 1 | .enterHold => 2 | .hold => 3 | .ret => 4 | .enterDormant => 5 | .delivery => 6 | .hedge => 7
  | .run | .startup | .dormant | .unpowered => 0
def PwrReq.code : PwrReq → Nat
  | .run => 0 | .slow => 1 | .hold => 2 | .dormant => 3
def PwrResult.code : PwrResult → Nat
  | .none => 0 | .accepted => 1 | .refused => 2 | .abandoned => 3
def AlmLoad.code : AlmLoad → Nat
  | .idle => 0 | .staging => 1 | .checking => 2 | .staged => 3 | .draining => 4

/-- Crystal cycles counted by `ID_UPTIME` (R412). -/
def State.uptime (s : State) : Nat :=
  ((if s.clock.xtalStopped then s.rtc.stopAt else s.now) - s.rtc.aliveAt) / cycle % 2 ^ 48

/-- Grace left in 50 ms units, rounded up: that of the condition that enforces first (R244; log 33). -/
def State.graceLeft (s : State) : Nat :=
  let left := fun (c : GracedCond) => match c.inForce, c.graceTo with
    | true, some t => [((t - s.now) * 20 + sclkHz - 1) / sclkHz]
    | _, _ => []
  match left s.therm.plotC ++ left s.therm.dieC with
  | [] => 0
  | x :: l => min 255 (l.foldl min x)

/-- Offset of the boost on its grid: the lowest auxiliary rail that the plan does not raise (R290, R298). -/
def State.boostPhase (s : State) : Nat := (firstTo 4 (fun n => !s.planAux n)).getD 4

/-- The last completed sweep of a drill (R255). -/
def State.lastSweep (s : State) (i : Nat) : SweepCounts :=
  let d := vget s.drills.drill i
  if s.now < d.sweepTo then d.before else d.sweep

/-- The largest integral of the last sweeps: magnitude, cell, sign (R255). -/
def State.ledgerPeak (s : State) : Nat × Nat × Bool :=
  (s.places .active).foldl (fun (m : Nat × Nat × Bool) i =>
    let d := s.lastSweep i
    if m.1 < d.peakMag ∨ (m.1 = d.peakMag ∧ 0 < d.peakMag ∧ d.peakCell < m.2.1) then (d.peakMag, d.peakCell, d.peakNeg) else m)
    (0, 0, false)

/-- Sum over the active drills' last sweeps (R255). -/
def State.sweepSum (s : State) (f : SweepCounts → Nat) : Nat :=
  (s.places .active).foldl (fun n i => n + f (s.lastSweep i)) 0

/-- Undervoltage of rail k is blanked (R340, R346). -/
def State.railBlank (s : State) (k : Nat) : Bool :=
  (s.railRising && upRail s.seq.railStep == k) || (s.railFalling && downRail s.seq.railStep == k)
    || decide (s.now < vget s.seq.blankTo k)

/-- The bins from strap k on, four bits each. -/
def State.binsWord (s : State) (k n : Nat) : Nat := sumTo n (fun i => s.bin (k + i) * 16 ^ i)

/-! ### The registers by block -/

/-- Identity and straps (R412, R414). STEP is an uppercase letter. -/
def State.readId (s : State) : Reg → Nat
  | .idPart => 0x307203C0
  | .idRev => (65 + Config.idRev.toNat / 2 ^ 24 % 26) * 2 ^ 24 + Config.idRev.toNat % 2 ^ 24
  | .idCaps => 0x21181000 + s.otp.patch
  | .idSerial k => if k = 0 then (Config.serial0 s.otp.secondary).toNat else (Config.serial1 s.otp.secondary).toNat
  | .idUptime k => if k = 1 then s.uptime % 2 ^ 32 else s.uptime / 2 ^ 32
  | .strapBin0 => s.binsWord 0 8
  | .strapBin1 => s.binsWord 8 4
  | .strapFlag => bw s.strap.rsvd 16 + s.strap.margin.toNat
  | .strapVote => s.strap.votes
  | .strapRaw k => (vget s.strap.raw k).toNat
  | _ => 0

/-- Access, seal, OTP and life-cycle (R406, R415). -/
def State.readAccess (s : State) : Reg → Nat
  | .regStat => bw s.fullDecode 31 + s.acc.rsvdDiff * 256 + s.acc.heldCnt
  | .regVote => s.acc.voteCnt * 65536 + s.acc.voteAddr
  | .secStat => bw s.acc.sealIn 17 + bw (!s.acc.guarded.isEmpty) 16 + s.acc.refusals
  | .secWhy => if s.acc.sealIn then s.acc.why else 0
  | .otpAddr => s.otp.addr.toNat
  | .otpData => s.otp.data.toNat
  | .otpCtl => s.otp.lastOp.toNat
  | .otpRd => (s.otpWord (fld s.otp.addr 0 10)).value.toNat
  | .otpStat => bw (s.transit 2) 31 + bw s.otpBusy 30 + bw s.progOk 29 + bw (!(s.otp.marginBits == 0)) 28
      + (s.otpWord (fld s.otp.addr 0 10)).ecc * 2 ^ 26 + min 2047 s.otp.marginBits
  | .lcCtl => s.lcNow
  | .lcStat => bw s.inTest 8 + s.lcNow
  | .pmCnt k => if k = 0 then s.counter ctrAlmanac * 65536 + s.counter ctrPatch
      else if k = 1 then s.counter ctrSeal * 65536 + s.counter ctrEpoch else s.counter ctrReprov
  | _ => 0

/-- Panel outputs (R416). -/
def State.readPanel (s : State) : Reg → Nat
  | .vcomEn => s.panel.vcomEn.toNat
  | .vcomStat => bw (s.transit 3) 31 + sumTo 8 (fun n => bw (vget s.panel.vcom n).ovl (8 + n) + bw (vget s.panel.vcom n).clip n)
  | .goaStat => bw s.panel.goaSeen 31 + s.panel.goaLine.toNat
  | .hlStat => sumTo 8 (fun n =>
      (vget s.panel.headland n).cls.code * 4 ^ n * 65536 + bw (vget s.panel.headland n).suspect n)
  | .vcomGroup => s.panel.vcomGroup.toNat
  | .pnlTime k =>
    let w := s.panel.words
    if k = 0 then bw w.overlap 24 + w.scheme.val * 2 ^ 22 + w.zp % 64 * 2 ^ 16 + w.gOff % 256 * 256 + w.gOn % 256
    else w.vcomHalf % 256 * 65536 + w.hlMask.toNat * 256 + w.gxLevel.toNat
  | .vcomTrim n => (vget s.panel.vcom n).trim
  | .hlOhm n => (vget s.panel.headland n).ohm
  | .qcSel => s.panel.qcSel.toNat
  | .qcSeg k =>
    let row := fld s.panel.qcSel 8 3
    let rail := fld s.panel.qcSel 0 3
    if s.pwr.st == .hold || s.asleep 2 || s.seq.hedge || decide (6 ≤ rail) then 0 else vget (vget s.panel.qLast (8 * row + k)) rail
  | _ => 0

/-- Scan, drills, frame store and the link (R389, R417). -/
def State.readScan (s : State) : Reg → Nat
  | .scanRowT => s.rowTime
  | .scanFrame => s.scan.frame.toNat
  | .scanStat => s.drillCount .spare * 4096 + s.aNow * 256
      + bw (s.scan.slow && !(s.panel.words.slowRowT == 0)) 1 + bw s.scan.scanning 0
  | .drlCtl => s.drills.ctl.toNat
  | .drlTest => s.drills.result.code * 256 + s.drills.testDrill
  | .scanCnt k => [s.mem.stale, s.mem.brgPerr, s.mem.secCnt, s.mem.dedCnt].getD k 0
  | .fsDedLoc => match s.mem.dedLoc with
    | some x => x.2 * 65536 + x.1
    | none => 0
  | .drlStat i =>
    let d := vget s.drills.drill i
    d.miss * 256 + (if d.role = .active then d.slot * 16 else 0) + (s.shownRole i).code
  | .fsBankOwn b => (vget s.mem.banks b).epoch.toNat * 256 + (vget s.mem.banks b).owner
  | .novStat => s.link.lastTag.toNat * 2 ^ 24 + bw s.link.inRound 18 + bw s.attnOut 17 + s.postB * 4096 + s.postA * 256
      + s.house * 16 + s.link.version
  | .novAttn => s.attnWord
  | .novCfg => s.link.cfg.toNat
  | .novErr0 => s.link.errFrame * 65536 + s.link.errCrc
  | .novErr1 => s.link.abort * 65536 + s.link.gap
  | .novCnt => s.link.dup * 65536 + s.link.letters
  | _ => 0

/-- Faults and the almanac (R190, R418). -/
def State.readFault (s : State) : Reg → Nat
  | .fltStat => bw (s.transit 6) 31 + bw s.faultOut 4 + bw s.flt.react.isSome 3 + s.reactionCode
  | .fltFirst => match s.flt.first with
    | some x => 2 ^ 31 + x.2 * 256 + x.1
    | none => 0
  | .fltSticky k => if k = 0 then s.flt.sticky0.toNat else s.flt.sticky1.toNat
  | .fltBak => s.rtc.bak.toNat
  | .fltInj => s.flt.inj.toNat
  | .fltInjStat => bw (!s.flt.injecting.isEmpty) 0
  | .almCtl => s.alm.lastOp.toNat
  | .almStat => min 511 s.alm.drainFrames * 2 ^ 23 + s.alm.stagedBytes * 16 + bw s.alm.image.isSome 3 + s.alm.load.code
  | .almInfo => match s.alm.image with
    | some x => almVersion (some x) % 16 * 65536 + almRollback (some x)
    | none => 0
  | .almId => match s.alm.image with
    | some x => almId (some x)
    | none => 0
  | .almRecheck => s.alm.passes
  | _ => 0

/-- Pigeonholes (R218). -/
def State.readPgh (s : State) : Reg → Nat
  | .pghIndex => s.pgh.index.toNat
  | .pghDesc k => s.selectedDesc / 2 ^ (32 * k) % 2 ^ 32
  | .pghCfg => s.pgh.cfg.toNat
  | .pghLoad => s.pgh.loadPending * 65536 + bw s.pgh.overload 15 + bw s.pgh.deferAge 14 + bw s.pgh.deferLdg 13 + s.pgh.load
  | .pghEavail => s.pgh.eavail
  | .pghCommit => s.pgh.commit
  | .pghLat k => vget s.pgh.lat k
  | .mailFree => s.pagesKept * 65536 + s.pagesFree
  | .pghDone j => (vget s.pgh.done j).toNat
  | _ => 0

/-- Thermal plots (R244). -/
def State.readTherm (s : State) : Reg → Nat
  | .thermCtl => s.therm.ctl.toNat
  | .thermStat => s.graceLeft * 2 ^ 24 + bw s.therm.easeChange 7 + bw s.therm.bond 6 + bw s.therm.hot 5 + bw s.therm.sensor 4
      + bw s.therm.dieC.inForce 3 + bw s.therm.plotC.inForce 2 + bw s.therm.enforced 1 + bw s.therm.easeReq 0
  | .thermEase => s.therm.impose * 65536 + s.therm.w
  | .thermEtot => s.therm.eTot
  | .thermNtc i =>
    let n := vget s.therm.ntc i
    n.st.code * 2 ^ 30 + (if n.st = .good then twos 13 n.temp * 65536 else 0) + n.code % 65536
  | .thermDie => s.therm.rise % 65536 * 65536 + s.dieNumber * 8192 + twos 13 (s.tDie.getD (s.therm.lastDie.getD 0))
  | .thermResid => s.therm.residCount * 65536 + s.therm.residPlot
  | .thermGroup k => if k = 0 then s.therm.group0.toNat else s.therm.group1.toNat
  | .thermDiode j => bw (vget s.therm.diode j).bad 31 + twos 13 (vget s.therm.diode j).temp
  | .thermTemp p =>
    let x := vget s.therm.plot p
    bw x.forced 31 + bw (decide (throttlePlot s.alm.thermal ≤ plotTemp16 x.t)) 30 + bw x.clamp 29 + bw (decide (8 ≤ x.overN)) 28
      + bw x.sat 27 + x.pub * 65536 + twos 13 (plotTemp16 x.t)
  | .thermEn p => (vget s.therm.plot p).e
  | .thermCfg p => (vget s.therm.plot p).cfg.toNat
  | _ => 0

/-- Ledger (R255). `LDG_CELL` shows the word as stored, and PERR where it fails its parity check. -/
def State.readLedger (s : State) : Reg → Nat
  | .ldgStat => bw (!s.offersComp) 4 + bw s.pgh.deferLdg 3 + bw s.ledger.deferFull 2 + bw s.mem.perrFlag 1 + bw s.mem.satFlag 0
  | .ldgBound => almBound s.alm.image
  | .ldgSatCnt => s.mem.satCnt
  | .ldgPerrCnt => s.mem.perrCnt
  | .ldgSum k => s.sweepSum (fun d => if k = 0 then d.overN else if k = 1 then d.unbal else d.win)
  | .ldgPeak => let p := s.ledgerPeak; bw p.2.2 31 + p.2.1 * 4096 + p.1
  | .ldgComp => s.ledger.compDone % 65536 * 65536 + s.ledger.compQueued % 65536
  | .ldgCellSel => s.ledger.cellSel.toNat
  | .ldgCell =>
    let c := s.ledger.cellSel.toNat
    if s.cellInUse c && decide (c < 393216) then
      (if s.cellBad c then 65536 else ((s.cellStored c).setWidth 16).toNat)
    else 0
  | _ => 0

/-- Registered window (R284). -/
def State.readWindowReg (s : State) : Reg → Nat
  | .rwStat => s.rwStatus.code * 2 ^ 24 + s.rw.lastRej.toNat * 65536 + bw s.rw.present 11 + bw s.rw.stuck 10
      + bw s.drawPending 9 + bw s.rw.session.isSome 8 + (match s.rw.drawn with | some r => recType r % 4 * 64 | none => 0)
      + bw s.keptSlot.isSome 5 + s.counter ctrEpoch
  | .rwSeq => match s.rw.drawn with | some r => recSeq r | none => 0
  | .rwSession => (s.rw.session.getD 0).toNat
  | .rwPost => s.rw.postSeal * 65536 + s.rw.postRp * 256 + (match s.rw.drawn with | some r => recEpoch r % 32 | none => 0)
  | .rwDesc k => if s.rw.present then (vget s.rw.desc k).toNat else 0
  | .rwRxcnt => s.rw.rejected * 65536 + s.rw.verified
  | .rwAbandon => s.rw.abandon
  | .rwRb => s.rw.rbFrames * 65536 + s.rw.rbRedraws
  | .rwRbLast => s.rw.rbLast
  | .rwFlag => s.rw.flag.toNat
  | .rwCfg => s.rw.cfg.toNat
  | .rwRecSel => s.rw.recSel.toNat
  | .rwRec =>
    let o := fld s.rw.recSel 2 9 * 4
    match s.rw.drawn with | some r => quad r o | none => 0
  | _ => 0

/-- Clock, calendar, charger and gauge (R298, R419). -/
def State.readClock (s : State) : Reg → Nat
  | .clkStat => (1699 + Config.freeNat s.free % 509) * 65536 + s.boostPhase * 16
      + bw (s.therm.rounds == 0 || s.tDie.isNone) 3 + bw s.timesOnRc 2 + bw s.clock.pllLock 1 + bw s.clock.xtalOk 0
  | .clkRef => twos 16 s.clock.target * 65536 + twos 16 s.clock.applied
  | .rtcTime => s.rtc.cal.hour * 65536 + s.rtc.cal.min * 256 + s.rtc.cal.sec
  | .rtcDate => s.rtc.cal.weekday * 2 ^ 24 + s.rtc.cal.year * 65536 + s.rtc.cal.month * 256 + s.rtc.cal.day
  | .rtcStageT => s.rtc.stageT.toNat
  | .rtcStageD => s.rtc.stageD.toNat
  | .rtcStat => bw (s.transit 12) 31 + bw s.rtc.badSet 4 + bw s.rtc.onBackup 3 + bw s.rtc.dstPending 2 + bw s.rtc.alm2F 1
      + bw s.rtc.alm1F 0
  | .rtcAlm k => ([s.rtc.alm1, s.rtc.alm1D, s.rtc.alm2, s.rtc.alm2D].getD k 0).toNat
  | .rtcComp => s.rtc.comp.toNat
  | .rtcAdj => twos 16 s.rtc.temp * 65536 + twos 16 s.rtc.adj
  | .rtcChg => bw s.rtc.full 9 + bw s.rtc.charging 8 + s.rtc.chgCur * 16 + bw (s.rtc.chgEn && bakCharger s.bakBin) 0
  | .rtcGauge => s.rtc.gVbak * 2 ^ 20 + bw s.rtc.wakeOk 17 + bw s.rtc.liveOk 16 + s.rtc.usable
  | _ => 0

/-- Power tree and front light (R328), with what of the hedge's order has come by now. -/
def State.readPower (s0 : State) : Reg → Nat :=
  let s := s0.hedgeDue
  fun
  | .railSet => s.tree.pump * 16 + s.tree.railSet.maj.toNat
  | .railTrim k => twos 7 (vget s.tree.trim k)
  | .railStat => bw (s.transit 13) 31 + bw s.tree.startReg 19 + bw (s.tree.vinOv || s.injected fltVinOv) 18 + bw s.tree.vinValid 17 + bw (s.tree.pg == 0xFF) 16
      + s.tree.disch.toNat * 256 + s.tree.pg.toNat
  | .pwrMeas k => twos 20 (vget s.tree.meas k)
  | .auxCtl n =>
    let a := vget s.tree.aux n
    bw a.oc 5 + bw a.running 4 + bw a.pg 3 + bw (s.auxKept n) 2 + bw (s.planAux n) 1 + bw a.en 0
  | .auxGroup => s.tree.auxGroup.toNat
  | .lswCtl n =>
    let l := vget s.tree.lsw n
    bw l.asserted 3 + bw (s.auxKept n) 2 + bw (s.planLsw n) 1 + bw l.en 0
  | .lswGroup => s.tree.lswGroup.toNat
  | .ledDim n => let l := vget s.tree.led n; bw l.en 31 + l.cur * 65536 + l.dim
  | .ledGroup => s.tree.ledGroup.toNat
  | .ledStat => (2 ^ ledUsed (s.bin 7) - 1) * 2 ^ 24 + bw s.boostOn 19 + bw (s.boostOn && s.tree.boostOv) 18
      + bw s.tree.pclamp 17 + bw (anyTo 8 (fun n => (vget s.tree.led n).softNow s.now)) 16
      + sumTo 8 (fun n => bw (vget s.tree.led n).openL (8 + n) + bw (vget s.tree.led n).short n)
  | .ledPwr => s.tree.scale * 65536 + s.tree.ratio
  | _ => 0

/-- Sequencing and power states (R346, R360). -/
def State.readState (s : State) : Reg → Nat
  | .seqStat => bw (s.transit 14) 31 + s.planNo * 2 ^ 27 + (if s.seq.run == .none then 0 else min 15 s.seq.place * 2 ^ 23)
      + s.seq.phase.code * 2 ^ 20 + s.seq.enable.maj.toNat * 512 + bw s.seq.enable.differs 8
  | .seqTime => s.seq.timeDown * 65536 + s.seq.timeUp
  | .supStat => s.seq.oc.toNat * 2 ^ 24 + s.seq.ov.toNat * 65536 + s.seq.uv.toNat * 256 + sumTo 8 (fun k => bw (s.railBlank k) k)
  | .supFirst => match s.seq.first with
    | some e => 2 ^ 31 + e.source * 2 ^ 20 + e.kind * 2 ^ 18 + e.frame
    | none => 0
  | .hedgeStat => bw s.seq.hedge 8 + s.hedgeStepNow * 16 + s.seq.hedgeCause.toNat
  | .pwrCtl => bw s.pwr.alarmWake 8 + s.pwr.req.code
  | .pwrStat => bw (s.transit 15) 31 + s.pwr.refuser * 2 ^ 24 + s.pwr.result.code * 2 ^ 22 + bw (anyTo 3 (fun k => (vget s.pwr.waking k).isSome) || (s.relocking && !s.link.serving.isEmpty)) 21
      + sumTo 3 (fun k => bw (s.pwr.st == .hold && (vget s.pwr.awake k).isSome) (16 + k)) + bw s.pwr.resume 3 + s.pwr.st.code
  | .pwrWake => s.pwr.wake.toNat
  | .pwrMatch => s.pwr.mBak.toNat * 4096 + s.pwr.mPostB.toNat * 256 + s.pwr.mPostA.toNat * 16 + s.pwr.mHouse.toNat
  | .pwrHoldT => s.pwr.holdT
  | .pwrRace => s.pwr.raceHeld * 65536 + s.pwr.raceLost
  | .pwrRefuse k => vget s.pwr.refuse k
  | _ => 0

/-- The fields of a register as it reads; write-only fields and the broadcast and group aliases read 0 (R12, R397). -/
def State.fields (s : State) (b : Nat) (r : Reg) : Word :=
  wd (if b < 2 then s.readId r else if b = 2 then s.readAccess r else if b = 3 then s.readPanel r
    else if b < 6 then s.readScan r else if b < 8 then s.readFault r else if b = 8 then s.readPgh r
    else if b = 9 then s.readTherm r else if b = 10 then s.readLedger r else if b = 11 then s.readWindowReg r
    else if b = 12 then s.readClock r else if b = 13 then s.readPower r else s.readState r)

/-! ### Test controls and the read (R392, R398) -/

/-- Present value of a register's test controls. -/
def State.testBits (s : State) (a rsv : Nat) : Word :=
  (match s.acc.testCtl.find? (fun x => x.1 == a) with
    | some x => x.2
    | none => Config.testControl a) &&& wd rsv

/-- Effects of a read on what it reads: triplicated fields are mended, the place of a free value is used up (R398). -/
def State.afterRead (s : State) : Reg → State
  | .railSet => s.voteRailSet
  | .seqStat => s.voteSeqPlan
  | .lcStat | .lcCtl => s.voteLc
  | .clkStat => { s with free := s.free + 1 }
  | _ => s

/-- A read of a listed address (R390 step 5): a field that time moves in this cycle reads as before it (R13). -/
def State.readAt (s : State) (a : Nat) : Word × State :=
  let base := a % 4096
  match rowAt base with
  | some r =>
    let w := s.before.fields (base / 256) (r.reg base)
    (if s.fullDecode then w ||| s.testBits base r.rsv else w, s.afterRead (r.reg base))
  | none => (0, s)

end Sys2Proof.Machine
end

