-- ==== Sys2Proof/Machine/Inject.lean ====
section
/-! DEFINITION. Fault injection (21_faults, R477, R478): what the presentation of an injected condition does at its detector,
and its end. -/

namespace Sys2Proof.Machine

/-- TIME_LOST injected: the backup domain's fields return to those of R423, and TIME_LOST is raised. What R423 leaves
alone, the supply it runs from and what start-up delivered stay. -/
def State.timeLost (s : State) : State :=
  let r := { RtcState.reset with
    comp := s.rtc.comp, chgEn := s.rtc.chgEn, chgCur := s.rtc.chgCur, onBackup := s.rtc.onBackup, vbakConn := s.rtc.vbakConn
    aliveAt := s.now, stopAt := s.now, secondAt := s.now, path := s.rtc.path, isolated := s.rtc.isolated, vinLostAt := s.rtc.vinLostAt, deliveryAt := s.rtc.deliveryAt
    deliveryDone := s.rtc.deliveryDone, backupRun := s.rtc.backupRun, runDoneAt := s.rtc.runDoneAt, quietAt := s.rtc.quietAt
    vinBack := s.rtc.vinBack, resetN := s.rtc.resetN, resetDue := s.rtc.resetDue, bak := 0 }
  State.raise { s with rtc := r, pwr.wake := PwrState.reset.wake, pwr.mHouse := 0, pwr.mPostA := 0, pwr.mPostB := 0, pwr.mBak := 0
                       seq.hedgeCause := 0, seq.hedgeStep := if s.seq.hedge then s.seq.hedgeStep else 0 } fltTimeLost

/-- One read of the frame store is to find a group uncorrectable, of which the spec names none: two bits of a free group flip, which
the scan's next read of it meets (R93, R477; log 77). -/
def State.flipFree (s : State) : State :=
  let (i, s1) := s.draw
  let g := Config.freeNat i % s1.rows * 768 + Config.freeNat (i + 1) % s1.groupsInRow
  { s1 with free := s1.free + 1 }.storeGroup g (encodeGroup (s1.groupData g) ^^^ 3)

/-- One ledger word is to fail its parity: a bit of a free cell flips, which its owner's next addition meets (R100, R477; log 77).
-/
def State.flipFreeCell (s : State) : State :=
  let (i, s1) := s.draw
  let k := Config.freeNat i % (s1.rows / 4) * 768 + Config.freeNat (i + 1) % s1.groupsInRow
  { s1 with free := s1.free + 1, mem.ledgerFlip := sset 0 s1.mem.ledgerFlip k 1 }

/-- One evaluation of a detector with its condition presented: a fault whose detector judges at readings, boundaries or heartbeats
is met there while it is presented (`State.injected`); the others are met now, and again where their detector is armed
(`State.meet`), at the instance of R478. -/
def State.present (s : State) (n : Nat) : State :=
  if n = fltRailUv then s.railUvFired 0 true
  else if n = fltRailOv then s.railOvFired 0 true
  else if n = fltRailOc then s.railOcFired 0 true
  else if n = fltRailPg then (if s.railRising && s.seq.railStep == stepUpOf 0 then s.pgTimeout else s)
  else if n = fltDisch then (if s.railFalling && downRail s.seq.railStep == 0 then s.dischOver else s)
  else if n = fltSeqOrder then (if s.e0Runs && !s.seq.hedge then s.raise n else s)
  else if n = fltIntUv then s.intUvFired .vcore
  else if n = fltAuxOc then s.auxOcFired 0
  else if n = fltAuxOv then s.auxOvFired 0 true
  else if n = fltAuxUv then s.auxUvFired 0
  else if n = fltAuxPg then (if s.planAwaits = some 0 then s.auxPgTimeout else s)
  else if n = fltLedShort then s.ledShortFired 0
  else if n = fltLedOpen then s.ledOpenFired 0
  else if n = fltGate then s.gateFired 0
  else if n = fltVcom then s.vcomFired 0
  else if n = fltPll then s.lockLost
  else if n = fltXtal ∨ n = fltXtalStop then s.xtalLost false
  else if n = fltHedge then (if s.e0Runs then s.takeover 0 else s)
  else if n = fltTimeLost then s.timeLost
  else if n = fltAlmCrc then s.raiseAs n .hold
  else if n = fltVinOv then (if s.recording then (s.supFirst 8 1).raiseLevel n s.tree.vinOv else s)
  else if n = fltShortfall then s.raiseLevel n (s.shortFor s.serviceable)
  else if n = fltDrillTest then { s with flt.injDrill := (firstTo 14 (fun i => s.drillIs i .active)).getD 14 }
  else if n = fltRegVote then s.readTrips
  else if s.held n then s
  else if n = fltStale then
    (if s.aNow = 0 then s else State.raise { s with mem.stale := sat32 s.mem.stale 1 } n)
  else if n = fltBridge then State.raise { s with mem.brgPerr := sat32 s.mem.brgPerr 1 } n
  else if n = fltFsDouble then s.flipFree
  else if n = fltLdgParity then s.flipFreeCell
  else if n = fltRwStuck then (if s.rw.present && !s.rw.stuck then State.raise { s with rw.stuck := true } n else s)
  else if n = fltStrapRsvd ∨ n = fltRwGeometry then s.raise n
  else s

/-- A number that names a fault which can be injected (R418). -/
def injectable (n : Nat) : Bool := decide (n < 24) || (decide (32 ≤ n) && decide (n ≤ 51)) || (decide (96 ≤ n) && decide (n ≤ 98))

/-- GO: the condition is presented for HOLD_MS ms; 0 is one evaluation's length, whose end `INJECT_END` gives (R477). -/
def State.inject (s : State) (n ms : Nat) : State :=
  if injectable n then
    State.present { s with flt.injecting := s.flt.injecting ++ [(n, s.now + usToSclk (1000 * ms))] } n
  else s

/-- The injection that ends first. -/
def State.firstInjection (s : State) : Option (Nat × Nat) :=
  s.flt.injecting.foldl (fun (a : Option (Nat × Nat)) x => match a with
    | none => some x
    | some y => if x.2 < y.2 then some x else some y) none

/-- The injected condition is removed; a recovery that waited on it goes on (R469, R477). -/
def State.injectEnd (s : State) : State :=
  match s.firstInjection with
  | none => s
  | some x =>
    let s1 := s.reach x.2
    State.tryReactUp { s1 with flt.injecting := s1.flt.injecting.erase x }

end Sys2Proof.Machine
end

