-- ==== Sys2Proof/Machine/RegWrite.lean ====
section
/-! DEFINITION. What a write does when it lands (R391, R392, R396, R397 and the register tables): aliases, bits cleared by
a 1, broadcast and group aliases, the effect of each register, and test controls. -/

namespace Sys2Proof.Machine

/-! ### Aliases (R396) -/

/-- A field through the base address (0), the set, the clear or the toggle alias. -/
def aliasOp (op : Nat) (cur d : Word) : Word :=
  if op = 0 then d else if op = 1 then cur ||| d else if op = 2 then cur &&& ~~~d else cur ^^^ d

/-- The word that a write through an alias gives the written fields of a row. -/
def State.written (s : State) (base op : Nat) (d : Word) : Word :=
  match rowAt base with
  | some r => aliasOp op (s.fields (base / 256) (r.reg base)) d &&& wd r.rw
  | none => 0

/-! ### Parts of the effects -/

/-- A write of `SEC_KEY` (R400, R401). -/
def State.writeKey (s : State) (k : Nat) : State :=
  let test := s.lcNow == 0
  let g := if k = 0x5EED then some Group.almanac else if k = 0xF1E1 then some .trims else if k = 0x5EA1 then some .otp
    else if k = 0x7E57 ∧ test then some .test else none
  { s with acc.armed := g, acc.testMode := s.acc.testMode || g == some .test }

/-- Charging current in tenths of mA of a code; codes 6 and 7 name none and count as above 20 mA. -/
def chgTenths (c : Nat) : Nat := [5, 10, 20, 50, 100, 200].getD c 201

/-- Clamp of `RTC_CHG.CUR` (R419, R76). -/
def State.clampCharge (s : State) (c : Nat) : Nat :=
  let b := s.bin 8
  let listed := ((List.range 16).filter (fun x => bakElement x == bakElement b)).map bakTenths
  let cap := min (chgTenths c) (bakTenths b)
  match (listed.filter (fun t => decide (t ≤ cap))).max? with
  | some t => chgCode t
  | none => chgCode (listed.min?.getD 5)

/-- A landed `RTC_CHG`: EN is ignored where the bin has no charger. -/
def State.writeCharge (s : State) (v : Word) : State :=
  State.chargeFollow { s with rtc.chgCur := s.clampCharge (fld v 4 3)
                              rtc.chgEn := if bakCharger s.bakBin then bit v 0 else s.rtc.chgEn }

/-- Clamp of a rail's field trim (R76, R309). -/
def railClamp (v : Nat) : Int := clampI (-30) 30 (sgn 7 v)

/-- A landed `PWR_CTL`: one request; a set alarm flag under a new ALARM_WAKE acts (R347, R351). -/
def reqOf (k : Nat) : PwrReq := if k = 0 then .run else if k = 1 then .slow else if k = 2 then .hold else .dormant
def State.writePwr (s : State) (v : Word) : State :=
  State.attend (State.request { s with pwr.alarmWake := bit v 8 } (reqOf (fld v 0 2))).1

/-- An action of `PGH_CTL` on a pigeonhole (R200, R204); pigeonhole 0 is the host's neither to cancel nor to release (R279). -/
def State.pghAct (s : State) (a n : Nat) : State :=
  if n = 0 then s else if a = 1 then s.cancelPgh n else if a = 2 then (if isHidden n then s else s.releasePgh n) else s

/-- An action on the pigeonholes a list names; HIST_CLR clears the histogram whatever the alias (R218). -/
def State.pghActs (s : State) (a : Nat) (l : List Nat) : State :=
  if a = 3 then { s with pgh.lat := Vector.replicate 8 0 } else l.foldl (fun (t : State) n => t.pghAct a n) s

/-- Host pigeonholes of the group alias: those whose PRIO is in `PGH_CFG.GROUP`. -/
def State.pghGroup (s : State) : List Nat :=
  ((List.range 2048).filter (fun n => decide (1 ≤ n) && s.pgh.cfg.getLsbD (s.pgh_ n).prio.val))

/-- `FLT_INJ` written: GO presents the fault's condition, and reads 0. -/
def State.writeInj (s : State) (v : Word) : State :=
  let s1 := { s with flt.inj := setBit v 8 false }
  if bit v 8 then s1.inject (fld v 0 7) (fld v 16 16) else s1

/-- A landed W1C of `FLT_BAK`: HEDGE_TAKEOVER stays while the hedge is active, and takes the hedge's record with it
(R346, R418). -/
def State.clearBak (s : State) (c : Word) : State :=
  let keep := s.seq.hedge
  let m : BitVec 5 := if keep then setBit (c.setWidth 5) 2 false else c.setWidth 5
  let s1 := { s with rtc.bak := s.rtc.bak &&& ~~~m }
  if m.getLsbD 2 then { s1 with seq.hedgeCause := 0, seq.hedgeStep := 0 } else s1

/-! ### The written fields take their values -/

/-- Housekeeping and backup registers. -/
def State.putHouse (s : State) (r : Reg) (v : Word) : State :=
  match r with
  | .otpAddr => { s with otp.addr := v }
  | .otpData => { s with otp.data := v }
  | .otpCtl => State.beginAsk { s with otp.lastOp := v.setWidth 3 } (s.askOf (fld v 0 3))
  | .lcCtl => s.beginAsk (.life (fld v 0 2))
  | .vcomEn => { s with panel.vcomEn := v }
  | .vcomGroup => { s with panel.vcomGroup := v.setWidth 8 }
  | .vcomTrim n => { s with panel.vcom := vmod s.panel.vcom n (fun c => c.land s.now (s.vcomClamp (fld v 0 10))) }
  | .qcSel => { s with panel.qcSel := v }
  | .fltInj => s.writeInj v
  | .rtcStageT => { s with rtc.stageT := v }
  | .rtcStageD => { s with rtc.stageD := v }
  | .rtcAlm k =>
    if k = 0 then { s with rtc.alm1 := v } else if k = 1 then { s with rtc.alm1D := v }
    else if k = 2 then { s with rtc.alm2 := v } else { s with rtc.alm2D := v }
  | .rtcChg => s.writeCharge v
  | .railTrim k => s.landTrim k (railClamp (fld v 0 7))
  | .auxCtl n => s.landAuxEn n (bit v 0)
  | .auxGroup => { s with tree.auxGroup := v.setWidth 4 }
  | .lswCtl n => s.landLswEn n (bit v 0)
  | .lswGroup => { s with tree.lswGroup := v.setWidth 4 }
  | .ledDim n => s.landLed n v
  | .ledGroup => { s with tree.ledGroup := v.setWidth 8 }
  | .ledPwr => State.formPower { s with tree.ratio := fld v 0 16 }
  | _ => s

/-- Logic core registers. -/
def State.putCore (s : State) (r : Reg) (v : Word) : State :=
  match r with
  | .drlCtl => { s with drills.ctl := v, drills.rotateAt := if bit v 0 && !bit s.drills.ctl 0 then s.now else s.drills.rotateAt }
  | .drlTest => s.requestTest (fld v 0 4)
  | .novCfg => { s with link.cfg := v.setWidth 2 }
  | .almCtl => s.almOperate (fld v 0 2)
  | .pghIndex => { s with pgh.index := v }
  | .pghCfg => { s with pgh.cfg := v }
  | .thermCtl => { s with therm.ctl := wd (min (fld v 0 16) s.budgetMw) }
  | .thermGroup k => if k = 0 then { s with therm.group0 := v } else { s with therm.group1 := v }
  | .thermCfg p => { s with therm.plot := vmod s.therm.plot p (fun x => { x with cfg := v }) }
  | .ldgCellSel => { s with ledger.cellSel := v }
  | .rwCfg => { s with rw.cfg := v }
  | .rwRecSel => { s with rw.recSel := v }
  | .pwrCtl => s.writePwr v
  | _ => s

/-- The written fields of a register take a value. -/
def State.putField (s : State) (d : Dom) (r : Reg) (v : Word) : State :=
  match d with
  | .house | .backup => s.putHouse r v
  | _ => s.putCore r v

/-- Bits cleared by a 1 (R12). -/
def State.clearBits (s : State) (r : Reg) (c : Word) : State :=
  match r with
  | .vcomStat => { s with panel.vcom := vmapIdx (fun n (x : VcomCh) => { x with ovl := x.ovl && !bit c (8 + n) }) s.panel.vcom }
  | .goaStat => if bit c 31 then { s with panel.goaSeen := false, panel.goaLine := 0 } else s
  | .novAttn => { s with link.attnFault := s.link.attnFault && !bit c 3, link.attnState := s.link.attnState && !bit c 4 }
  | .fltFirst => if bit c 31 then { s with flt.first := none } else s
  | .fltSticky k => if k = 0 then { s with flt.sticky0 := s.flt.sticky0 &&& ~~~c } else { s with flt.sticky1 := s.flt.sticky1 &&& ~~~c }
  | .fltBak => s.clearBak c
  | .pghDone j => { s with pgh.done := vmod s.pgh.done j (fun w => w &&& ~~~c) }
  | .thermStat => { s with therm.easeChange := s.therm.easeChange && !bit c 7 }
  | .ldgStat => { s with ledger.deferFull := s.ledger.deferFull && !bit c 2, mem.perrFlag := s.mem.perrFlag && !bit c 1
                         mem.satFlag := s.mem.satFlag && !bit c 0 }
  | .rwFlag => { s with rw.flag := s.rw.flag &&& ~~~(c.setWidth 6) }
  | .rtcStat => { s with rtc.badSet := s.rtc.badSet && !bit c 4, rtc.alm2F := s.rtc.alm2F && !bit c 1
                         rtc.alm1F := s.rtc.alm1F && !bit c 0 }
  | .auxCtl n => if bit c 5 then s.modAux n (fun a => { a with oc := false }) else s
  | .ledStat => s.clearLedLatch (c.setWidth 8) ((c >>> 8).setWidth 8)
  | .supFirst => if bit c 31 then { s with seq.first := none } else s
  | .pwrWake => { s with pwr.wake := s.pwr.wake &&& ~~~(c.setWidth 8) }
  | _ => s

/-- Actions of the write-only registers. -/
def State.act (s : State) (r : Reg) (d : Word) : State :=
  match r with
  | .secKey => s.writeKey (fld d 0 16)
  | .pghCtl => s.pghActs (fld d 0 2) [s.pghSelected]
  | .pghCtlAll => s.pghActs (fld d 0 2) ((List.range 2048).drop 1)
  | .pghCtlGroup => s.pghActs (fld d 0 2) s.pghGroup
  | .rtcCtl => s.rtcOp (fld d 0 2)
  | _ => s

/-! ### Test controls (R392) -/

/-- Writes a key of a list kept in rising order. -/
def putAt (l : SMap Word) (k : Nat) (v : Word) : SMap Word :=
  l.filter (fun x => decide (x.1 < k)) ++ (k, v) :: l.filter (fun x => decide (k < x.1))

/-- Reserved bits written at the base address in full decode: applied in factory test mode in Fallow, else counted. -/
def State.writeTest (s : State) (base rsv : Nat) (d : Word) : State :=
  if d &&& wd rsv = s.testBits base rsv then s
  else if s.inTest then { s with acc.testCtl := putAt s.acc.testCtl base (d &&& wd rsv) }
  else { s with acc.rsvdDiff := satAdd 255 s.acc.rsvdDiff 1 }

/-! ### Landing -/

/-- One register written through an alias. A bit that the hardware has set in the same cycle, the crystal's for the backup domain,
stays set (R13, R420). -/
def State.landOne (s : State) (op : Nat) (d : Word) (full : Bool) (base : Nat) : State :=
  match rowAt base with
  | none => s
  | some row =>
    let r := row.reg base
    let v := s.written base op d
    let s1 := if row.rw = 0 then s else s.putField row.dom r v
    let s2 := if row.w1c = 0 ∨ op = 1 ∨ op = 3 then s1 else s1.clearBits r (d &&& wd row.w1c &&& ~~~(s1.hwFresh base (if row.dom == .backup then cycle else 1)))
    let s3 := if row.wo then s2.act r d else s2
    if full ∧ op = 0 then s3.writeTest base row.rsv d else s3

/-- Numbers below n whose bit of a mask is set. -/
def maskList (n m : Nat) : List Nat := (List.range n).filter (fun i => m.testBit i)

/-- The registers that a listed address selects: itself, every register of an array, or those of its group mask (R397). -/
def State.members (s : State) (base : Nat) : List Nat :=
  if base = 0x310 then (List.range 8).map (fun n => 0x308 + n)
  else if base = 0x311 then (maskList 8 s.panel.vcomGroup.toNat).map (fun n => 0x308 + n)
  else if base = 0x910 then (List.range 64).map (fun n => 0x9C0 + n)
  else if base = 0x911 then
    (maskList 64 (s.therm.group0.toNat + s.therm.group1.toNat * 2 ^ 32)).map (fun n => 0x9C0 + n)
  else if base = 0xD44 then (List.range 4).map (fun n => 0xD40 + n)
  else if base = 0xD45 then (maskList 4 s.tree.auxGroup.toNat).map (fun n => 0xD40 + n)
  else if base = 0xD4C then (List.range 4).map (fun n => 0xD48 + n)
  else if base = 0xD4D then (maskList 4 s.tree.lswGroup.toNat).map (fun n => 0xD48 + n)
  else if base = 0xD58 then (List.range 8).map (fun n => 0xD50 + n)
  else if base = 0xD59 then (maskList 8 s.tree.ledGroup.toNat).map (fun n => 0xD50 + n)
  else [base]

/-- A write lands: `a` is a listed address with its alias in bits [13:12]; `full`: it was taken in full decode. -/
def State.land (s : State) (a : Nat) (d : Word) (full : Bool) : State :=
  (s.members (a % 4096)).foldl (fun (t : State) b => t.landOne (a / 4096) d full b) s

end Sys2Proof.Machine
end

