-- ==== Sys2Proof/Machine/Access.lean ====
section
/-! DEFINITION. How E1 serves register accesses (17_register_behaviour, R390 to R405; 15_power_states, R357) and how a
letter's reply is formed and recorded (16_novlet_link, R369 to R371, R387). -/

namespace Sys2Proof.Machine

/-! ### Replies (R369 to R371, R387) -/

/-- KIND and NUMBER of an ADDR byte (R363). -/
def kindOf (addr : Byte) : Nat := addr.toNat / 16 % 4
def numberOf (addr : Byte) : Nat := addr.toNat % 16

/-- Bytes of a reply (R369). -/
def State.replyBytes (s : State) (typ tag status : Byte) (body : List Byte) : List Byte :=
  let h := [typ ||| 0x80#8, BitVec.ofNat 8 s.house, tag, status] ++ leBytes 2 body.length ++ body
  h ++ leBytes 2 (crc16 h).toNat

/-- A reply is ready: full, short in a house-number slot, or none, by the letter's KIND (R367). -/
def State.sendReply (s : State) (typ addr tag status : Byte) (body : List Byte) : State :=
  if kindOf addr = 2 then s
  else if kindOf addr = 1 then
    { s with link.reply := some { bytes := s.replyBytes typ tag status [], readyAt := s.now, short := true } }
  else { s with link.reply := some { bytes := s.replyBytes typ tag status body, readyAt := s.now, short := false } }

/-- The recorded letter's full reply is kept with it: the record is whole, and `NOV_STAT.LAST_TAG` shows it (R387, R389;
log 34). -/
def State.keepReply (s : State) (typ tag : Byte) (crc : BitVec 16) (status : Byte) (body : List Byte) : State :=
  match s.link.recorded with
  | some r =>
    if r.typ = typ ∧ r.tag = tag ∧ r.crc = crc ∧ r.reply = [] then
      { s with link.recorded := some { r with reply := s.replyBytes typ tag status body }, link.lastTag := tag }
    else s
  | none => s

/-- A letter's answer: kept with the record, and sent where it is still wanted. -/
def State.answer (s : State) (wanted : Bool) (typ addr tag : Byte) (crc : BitVec 16) (status : Byte) (body : List Byte) : State :=
  let s1 := s.keepReply typ tag crc status body
  if wanted then s1.sendReply typ addr tag status body else s1

/-! ### Guarded writes (R400 to R404) -/

/-- Length of a guarded write's answer in SCLK (R403). -/
def guardSpan : Nat := 201327

/-- What a guarded write of the OTP group asks for, its word being written through an alias. -/
def State.otpAskAt (s : State) (a : Nat) (d : Word) : OtpAsk :=
  let v := s.written (a % 4096) (a / 4096) d
  if a % 4096 = 0x230 then .life (fld v 0 2) else s.askOf (fld v 0 3)

/-- Operation of a guarded write of `ALM_CTL`. -/
def State.almOpAt (s : State) (a : Nat) (d : Word) : Nat := fld (s.written (a % 4096) (a / 4096) d) 0 2

/-- The reason found at the letter (R183, R404, R418, R454). -/
def State.guardWhy (s : State) (g : Group) (a : Nat) (d : Word) : Option Nat :=
  let armed := s.acc.armed == some g
  if !s.acc.guarded.isEmpty then some 0x03
  else match g with
    | .almanac => s.almWhy armed (s.almOpAt a d)
    | .otp => s.otpWhy armed (s.otpAskAt a d)
    | .trims => if armed then none else some 0x01
    | .test => if !s.inTest then some 0x04 else if armed then none else some 0x01

/-- The write needs SEAL_N to its reply (R402). -/
def State.guardSeal (s : State) (g : Group) (a : Nat) (d : Word) : Bool :=
  match g with
  | .almanac => s.almOpAt a d == 3 && decide (2 ≤ s.lcNow)
  | .otp => s.otpNeedsSeal (s.otpAskAt a d)
  | _ => false

/-- A guarded write is taken: its outcome comes 1.000 ms after its letter, and it consumes its group's arming (R401, R403). -/
def State.takeGuarded (s : State) (v : Serving) (g : Group) (a : Nat) (d : Word) : State :=
  let x : Guarded := { typ := v.typ, addr := v.addr, tag := v.tag, crc := v.crc, reg := a, data := d, full := s.fullDecode
                       reply := v.reply, why := s.guardWhy g a d, needsSeal := s.guardSeal g a d, sealed := s.acc.sealIn
                       due := v.at_ + guardSpan }
  { s with acc.guarded := s.acc.guarded ++ [x], acc.armed := if s.acc.armed = some g then none else s.acc.armed }

/-- A guarded write to a posted block was in flight across the die bridge when a takeover began: it is lost, and answered as
accepted (R395; DESIGN CHOICE, log 80). -/
def State.bridgeLost (s : State) (x : Guarded) : Bool :=
  s.seq.hedge && decide (x.due ≤ s.seq.hedgeAt + guardSpan)
    && (match rowAt (x.reg % 4096) with
      | some r => r.posted && !(r.dom == .backup) && hasTransit (blockOf x.reg)
      | none => false)

/-- The outcome at the reply: SEAL_N held, an operation's supply still in its window (R402, R454), and a load still in the state
that the operation needs, since VIN's loss may have ended it meanwhile (R187; DESIGN CHOICE, log 117). -/
def State.guardOutcome (s : State) (x : Guarded) : Option Nat :=
  let block := blockOf x.reg
  match x.why with
  | some c => some c
  | none =>
    if x.needsSeal && !x.sealed then some (if block = 7 then 0x21 else 0x02)
    else if block = 2 then
      (match s.otpAskAt x.reg x.data with
        | .margin _ _ => none
        | _ => if s.progOk then none else some 0x10)
    else if block = 7 then
      (match s.almStage (s.almOpAt x.reg x.data) with
        | some c => if c ≤ 0x24 then some c else none
        | none => none)
    else none

/-! ### One access (R390) -/

/-- How far an access came: it stalls, it is done, or it is a guarded write whose reply comes later. -/
inductive AccessEnd where
  | stall (v : Serving)
  | done (v : Serving)
  | guarded

/-- The letter past its present access, with the word read where it reads. -/
def Serving.past (v : Serving) (w : Word) : Serving :=
  { v with next := v.next + 1, todo := v.todo.tail, got := if v.write then [] else v.got ++ [w], held := false }

/-- Step 2: the domain to be woken begins to wake; one that is waking already, on demand or for the return, is waited for (R357). -/
def State.wakeDomain (s : State) (k : Nat) : State :=
  if (vget s.pwr.waking k).isSome then s
  else { s with pwr.waking := vset s.pwr.waking k (some ((s.returnWakes k).getD (s.now + wakeDelay k))) }

/-- An access to a woken domain keeps it awake (R357). -/
def State.touch (s : State) (d : Dom) : State :=
  match wakeOf d with
  | some k => if s.pwr.st = .hold then { s with pwr.awake := vset s.pwr.awake k (some s.now) } else s
  | none => s

/-- A posted write is accepted (R394). -/
def State.post (s : State) (a : Nat) (d : Word) (backup : Bool) : State :=
  let p : Posted := { block := Fin.ofNat 16 (blockOf a), addr := a, data := d, full := s.fullDecode, backup := backup
                      due := s.now + if backup then 18432 else usToSclk 1 }
  { s with acc.posted := s.acc.posted ++ [p] }

/-- Step 5 of a write: ignored where no field is written, posted, or at once. -/
def State.writeStep (s : State) (row : RegRow) (a : Nat) (d : Word) : State :=
  if !row.effect then (if s.fullDecode && a / 4096 == 0 then s.writeTest a row.rsv d else s)
  else if row.posted then s.post a d (row.dom == .backup)
  else s.land a d s.fullDecode

/-- A write held by TRANSIT counts once (R394). -/
def State.countHeld (s : State) (v : Serving) : State :=
  if v.write && !v.held then { s with acc.heldCnt := satAdd 255 s.acc.heldCnt 1 } else s

/-- A guarded write that arrives with BUSY set is answered without the steps before (R404). -/
def State.jumpsIn (s : State) (v : Serving) (row : RegRow) : Bool :=
  v.write && row.key.isSome && !s.acc.guarded.isEmpty && !s.relocking

/-- The access to a listed address. -/
def State.accessTo (s : State) (v : Serving) (row : RegRow) (a : Nat) (d : Word) : State × AccessEnd :=
  match row.key, s.jumpsIn v row with
  | some g, true => (s.takeGuarded v g a d, .guarded)
  | key, _ =>
    if s.relocking then (s, .stall v)
    else match s.mustWake a with
      | some k => (s.wakeDomain k, .stall v)
      | none =>
        if (v.write || row.readWaits) && s.transit (blockOf a) then (s.countHeld v, .stall { v with held := v.write })
        else
          let s1 := s.touch row.dom
          if v.write then
            match key with
            | some g => (s1.takeGuarded v g a d, .guarded)
            | none => (s1.writeStep row a d, .done (v.past 0))
          else
            let r := s1.readAt a
            (r.2, .done (v.past r.1))

/-- The next access of a letter. -/
def State.access (s : State) (v : Serving) : State × AccessEnd :=
  match s.decodeAddr v.next with
  | none => (s, .done (v.past 0))
  | some a =>
    match rowAt (a % 4096) with
    | none => (s, .done (v.past 0))
    | some row => s.accessTo v row a (v.todo.headD 0)

/-! ### A letter's range, and the letters that wait (R376, R390) -/

/-- A register letter served to its end: its reply. -/
def State.servedTo (s : State) (v : Serving) : State :=
  s.answer v.reply v.typ v.addr v.tag v.crc 0 (v.got.flatMap (fun w => leBytes 4 w.toNat))

/-- Serves a letter until it stalls or ends; at most n accesses. -/
def State.serve : Nat → State → Serving → State
  | 0, s, v => s.servedTo v
  | n + 1, s, v =>
    if v.todo.isEmpty then s.servedTo v
    else match s.access v with
      | (s1, .stall v1) => { s1 with link.serving := s1.link.serving ++ [v1] }
      | (s1, .done v1) => State.serve n s1 v1
      | (s1, .guarded) => s1

/-- Serves a letter from where it stands. -/
def State.serveLetter (s : State) (v : Serving) : State := State.serve v.todo.length s v

/-- Every letter that waits goes on as far as it can, oldest first, once E1 has its clock. -/
def State.pump (s : State) : State :=
  if s.linkClock then s.link.serving.foldl State.serveLetter { s with link.serving := [] } else s

/-! ### Events of accesses (R357, R394, R403) -/

/-- 1.000 ms after a guarded write's letter (R403); what its TRANSIT bit held goes on. -/
def State.guardedReply (s : State) : State :=
  match s.acc.guarded with
  | [] => s
  | x :: l =>
    if s.clock.pllLock then
      let s1 := s.reach x.due
      let c := s1.guardOutcome x
      let s2 := { s1 with acc.guarded := l }
      let s3 := match c with
        | none => if s1.bridgeLost x then s2 else s2.land x.reg x.data x.full
        | some k => { s2 with acc.refusals := sat16 s2.acc.refusals 1, acc.why := k }
      State.pump (State.answer s3 x.reply x.typ x.addr x.tag x.crc (if c.isSome then 0x30 else 0) [])
    else s

/-- The oldest posted write to a block lands, and its TRANSIT bit clears (R394). -/
def State.postedLand (s : State) (b : Nat) : State :=
  match s.acc.posted.find? (fun p => p.block.val == b) with
  | none => s
  | some p =>
    let s1 := s.reach p.due
    State.pump (State.land { s1 with acc.posted := s1.acc.posted.erase p } p.addr p.data p.full)

/-- The wake in progress that ends first. -/
def State.nextWake (s : State) : Option (Nat × Nat) :=
  (List.range 3).foldl (fun (a : Option (Nat × Nat)) k => match vget s.pwr.waking k with
    | none => a
    | some t => match a with
      | none => some (k, t)
      | some x => if t < x.2 then some (k, t) else a) none

/-- A domain woken on demand is awake, and what stalled for it is served. -/
def State.wakeDone (s : State) : State :=
  match s.nextWake with
  | none => s
  | some x =>
    let s1 := s.reach x.2
    State.pump { s1 with pwr.waking := vset s1.pwr.waking x.1 none
                         pwr.awake := if s1.pwr.st = .hold then vset s1.pwr.awake x.1 (some s1.now) else s1.pwr.awake
                         pwr.retUp := setBit s1.pwr.retUp x.1 true }

/-- 64 crystal cycles after its last access a domain returns to its HOLD setting. -/
def State.rehold (s : State) (k : Nat) : State :=
  match vget s.pwr.awake k with
  | some t =>
    let s1 := s.reach (t + 64 * cycle)
    { s1 with pwr.awake := vset s1.pwr.awake k none }
  | none => s

/-- Relocked: programming is possible again, and what stalled for the PLL is served 2.0 ms after the relock began. Not relocked: the
link stays silent (R288, R357, R452, R461). -/
def State.relockDone (s : State) : State :=
  if s.relocking then
    let s1 := s.relocked.otpNext
    State.pump (if s1.link.serving.isEmpty then s1 else s1.reach (s.clock.relockAt + usToSclk 2000))
  else s
def State.relockFailed (s : State) : State :=
  if s.relocking then { s.notRelocked with link.serving := [] } else s

end Sys2Proof.Machine
end

