-- ==== Sys2Proof/Machine/LetterForm.lean ====
section
/-! DEFINITION. The form of a letter (16_novlet_link, R361 to R366, R374 to R378): its types, fields and limits, and the
reserved content that is to be 0. -/

namespace Sys2Proof
open Machine

/-! ### Letter types (R374) -/

def tHello : Nat := 0x01
def tRead : Nat := 0x02
def tWrite : Nat := 0x03
def tCollect : Nat := 0x05
def tScan : Nat := 0x06
def tWhy : Nat := 0x07
def tUpdate : Nat := 0x10
def tRestate : Nat := 0x11
def tStage : Nat := 0x12

/-- TYPE is listed. -/
def knownType (t : Nat) : Bool := [tHello, tRead, tWrite, tCollect, tScan, tWhy, tUpdate, tRestate, tStage].contains t

/-- Bytes of a letter before its CRC (R363). -/
def Letter.bytes (l : Letter) : List Byte := [l.typ, l.addr, l.tag, l.res] ++ leBytes 4 l.length.toNat ++ l.body

/-- KIND and NUMBER. -/
def Letter.kind (l : Letter) : Nat := kindOf l.addr
def Letter.number (l : Letter) : Nat := numberOf l.addr

/-- Rises of a letter of its LENGTH in its framing (R361, R383). -/
def Letter.risesDue (l : Letter) : Nat := (if l.framing = .v1 then 8 else 2) * (10 + l.length.toNat)

/-- Order 1 of R365. -/
def Letter.framed (l : Letter) : Bool :=
  !(l.framing == .bad) && l.rises == l.risesDue && l.body.length == l.length.toNat

/-- Order 2 of R365. -/
def Letter.sound (l : Letter) : Bool := crc16 l.bytes == l.crc

/-! ### Register letters and update letters (R376, R377) -/

/-- Fields of an update or restate letter as they stand in its body (R377). -/
structure UpdateFields where
  n : Nat
  col0 : Nat
  width : Nat
  row0 : Nat
  height : Nat
  mode : Nat
  preempt : Bool
  format : Nat
  prio : Nat
  keep : Bool
  ref : Bool
  source : Nat
  payload : List Byte
deriving DecidableEq, Repr

/-- The fields read from a body. -/
def updateFields (b : List Byte) : UpdateFields :=
  let c := (byteAt b 10).toNat
  { n := half b 0 % 2048, col0 := half b 2 % 4096, width := half b 4 % 4096, row0 := half b 6 % 2048, height := half b 8 % 4096
    mode := c % 4, preempt := c.testBit 2, format := c / 8 % 4, prio := c / 32 % 4, keep := c.testBit 7
    ref := (byteAt b 11).toNat.testBit 0, source := half b 12 % 2048, payload := b.drop 16 }

/-- Reserved content of an update or restate letter is 0 (R377). -/
def updateReserved (b : List Byte) (restate : Bool) : Bool :=
  let f := updateFields b
  half b 0 < 2048 && half b 2 < 4096 && half b 4 < 4096 && half b 6 < 2048 && half b 8 < 4096
    && decide ((byteAt b 11).toNat < 2) && half b 12 < 2048 && half b 14 == 0 && (f.ref || f.source == 0)
    && (!restate || (f.mode == 0 && !f.preempt && f.prio == 0))

/-- COUNT of a register letter. -/
def Letter.count (l : Letter) : Nat := (byteAt l.body 2).toNat

/-- Words of a WRITE. -/
def Letter.words (l : Letter) : List Word := (List.range l.count).map (fun i => wd (quad l.body (4 + 4 * i)))

/-! ### Limits (R366, R374 to R378) -/

/-- The type is allowed with the letter's KIND (R366, R374). -/
def Letter.kindOk (l : Letter) : Bool :=
  let t := l.typ.toNat
  if t = tCollect then l.kind == 3 else if t = tRead ∨ t = tWhy ∨ t = tStage then l.kind == 0 else !(l.kind == 3)

/-- LENGTH and COUNT lie in the type's limits (R374, R376). -/
def Letter.lengthOk (l : Letter) : Bool :=
  let t := l.typ.toNat
  let n := l.length.toNat
  let c := decide (1 ≤ l.count) && decide (l.count ≤ 64)
  if t = tHello ∨ t = tScan then n == 4
  else if t = tRead then n == 4 && c
  else if t = tWrite then c && n == 4 + 4 * l.count
  else if t = tCollect ∨ t = tWhy then n == 0
  else if t = tStage then decide (5 ≤ n) && decide (n ≤ 430088)
  else decide (16 ≤ n) && decide (n ≤ 3932176)

/-- Reserved content is 0 (R363, R375 to R378). -/
def Letter.reservedOk (l : Letter) : Bool :=
  let t := l.typ.toNat
  let b := l.body
  l.res == 0 && decide (l.addr.toNat < 64)
    && (if t = tHello then half b 2 == 0
        else if t = tRead ∨ t = tWrite then byteAt b 3 == 0
        else if t = tScan then decide ((byteAt b 0).toNat < 4) && byteAt b 1 == 0 && half b 2 == 0
        else if t = tUpdate ∨ t = tRestate then updateReserved b (t == tRestate)
        else true)

/-- A COLLECT letter begins a round in every device that finds it sound (R380). -/
def Letter.collects (l : Letter) : Bool := l.typ.toNat == tCollect && l.kind == 3


end Sys2Proof
end

