-- ==== Sys2Proof/Machine/Link.lean ====
section
/-! DEFINITION. The Novlet link (16_novlet_link, R361 to R389): what receives a letter, the checks of R365, and each letter's
own part; collection rounds; replies cut short or dropped; the wake frame. -/

namespace Sys2Proof.Machine

/-! ### The device hears (R288, R388, R354, R482) -/

/-- DORMANT's commit point has passed, or was the entry's begin with the scan stopped: the link takes no letter. -/
def State.linkShut (s : State) : Bool := s.pwr.st == .enterDormant && (s.pwr.committed || (s.pwr.noWait && !s.scan.scanning))

/-- Letters are received: link up, E1 clocked, no order of RESET_N; while a takeover's relock runs, register letters, which stall.
-/
def State.hears (s : State) (l : Letter) : Bool :=
  (s.up.stage == .plan || s.up.stage == .complete) && !s.linkShut && !s.resetOrder
    && (s.linkClock || (s.relocking && (l.typ.toNat == tRead || l.typ.toNat == tWrite)))

/-! ### A letter begins (R372, R381) -/

/-- A reply is still being prepared for a letter. -/
def State.replyPending (s : State) : Bool := s.link.serving.any (fun v => v.reply) || s.acc.guarded.any (fun g => g.reply)

/-- No letter's reply is wanted any more. -/
def State.forgetReplies (s : State) : State :=
  { s with link.serving := s.link.serving.map (fun v => { v with reply := false })
           acc.guarded := s.acc.guarded.map (fun g => { g with reply := false }), link.reply := none }

/-- NSTB_N falls: a reply still being prepared is discarded and counted, a round ends, a driven reply is over. -/
def State.letterStart (s : State) : State :=
  let s1 := if s.replyPending then { s with link.abort := sat16 s.link.abort 1 } else s
  { s1.forgetReplies with link.inRound := false, link.winner := false, rtc.quietAt := s.now }

/-! ### Addressing and the checks of order 5 (R365, R366, R374 to R384) -/

/-- Order 3. -/
def State.addressed (s : State) (l : Letter) : Bool :=
  let n := l.number
  if l.kind = 0 then n == s.house
  else if l.kind = 1 then !(s.link.version == 1) && !(n == 0) && (n == s.postA || n == s.postB)
  else true

/-- Order 4: the letter repeats the one recorded. -/
def State.repeats (s : State) (l : Letter) : Bool :=
  match s.link.recorded with
  | some r => r.typ == l.typ && r.tag == l.tag && r.crc == l.crc
  | none => false

/-- The open version lacks the letter: its framing, its type, or a field's value (R374, R382, R384). -/
def State.versionLacks (s : State) (l : Letter) : Bool :=
  let t := l.typ.toNat
  let f := updateFields l.body
  if t = tHello then false
  else if s.link.version = 1 then
    !(l.framing == .v1)
      || (if t = tRead ∨ t = tWrite then !(l.count == 1)
          else if t = tUpdate then decide (1 < f.format) || f.preempt || f.keep || f.ref
          else !(t == tScan || t == tCollect))
  else
    !(l.framing == .v2) || (s.link.version == 2 && (t == tRestate || t == tWhy || (t == tUpdate && f.preempt)))

/-- Status of order 5, if the letter fails it (R373). -/
def State.order5 (s : State) (l : Letter) : Option Byte :=
  let t := l.typ.toNat
  if s.link.version = 0 ∧ t ≠ tHello then some 0xF1
  else if !knownType t then some 0xF0
  else if s.versionLacks l then some 0xF2
  else if !(l.kindOk && l.reservedOk && l.lengthOk) then some 0xF3
  else none

/-! ### HELLO (R375) -/

/-- Highest version from VMIN to VMAX; version 1 framing considers 1 alone. -/
def chooseVersion (v1 : Bool) (vmin vmax : Nat) : Nat :=
  ((if v1 then [0x10] else [0x10, 0x20, 0x21]).filter (fun v => decide (vmin ≤ v) && decide (v ≤ vmax))).foldl max 0

/-- `NOV_STAT.VERSION` of a version. -/
def versionCode (v : Nat) : Nat := if v = 0x10 then 1 else if v = 0x20 then 2 else 3

/-- Order 6 of HELLO. -/
def State.helloLetter (s : State) (l : Letter) : State :=
  let c := chooseVersion (l.framing == .v1) (byteAt l.body 1).toNat (byteAt l.body 0).toNat
  let s1 := { s with link.recorded := none }
  let body := [BitVec.ofNat 8 c, 0x21#8, BitVec.ofNat 8 s.house, BitVec.ofNat 8 (s.postA + 16 * s.postB)]
  if c = 0 then s1.sendReply l.typ l.addr l.tag 0xF2 body
  else State.sendReply { s1 with link.version := versionCode c, acc.helloSeen := true } l.typ l.addr l.tag 0 body

/-! ### UPDATE and RESTATE (R195, R196, R200, R205) -/

/-- Pages that a payload takes (R199). -/
def pagesFor (bytes : Nat) : Nat := (bytes + 1023) / 1024

/-- The first check of R196 that fails. A letter with payload bytes and Reference set carries no payload of its own: it fails for
that, not for BUSY (DESIGN CHOICE, log 121). -/
def State.updateCheck (s : State) (f : UpdateFields) : Byte :=
  let p := s.pgh_ f.n
  let empty := f.width == 0 || f.height == 0
  let own := !f.payload.isEmpty
  let src := if f.ref && !(f.source == 0) then (s.pgh_ f.source).kept else none
  let len := payloadLen f.format f.width f.height
  if f.n = 0 then 0x01
  else if p.busy || (p.kept.isSome && s.referred f.n && own && !f.ref) then 0x02
  else if f.col0 % 4 ≠ 0 ∨ f.width % 4 ≠ 0 ∨ s.cols < f.col0 + f.width ∨ s.rows < f.row0 + f.height then 0x03
  else if (f.ref && own) || (empty && (own || f.ref)) || (!f.ref && !(f.payload.length == len)) then 0x04
  else if f.ref && !(match src with | some x => x.format == f.format && x.bytes.size == len | none => false) then 0x05
  else if s.pagesFree + (if own then (Payload.pagesOf p.kept).length else 0) < pagesFor f.payload.length then 0x06
  else if s.rtc.deliveryAt.isSome then 0x07
  else 0x00

/-- The payload of an accepted letter: its source's, its own in pages newly allocated, or none (R198 to R200). -/
def State.storePayload (s : State) (f : UpdateFields) : Option Payload × State :=
  if f.ref then ((s.pgh_ f.source).kept, s)
  else if f.payload.isEmpty then (none, s)
  else
    -- a kept payload that the letter replaces is freed first; the letter's descriptor then takes its place
    let s1 := s.modPgh f.n (fun p => { p with payload := if p.ref then p.payload else none, own := none })
    let r := s1.allocate (pagesFor f.payload.length)
    (some { format := f.format, pages := r.1, bytes := f.payload.toArray }, { s with free := r.2.free })

/-- An accepted letter: PENDING with its descriptor (R193 to R197). -/
def State.acceptUpdate (s : State) (f : UpdateFields) (restate : Bool) : State :=
  let old := s.pgh_ f.n
  let own := if f.payload.isEmpty then old.kept else none
  let r := s.storePayload f
  let t := r.2.drawTicket
  let p : Pgh := { Pgh.free with
    row0 := f.row0, height := f.height, colg0 := f.col0 / 4, widg := f.width / 4, mode := Fin.ofNat 4 f.mode
    preempt := f.preempt, format := Fin.ofNat 4 f.format, prio := Fin.ofNat 4 f.prio, keep := f.keep, ref := f.ref
    source := if f.ref then f.source else f.n, page := (Payload.pagesOf r.1).headD 0xFFF, ticket := t.1, restate := restate
    state := .pending, acceptedAt := s.now, payload := r.1, own := own, freeWaits := old.freeWaits && own.isSome }
  t.2.setPgh f.n p

/-- Order 6 of UPDATE and RESTATE: the code of R196, and the letter's effect where it is accepted. -/
def State.updateLetter (s : State) (l : Letter) (restate : Bool) : State × Byte :=
  let f := updateFields l.body
  let c := s.updateCheck f
  if c = 0 then (s.acceptUpdate f restate, 0) else (s, c)

/-! ### Register letters (R376) -/

/-- A guarded register lies in the range of a WRITE (R373). -/
def State.rangeGuarded (s : State) (a n : Nat) : Bool :=
  anyTo n (fun i => match s.decodeAddr (a + i) with
    | some x => match rowAt (x % 4096) with
      | some r => r.key.isSome
      | none => false
    | none => false)

/-- Order 6 of READ and WRITE. -/
def State.registerLetter (s : State) (l : Letter) : State :=
  let a := half l.body 0
  let wr := l.typ.toNat == tWrite
  if 0x4000 ≤ a then s.answer true l.typ l.addr l.tag l.crc 0x31 []
  else if wr ∧ 1 < l.count ∧ s.rangeGuarded a l.count then s.answer true l.typ l.addr l.tag l.crc 0x32 []
  else
    s.serveLetter { typ := l.typ, addr := l.addr, tag := l.tag, crc := l.crc, write := wr, at_ := s.now, reply := !(l.kind == 2)
                    held := false, next := a, todo := if wr then l.words else List.replicate l.count 0, got := [] }

/-! ### SCAN and WHY (R347, R378) -/

/-- Order 6 of SCAN: E0's decision, and the level events that act with it. -/
def State.scanLetter (s : State) (l : Letter) : State :=
  let s1 := (s.request (reqOf (byteAt l.body 0).toNat)).1
  let s2 := s1.attend
  s2.answer true l.typ l.addr l.tag l.crc 0 [BitVec.ofNat 8 s1.pwr.result.code, BitVec.ofNat 8 s1.pwr.refuser]

/-- Order 6 of WHY. -/
def State.whyLetter (s : State) (l : Letter) : State :=
  s.answer true l.typ l.addr l.tag l.crc 0
    [BitVec.ofNat 8 s.pwr.refuser, if s.acc.sealIn then BitVec.ofNat 8 s.acc.why else 0]

/-! ### Order 6 (R365, R351, R387) -/

/-- A letter passes order 5: it is counted and recorded, and a waking type ends HOLD. -/
def State.passed (s : State) (l : Letter) : State :=
  let t := l.typ.toNat
  let s1 := { s with link.letters := (s.link.letters + 1) % 65536 }
  let s2 := if l.kind = 0 ∧ t ≠ tHello then
      { s1 with link.recorded := some { typ := l.typ, tag := l.tag, crc := l.crc, reply := [] } }
    else s1
  if t = tHello ∨ t = tUpdate ∨ t = tRestate ∨ t = tStage then s2.wakeEvent .letter else s2

/-- The letter's own part. -/
def State.order6 (s : State) (l : Letter) : State :=
  let t := l.typ.toNat
  let say (r : State × Byte) : State := r.1.answer true l.typ l.addr l.tag l.crc r.2 []
  if t = tHello then s.helloLetter l
  else if t = tRead ∨ t = tWrite then s.registerLetter l
  else if t = tScan then s.scanLetter l
  else if t = tWhy then s.whyLetter l
  else if t = tStage then say (s.stageLetter (quad l.body 0) (l.body.drop 4))
  else if t = tUpdate ∨ t = tRestate then say (s.updateLetter l (t == tRestate))
  else s

/-- A letter that repeats the recorded one: its reply again, or when the letter's own is ready (R365, R387). -/
def State.repeatLetter (s : State) (l : Letter) : State :=
  let s1 := { s with link.dup := sat16 s.link.dup 1 }
  match s.link.recorded with
  | some r =>
    if r.reply = [] then
      { s1 with
        link.serving := s1.link.serving.map (fun v =>
          { v with reply := v.reply || (v.typ == l.typ && v.tag == l.tag && v.crc == l.crc) })
        acc.guarded := s1.acc.guarded.map (fun g =>
          { g with reply := g.reply || (g.typ == l.typ && g.tag == l.tag && g.crc == l.crc) }) }
    else { s1 with link.reply := some { bytes := r.reply, readyAt := s1.now, short := false } }
  | none => s1

/-! ### A letter received (R365) -/

/-- The round begins, whatever order 5 says of the letter: a winner replies with its status (R365, R380). -/
def State.beginRound (s : State) (l : Letter) : State :=
  let s1 := { s with link.inRound := true, link.replied := false, link.winner := false, link.roundTag := l.tag
                     link.roundStatus := (s.order5 l).getD 0 }
  if (s.order5 l).isNone then { s1 with link.letters := (s.link.letters + 1) % 65536 } else s1

/-- Orders 3 to 6. -/
def State.examine (s : State) (l : Letter) : State :=
  if !s.addressed l then s
  else if s.repeats l then s.repeatLetter l
  else match s.order5 l with
    | some c => s.sendReply l.typ l.addr l.tag c []
    | none => (s.passed l).order6 l

/-- A letter. -/
def State.receiveLetter (s : State) (l : Letter) : State :=
  if s.hears l then
    let s1 := s.letterStart
    if !l.framed then { s1 with link.errFrame := sat16 s1.link.errFrame 1 }
    else if !l.sound then { s1 with link.errCrc := sat16 s1.link.errCrc 1 }
    else if l.collects then s1.beginRound l
    else s1.examine l
  else s

/-! ### Other events of the link (R362, R370, R372, R380, R381) -/

/-- The link can see an event: up, clocked. -/
def State.linkLive (s : State) : Bool :=
  (s.up.stage == .plan || s.up.stage == .complete) && !s.linkShut && !s.resetOrder && s.linkClock

/-- More than 12,288 SCLK between rises. -/
def State.gap (s : State) : State :=
  if s.linkLive then
    let s1 := s.letterStart
    { s1 with link.gap := sat16 s1.link.gap 1 }
  else s

/-- NSTB_N low during a reply, or before its launch: a winner that is cut short is not served, and the round ends. -/
def State.cutShort (s : State) (driving : Bool) : State :=
  if s.linkLive && (s.link.reply.isSome || (!driving && s.replyPending)) then
    { s.forgetReplies with
      link.abort := sat16 s.link.abort 1, link.inRound := false, link.winner := false, rtc.quietAt := s.now }
  else s

/-- A reply not launched within 10 ms. -/
def State.dropReply (s : State) : State :=
  match s.link.reply with
  | some r =>
    if s.linkLive then
      let s1 := s.reach (r.readyAt + usToSclk 10000)
      { s1 with link.reply := none, link.winner := false, link.gap := sat16 s1.link.gap 1 }
    else s
  | none => s

/-- The end of an arbitration's slots (R380, R381): a winner of the arbitration before has replied by now. -/
def State.arbitrate (s : State) (others : List (BitVec 4)) : State :=
  if s.link.inRound && s.linkLive then
    let s1 := if s.link.winner then { s with link.replied := true, link.winner := false, link.reply := none } else s
    let mine := !(s1.attnWord == 0) && !s1.link.replied
    if !mine && others.isEmpty then { s1 with link.inRound := false }
    else if mine && others.all (fun h => decide (s1.house ≤ h.toNat)) then
      State.sendReply { s1 with link.winner := true } 0x05 0x30 s1.link.roundTag s1.link.roundStatus
        (if s1.link.roundStatus = 0 then leBytes 4 s1.attnWord else [])
    else s1
  else s

/-! ### The wake frame (R385, R386) -/

/-- The matcher finds the frame addressed to the device. -/
def State.frameMatches (s : State) (rises : Nat) (f : BitVec 16) : Bool :=
  let w := f.toNat
  let kind := w / 16 % 4
  let n := w / 64 % 16
  rises == 16 && w % 16 == 9 && w / 2 ^ 14 == 2 && w / 2 ^ 10 % 16 == (15 - n)
    && ((kind == 0 && n == s.pwr.mHouse.toNat)
        || (kind == 1 && !(n == 0) && (n == s.pwr.mPostA.toNat || n == s.pwr.mPostB.toNat)) || kind == 2)

/-- A wake frame: in DORMANT a start-up, or deferred while VIN is not valid, whatever BAKSET selects (R355 followed, not R72's words
on wake frames; DESIGN CHOICE, log 132); past DORMANT's commit point it is held; a
running link counts it as a letter that fails order 1. -/
def State.wakeFrame (s : State) (rises : Nat) (f : BitVec 16) : State :=
  if s.up.stage = .off then
    if s.pwr.st = .dormant ∧ s.rtc.armed ∧ s.frameMatches rises f then
      if s.tree.vinValid then State.enterStartup ((s.addCause wakeFrameBit).addCause wakeDormantBit)
      else (s.addCause wakeFrameBit).addCause wakeDeferredBit
    else s
  else if s.pwr.st = .enterDormant ∧ s.pwr.committed then
    (if s.rtc.armed ∧ s.frameMatches rises f ∧ ¬ s.raceWindow then
      (if s.tree.vinValid then { s with pwr.held := true } else State.addCause { s with pwr.held := true } wakeDeferredBit)
     else s)
  else if s.linkLive then
    let s1 := s.letterStart
    { s1 with link.errFrame := sat16 s1.link.errFrame 1 }
  else s

/-! ### One-word letters of the register rows -/

/-- The letter of a write of one word, as it was addressed. -/
def viaWrite (v : Via) (a : Nat) (d : Word) : Letter :=
  let l : Letter := { framing := v.framing, rises := if v.framing = .v1 then 144 else 36, typ := 0x03
                      addr := BitVec.ofNat 8 (v.kind.toNat * 16 + v.number.toNat), tag := v.tag, res := 0, length := 8
                      body := leBytes 2 a ++ [1, 0] ++ leBytes 4 d.toNat, crc := 0 }
  { l with crc := crc16 l.bytes }

/-- The SCAN letter of a request. -/
def viaScan (v : Via) (k : Nat) : Letter :=
  let l : Letter := { framing := v.framing, rises := if v.framing = .v1 then 112 else 28, typ := 0x06
                      addr := BitVec.ofNat 8 (v.kind.toNat * 16 + v.number.toNat), tag := v.tag, res := 0, length := 4
                      body := [BitVec.ofNat 8 k, 0, 0, 0], crc := 0 }
  { l with crc := crc16 l.bytes }

/-- A one-word write is received. -/
def State.viaWord (s : State) (v : Via) (a : Nat) (d : Word) : State := s.receiveLetter (viaWrite v a d)

/-- Place of an alias in bits [13:12] of an address (R396). -/
def opCode : AliasOp → Nat
  | .base => 0
  | .set => 1
  | .clear => 2
  | .toggle => 3

/-- A one-word write through an alias is received. -/
def State.viaAlias (s : State) (v : Via) (op : AliasOp) (a : Nat) (d : Word) : State := s.viaWord v (4096 * opCode op + a) d

/-- Address of an array's channel, its broadcast or its group alias. -/
def selAddr {n : Nat} (first all grp : Nat) : Sel n → Nat
  | .one i => first + i.val
  | .broadcast => all
  | .group => grp

/-- A request by letter or by a write of `PWR_CTL` (R347). -/
def State.viaRequest (s : State) (v : Via) (k : Nat) (f : ReqForm) : State :=
  match f with
  | .scan => s.receiveLetter (viaScan v k)
  | .write d => s.viaWord v 0xF00 ((d &&& ~~~(3#32)) ||| wd k)

end Sys2Proof.Machine
end

