-- ==== Sys2Proof/Machine/ExecAccess.lean ====
section
/-! DEFINITION. The access family: keys, posted and guarded writes, on-demand wakes (17_register_behaviour, 15_power_states). -/

namespace Sys2Proof.Machine

/-- SEC_KEY (R401). -/
def execSecKey (via : Via) (data : Word) (s : State) : Host.Outcome State Fault Refusal :=
  .next (s.viaWord via 0x210 data)

/-- POSTED_WRITE_LAND (R394). -/
def execPostedWriteLand (block : Fin 16) (s : State) : Host.Outcome State Fault Refusal :=
  .next (s.postedLand block.val)

/-- GUARDED_WRITE_REPLY (R403). -/
def execGuardedWriteReply (s : State) : Host.Outcome State Fault Refusal :=
  .next s.guardedReply

/-- ON_DEMAND_WAKE_DONE (R357). -/
def execOnDemandWakeDone (s : State) : Host.Outcome State Fault Refusal :=
  .next s.wakeDone

/-- DOMAIN_REHOLD (R357). -/
def execDomainRehold (d : WakeDomain) (s : State) : Host.Outcome State Fault Refusal :=
  .next (s.rehold (match d with | .drills => 0 | .arrays => 1 | .bias => 2))

/-- SEAL_N_CHANGE (R402, R461). -/
def execSealNChange (asserted : Bool) (s : State) : Host.Outcome State Fault Refusal :=
  .next (s.sealChange asserted).attend

end Sys2Proof.Machine
end

