-- ==== Sys2Proof/Machine/ExecAlm.lean ====
section
/-! DEFINITION. The almanac family (07_almanac, R181 to R189). -/

namespace Sys2Proof.Machine

/-- ALM_OPEN (R182). -/
def execAlmOpen (via : Via) (s : State) : Host.Outcome State Fault Refusal :=
  .next (s.viaWord via 0x700 1)

/-- ALM_CLOSE (R182). -/
def execAlmClose (via : Via) (s : State) : Host.Outcome State Fault Refusal :=
  .next (s.viaWord via 0x700 2)

/-- ALM_COMMIT (R183 to R185). -/
def execAlmCommit (via : Via) (s : State) : Host.Outcome State Fault Refusal :=
  .next (s.viaWord via 0x700 3)

/-- ALM_ABORT (R187). -/
def execAlmAbort (via : Via) (s : State) : Host.Outcome State Fault Refusal :=
  .next (s.viaWord via 0x700 0)

/-- ALM_VALIDATION_DONE (R181). -/
def execAlmValidationDone (s : State) : Host.Outcome State Fault Refusal :=
  .next s.validationEnd

/-- ALM_DRAIN_END (R185). -/
def execAlmDrainEnd (s : State) : Host.Outcome State Fault Refusal :=
  .next s.drainEnd

/-- ALM_COPY_DONE (R185, R186). -/
def execAlmCopyDone (crcMatches : Bool) (s : State) : Host.Outcome State Fault Refusal :=
  .next (s.copyDone crcMatches)

/-- ALM_RECHECK_PASS (R189). -/
def execAlmRecheckPass (agrees : Bool) (s : State) : Host.Outcome State Fault Refusal :=
  .next (s.recheckPass agrees)

end Sys2Proof.Machine
end

