-- ==== Sys2Proof/Machine/Leads.lean ====
section
/-! DEFINITION. What the device's leads show, as functions of the state (02_package_and_leads, R45 to R47; 05_panel_outputs,
R102 to R108, R111 to R114; 14_sequencing_and_supervision, R342): nothing here changes the state. -/

namespace Sys2Proof.Machine

/-! ### Open-drain flags and the link (R45, R379, R428, R465, R484) -/

/-- RSTOUT_N, ALARM_N, FAULT_N, ATTN_N and LSWn_N are asserted. -/
def State.rstoutN (s : State) : Bool := s.rtc.alive && s.up.rstOut
def State.alarmN (s : State) : Bool := s.rtc.alive && (s.rtc.alm1F || s.rtc.alm2F)
def State.faultN (s : State) : Bool := s.faultOut
def State.attnN (s : State) : Bool := s.linkLive && s.attnOut
def State.lswN (s : State) (n : Nat) : Bool := (vget s.hedgeDue.tree.lsw n).asserted

/-- The wake receivers of NCK, NSTB_N and ND0 are live instead of the link (R50, R354). -/
def State.wakeReceivers (s : State) : Bool := s.rtc.alive && (s.up.stage == .off || s.linkShut || s.inReset)

/-- The main domains are supplied, in or out of the reset condition: with VBAK alone only the backup domain is (R45). -/
def State.mainOn (s : State) : Bool :=
  match s.up.stage with
  | .off => false
  | .held | .wait => s.supplied
  | _ => true

/-- Past the reset condition: the RUN, HOLD and hedge columns of R45. -/
def State.pastReset (s : State) : Bool := s.mainOn && s.e0Runs && !s.inReset

/-- An input or sense lead: floating, at high impedance or not sampled, or in use. -/
inductive SenseLead where
  | floating | idle | used
deriving DecidableEq, Repr

/-- A lead that its domain idles in reset and uses while a condition holds after it. -/
def State.sense (s : State) (use : Bool) : SenseLead :=
  if !s.mainOn then .floating else if s.pastReset && use then .used else .idle

/-- An input that is not sampled in the reset condition and in DORMANT, and floats without any supply (R45). -/
def State.sampled (s : State) : SenseLead := if !s.rtc.alive then .floating else if s.pastReset then .used else .idle

/-- RPRX and SEAL_N (R45). -/
def State.rprx (s : State) : SenseLead := s.sampled
def State.sealN (s : State) : SenseLead := s.sampled

/-- ND1 to ND3 are driven in the reply window only: `rise` counts the host's rises of NCK since the last letter, `launch` is the
rise of the reply's start nibble, and a reply of B bytes ends at the release of the lanes, 4 B + 4 rises on, or with the abort or
the letter that ends it (R45, R369, R372). -/
def State.ndDriven (s : State) (launch rise : Nat) : SenseLead :=
  s.sense (s.linkLive && (match s.link.reply with
    | some r => decide (r.readyAt ≤ s.now) && decide (launch ≤ rise) && decide (rise < launch + 4 * r.bytes.length + 4)
    | none => false))

/-- TEST is an input while the housekeeping domain is on; XIN and XOUT oscillate with the backup domain (R45, R286). -/
def State.testLead (s : State) : SenseLead := if s.mainOn then .used else .floating
def State.xtalLead (s : State) : SenseLead :=
  if !s.rtc.alive then .floating else if s.clock.xtalStopped then .idle else .used

/-- Strap k's lead: the reader's source is on it in the first 52 of its 56 crystal cycles (R45, R62). -/
def State.strapLead (s : State) (k : Nat) : SenseLead :=
  if !s.mainOn then .floating
  else
    let c := (s.now - s.up.at_) / cycle
    if s.up.stage = .straps ∧ 56 * k ≤ c ∧ c < 56 * k + 52 then .used else .idle

/-- NTCk, k from 0, is biased from the start of its slot to the 256th conversion, which a headland measurement puts off by the
periods it takes (R45, R221, R222). -/
def State.ntcLead (s : State) (k : Nat) : SenseLead :=
  s.sense (s.therm.slowOn && s.therm.slot == k && decide (s.therm.slotAt ≤ s.now) && decide (s.now < s.slotRead))

/-- A push-pull output: floating, high impedance, low or high. -/
inductive OutLead where
  | floating | highZ | low | high
deriving DecidableEq, Repr

/-- RPDE and RPTX are driven whenever the logic core is past reset; RPDE is high while a frame is sent, a bit period either side of
its bits (R45, R262). -/
def State.portLead (s : State) (high : Bool) : OutLead :=
  if !s.mainOn then .floating else if !s.pastReset then .highZ else if high then .high else .low
def State.rpde (s : State) : OutLead := s.portLead (decide (s.now < s.rw.txUntil))

/-- Bit n of a frame's bytes on the line: each byte a start bit of space, its eight bits from the least significant, no parity, and
a stop bit of mark (R259). -/
def frameBit (l : List Byte) (n : Nat) : Bool :=
  if n % 10 = 0 then false else if n % 10 = 9 then true else (byteAt l (n / 10)).getLsbD (n % 10 - 1)

/-- RPTX: mark while idle, and in the bit period before a frame and the one after it (R259, R262). -/
def State.rptx (s : State) : OutLead :=
  let bp := s.bitPeriod
  let n := (s.now + 122 * bp - s.rw.txUntil) / bp
  s.portLead (match s.rw.sent.getLast? with
    | some f => if s.now < s.rw.txUntil ∧ 1 ≤ n ∧ n ≤ 120 then frameBit f.bytes (n - 1) else true
    | none => true)

/-! ### Power leads (R45, R46, R312, R316, R319) -/

/-- A switch node or gate drive. -/
inductive Switching where
  | floating | low | high | switching
deriving DecidableEq, Repr

/-- The panel converters' nodes and pumps, by the rail they make (R299). -/
inductive PanelNode where
  | lxp1 | lxp2 | lxn1 | lxn2 | lowPump | highPump
deriving DecidableEq, Repr

def PanelNode.rail : PanelNode → Nat
  | .lxp1 => 2
  | .lxp2 => 0
  | .lxn1 => 7
  | .lxn2 => 5
  | .lowPump => 1
  | .highPump => 6

/-- Offset of a switching cycle in the 96 SCLK of the panel-converter grid; the gate-rail pumps have none of their own (R290). -/
def PanelNode.offset : PanelNode → Option Nat
  | .lxp1 => some 12
  | .lxn1 => some 36
  | .lxp2 => some 60
  | .lxn2 => some 84
  | .lowPump | .highPump => none

/-- LXP1, LXP2, LXN1, LXN2, CPLA and CPLB, CPHA and CPHB: switching while their rail's stage is on; on the delivery path LXP1 runs
in reverse, whatever VSP5's stage does (R299, R435). -/
def State.panelNode (s : State) (n : PanelNode) : Switching :=
  if s.mainOn && (s.enabled n.rail || (n == .lxp1 && s.rtc.path)) then .switching else .floating

/-- How the LXP1 stage runs: a buck from the internal supply node, or on the delivery path a boost that feeds it (R435). -/
inductive Lxp1Mode where
  | off | buck | reverse
deriving DecidableEq, Repr
def State.lxp1Mode (s : State) : Lxp1Mode :=
  if !s.mainOn then .off else if s.rtc.path then .reverse else if s.enabled 2 then .buck else .off

/-- The VIN isolation switch is closed; the delivery switch is armed, and conducts whenever VSP5's lead falls below VBAK; the VSP5
distribution switch is closed: with the rail's stage on the delivery path, always off it (R435). -/
def State.vinSwitch (s : State) : Bool := s.mainOn && !s.rtc.isolated
def State.deliverySwitch (s : State) : Bool := s.mainOn && s.rtc.path
def State.vsp5Switch (s : State) : Bool := s.mainOn && (!s.rtc.path || s.enabled 2)

/-- LXC: the core buck from the first lock on, through a loss of lock until its relock has failed; while the start regulator
holds VCORE it is at high impedance (R312). -/
def State.coreBuck (s : State) : Switching := if s.mainOn && !s.tree.startReg then .switching else .floating

/-- VCORE is held, by the start regulator or the buck. -/
def State.vcore (s : State) : Bool := s.mainOn

/-- HGn and LGn: an overvoltage holds the high side off and the low side on (R316, R317). The hedge's order has come as far
as it has by now. `pre` is the output seen at FBn as a ramp from 0 V begins, in SCLK of the 2.0 ms ramp: until the reference has
passed it, LGn stays low. -/
def State.auxHigh (s : State) (n : Nat) : Switching :=
  let a := vget s.hedgeDue.tree.aux n
  if !s.mainOn then .floating else if a.running && !a.ov then .switching else .low
def State.auxLow (s : State) (n pre : Nat) : Switching :=
  let a := vget s.hedgeDue.tree.aux n
  let biased := match a.ramp with | .up e => decide (s.now + usToSclk 2000 < e + pre) | _ => false
  if !s.mainOn then .floating else if !a.running then .low else if a.ov then .high else if biased then .low else .switching

/-- BSTn, SWn and FBn work while rail n runs; FLCS and FLFB are sensed past the reset condition. -/
def State.auxSense (s : State) (n : Nat) : SenseLead := s.sense (vget s.tree.aux n).running
def State.flSense (s : State) : SenseLead := s.sense true

/-- FLGATE switches while any channel is on, and skips its cycles while FLFB is at overvoltage (R319). -/
def State.flGate (s : State) : Switching :=
  if !s.mainOn then .floating else if s.hedgeDue.boostOn && !s.tree.boostOv then .switching else .low

/-- Place in a switching grid: the panel converters' of 96 SCLK, the auxiliary one of 192. It restarts at each boundary of the
scan, whose last cycle is lengthened to end there, and runs freely from where the scan stopped (R289, R291). -/
def State.panelGrid (s : State) : Nat := if s.scan.scanning then s.gridInFrame 96 else (s.now - s.scan.gridFrom) % 96
def State.auxGrid (s : State) : Nat := if s.scan.scanning then s.gridInFrame 192 else (s.now - s.scan.auxGridFrom) % 192

/-- Place in the PWM period, which a boundary cuts short (R289, R291). -/
def State.pwmPlace (s : State) : Nat := (s.now - s.pwmFrom) % 40960

/-- A switching cycle begins in this SCLK cycle: of a panel converter, of the core buck, of AUX rail n, of the boost (R290,
R312). -/
def State.panelCycle (s : State) (n : PanelNode) : Bool := s.panelNode n == .switching && n.offset == some s.panelGrid
def State.coreCycle (s : State) : Bool := s.coreBuck == .switching && s.panelGrid == 6
def State.auxCycle (s : State) (n : Nat) : Bool := s.auxHigh n == .switching && s.auxGrid == 48 * n
def State.boostCycle (s : State) : Bool :=
  s.flGate == .switching && s.auxGrid == (if s.boostPhase < 4 then 48 * s.boostPhase else 24)

/-- Duty applied to channel n, in steps of 10 SCLK: DIM, or the floor of DIM times the factor (R321, R325). -/
def State.ledDuty (s : State) (n : Nat) : Nat :=
  let d := (vget s.tree.led n).dimNow s.now
  if s.tree.power = 0 then d else d * (8000000 * 4096) / s.tree.power

/-- LEDn sinks current: it is on, and in the on-time of its period (R321). Past the reset condition only. -/
def State.ledSinks (s : State) (n : Nat) : SenseLead :=
  s.sense (((vget s.hedgeDue.tree.led n).driven s.now) && decide (s.pwmPlace < 10 * s.ledDuty n))

/-- The latest VBAK reading in mV: the slow round's, before its first the gauge's (R435;
DEDUCED, log 141). -/
def State.vbakRead (s : State) : Int :=
  if vget s.tree.meas 1 = 0 then 2 * s.rtc.gVbak else vget s.tree.meas 1

/-- Target of panel rail k, in the order of `RAIL_TRIM`, in µV of magnitude: the set value with its trim in force; on the delivery
path VSP5's is the latest VBAK reading, and VSP10's twice that less 1.0 V, limited to its set value (R69, R302, R305, R435). -/
def State.railTarget (s : State) (k : Nat) : Int :=
  let row := railSetRow s.tree.railSet.maj.toNat
  let mv := row.getD (if k < 3 then k else if k < 6 then 5 - k else k - 3) 0
  let set := mv * (1000 + vget s.tree.trimNow k)
  if s.rtc.path ∧ k = 2 then 1000 * s.vbakRead
  else if s.rtc.path ∧ k = 1 then min set (1000 * (2 * s.vbakRead - 1000))
  else set

/-- Panel rail k's lead: regulated to a target, or following VBAK. -/
inductive RailLead where
  | floating | discharged | regulated (target : Int) | followsVbak
deriving DecidableEq, Repr

/-- A panel rail's node: driven while its stage is on, else held by its discharge path (R45, R306). VSP5's lies behind the
distribution switch. -/
def State.railNode (s : State) (k : Nat) : RailLead :=
  if !s.mainOn then .floating
  else if s.enabled k then (if s.rtc.path ∧ k = 2 then .followsVbak else .regulated (s.railTarget k))
  else if s.tree.disch.getLsbD k then .discharged else .floating

/-- A panel rail's lead: on the delivery path VSP5's stays at VBAK to feed the boost (R435). -/
def State.railLead (s : State) (k : Nat) : RailLead :=
  if s.mainOn && s.rtc.path && k == 2 then .followsVbak else s.railNode k

/-! ### Sources (R47, R102 to R109) -/

/-- A source's lead: high impedance, 0 V, or the rail of a drive code. -/
inductive SourceLead where
  | floating | zero | rail (code : BitVec 3)
deriving DecidableEq, Repr

/-- Lead of a drive code. -/
def codeLead (c : BitVec 3) : SourceLead := if c = 0 then .zero else if c = 4 then .floating else .rail c

/-- VSP5 or VSN5 was left above 1 V by its step's limit (R331). -/
def State.sourceRailHeld (s : State) : Bool := s.seq.stuckRails.getLsbD 2 || s.seq.stuckRails.getLsbD 3

/-- The sources are held at 0 V outside the scan: from VSP5 and VSN5 power-good, or in a rail-down until both are below 1 V
(R47, R106, R331). -/
def State.sourcesZero (s : State) : Bool :=
  s.sourceRailHeld
    || (if s.seq.railStep ≠ 0 ∧ ¬ s.seq.rising then decide (s.seq.railStep ≤ 6) else s.tree.pg.getLsbD 2 && s.tree.pg.getLsbD 3)

/-- SRCc, t SCLK after the latch point of the row in progress (R102): a source whose code changes is at high impedance for
8 SCLK, then makes its zero pass if it has one, then stands at its level. One that floated in the row before connects anew
(R107; log 104). -/
def State.source (s : State) (c t : Nat) : SourceLead :=
  let x := sget 0 s.panel.srcCodes c
  if s.cols ≤ c ∨ ¬ s.e0Runs then .floating
  else if s.scan.scanning then
    (if s.panel.srcFloat then .floating
      else if (s.panel.prevFloat || !(sget 0 s.panel.prevCodes c == x)) && decide (t < 8) then .floating
      else if s.panel.zeroPass.contains c && decide (t < 8 + s.panel.words.zp) then .zero
      else codeLead x)
  else if s.sourcesZero then .zero else .floating

/-! ### Headland leads (R47, R123) -/

/-- HLn, n from 0: its current flows until its fourth conversion ends; otherwise high impedance. Floating in the reset condition
too. -/
def State.headlandLead (s : State) (n : Fin 8) : SenseLead :=
  if !s.pastReset then .floating else s.sense (s.panel.hlNow == some n && decide (s.now < s.headlandTime))

/-! ### Gate lines (R47, R111 to R114) -/

/-- A gate-on-array line. `clamped`: held at VGL by the gate stage while VGL, which falls, is below −5 V, and floating from
there: that moment lies between VGL's drop and its reading below 1 V and is not told apart (log 101). -/
inductive GateLead where
  | floating | clamped | vgl | vgh
deriving DecidableEq, Repr

/-- CKV lines of row r, numbered from 0, under a scheme (R111); `r` counts the row slots from the boundary. -/
def ckvOf (scheme : Fin 4) (r : Nat) : List Nat :=
  match scheme with
  | 0 => [r % 8]
  | 1 => [2 * (r % 4), 2 * (r % 4) + 1]
  | 2 => [2 * (r % 4)]
  | 3 => [2 * (r % 2)]

/-- Start pulses of row slot r, STV1 as 0 and STV2 as 1; row −1 is slot 31 (R111). -/
def stvOf (scheme : Fin 4) (r : Nat) : List Nat :=
  match scheme with
  | 0 => if r = 30 then [0] else if r = 31 then [1] else []
  | 1 => if r = 31 then [0, 1] else []
  | _ => if r = 31 then [0] else []

/-- The gate-on window of a row at u SCLK after its latch point (R102). -/
def inGateWindow (w : TimingWords) (rowT u : Nat) : Bool := decide (w.gOn ≤ u) && decide (u < rowT - w.gOff)

/-- CKV line k at t SCLK after the boundary: high in the gate-on windows of its rows, and under GOA_OVERLAP from G_ON of the
row before to its own row's fall (R113). -/
def ckvHigh (w : TimingWords) (rowT k t : Nat) : Bool :=
  let r := t / rowT
  let u := t % rowT
  let over' := w.overlap && !(w.scheme == 3)
  ((ckvOf w.scheme r).contains k && decide (u < rowT - w.gOff) && (decide (w.gOn ≤ u) || over'))
    || (over' && (ckvOf w.scheme (r + 1)).contains k && decide (w.gOn ≤ u))

/-- A line numbered as `GOA_STAT.LINE`: 0 to 7 CKV, 8 and 9 STV, 10 and 11 GRS, 12 to 15 GX, at t SCLK after the boundary. -/
def gateHigh (w : TimingWords) (rowT : Nat) (line : Fin 16) (t : Nat) : Bool :=
  let n := line.val
  let r := t / rowT
  if n < 8 then ckvHigh w rowT n t
  else if n < 10 then (stvOf w.scheme r).contains (n - 8) && inGateWindow w rowT (t % rowT)
  else if n < 12 then decide (r < 29) && (n == 10 || decide (w.scheme.val ≤ 1))
  else if n = 15 ∧ w.hlMask ≠ 0 then false
  else w.gxLevel.getLsbD (n - 12)

/-- A gate line's lead now: held at VGL from VGL's power-good, swinging or at its static level in the scan alone, clamped as
VGL drops, floating thereafter (R47, R114, R330, R331, R342). -/
def State.gateLine (s : State) (line : Fin 16) : GateLead :=
  if !s.e0Runs then .floating
  else if s.scan.scanning then
    (if gateHigh s.panel.words s.scan.rowT line (s.now - s.scan.boundaryAt) then .vgh else .vgl)
  else if s.tree.pg.getLsbD 7 then .vgl
  else if (s.seq.railStep == 9 && !s.seq.rising) || s.seq.stuckRails.getLsbD 7 then .clamped
  else .floating

/-! ### VCOM (R47, R117) -/

/-- A VCOM lead: high impedance, 0 V, ramping, or a DAC code. -/
inductive VcomLead where
  | floating | zero | ramping | code (c : Nat)
deriving DecidableEq, Repr

/-- VCOMn: in the frame's phase while it runs. -/
def State.vcomLead (s : State) (n : Nat) : VcomLead :=
  let c := vget s.panel.vcom n
  match c.phase with
  | .off => .floating
  | .zero => .zero
  | .rampUp _ | .rampDown _ => .ramping
  | .atTrim => .code c.code
  | .run => .code (vcomPhaseCode s.panel.words.vcomHalf c.code (s.scan.frame.toNat % 2 == 0))

end Sys2Proof.Machine
end

