-- ==== Sys2Proof/Machine/Events.lean ====
section
/-! DEFINITION. Parts of the events that no other file holds: the drills' tests, the vertical of VIN's overvoltage, a reaction's
decision and end, the registered port's bytes, requests and renders (06_scan_and_drills, 11_registered_window, 21_faults). -/

namespace Sys2Proof.Machine

/-! ### Drills (R131, R155, R156) -/

/-- ROTATE's minute is over: E0 requests the next drill's test. -/
def State.rotate (s : State) : State :=
  if bit s.drills.ctl 0 && s.clocked then
    let s1 := s.reach (s.drills.rotateAt + 60 * sclkHz)
    let s2 := { s1 with drills.rotateAt := s1.now }
    match s2.rotateNext with
    | some e => State.requestTest { s2 with drills.rotateLast := e } e
    | none => s2
  else s

/-- Length of a self-test in SCLK. -/
def testSpan : Nat := 1064960

/-- A scan that waited for the drills starts, once the rails are up (R130, R483). -/
def State.scanIfUp (s : State) : State :=
  if s.tree.railsUp && s.seq.railStep == 0 && !s.scan.scanning && s.scan.startDue.isNone && s.flt.react.isNone
      && s.scanMayStart && (s.pwr.st == .run || s.pwr.st == .slow || s.pwr.st == .ret || s.pwr.st == .delivery) then
    { s with scan.startDue := some s.now }
  else s

/-- Self-tests end: those of a start-up together, with the slots assigned, or those of drills in service. -/
def State.testsEnd (s : State) (which passed : BitVec 16) : State :=
  if !s.clocked then s
  else if s.drills.startTest then
    State.scanIfUp (State.startAssign (s.reach (s.mem.tickBase.getD s.now + testSpan)) passed)
  else
    let last := s.drills.running.foldl (fun n x => if which.getLsbD x.1 then max n (x.2 + testSpan) else n) 0
    (s.reach last).endTests which passed

/-! ### VIN's overvoltage (R300, R338, R469) -/

/-- VIN rises above its overvoltage threshold. -/
def State.vinOver (s : State) : State :=
  let s1 := { s with tree.vinOv := true }
  if s1.recording then (s1.supFirst 8 1).raiseLevel fltVinOv (s.injected fltVinOv) else s1

/-- It falls back: a recovery that waited goes on. -/
def State.vinOverEnds (s : State) : State := State.tryReactUp { s with tree.vinOv := false }

/-! ### Reactions (R469) -/

/-- The decision point, 1 ms after VGL's drop, with the repair of HOLD made by then. -/
def State.reactionDecision (s : State) : State :=
  match s.flt.react with
  | some r =>
    if r.stage = .toDecision ∧ s.pwr.st ≠ .enterDormant then
      let s1 := s.reach (r.at_ + usToSclk 1000)
      let s2 := if r.repair then s1.repairAlm else s1
      s2.atDecision { r with repair := false }
    else s
  | none => s

/-- One frame time after the retry's first boundary. -/
def State.recoveryEnd (s : State) : State :=
  match s.flt.react with
  | some r => if r.stage = .frame then (s.reach (r.at_ + s.frameTime)).endRecovery r else s
  | none => s

/-! ### Grace (R236) -/

/-- Grace time of one of the two conditions ends. -/
def State.graceOver (s : State) (c : Graced) : State :=
  let g := match c with | .plot => s.therm.plotC | .die => s.therm.dieC
  match g.inForce && s.clocked, g.graceTo with
  | true, some t =>
    let s1 := s.reach t
    match c with
    | .plot => { s1 with therm.plotC := g.endGrace }
    | .die => { s1 with therm.dieC := g.endGrace }
  | _, _ => s

/-! ### Aging (R150) -/

/-- An aging tick falls due while the main domains run. -/
def State.agingTick (s : State) (l : List BitFlip) : State :=
  match s.nextTickAt with
  | some t => if s.clocked then ((s.reach t).flipBits l).ageTick else s
  | none => s

/-! ### The registered port (R259 to R269, R283) -/

/-- E0 and the port's controller run, and take records: not in a final delivery. -/
def State.portLive (s : State) : Bool :=
  [Stage.linkWait, .plan, .complete].contains s.up.stage && s.clock.pllLock && s.rtc.deliveryAt.isNone

/-- A request that waited goes out once the port is free, a bit period after RPDE's release and after the last stop bit received
(R269). -/
def State.freePort (s : State) : State :=
  if s.rw.requestWaits && !s.recordArriving then
    let s1 := { s with rw.requestWaits := false }
    if s1.requestHolds then
      State.sendFrame (s1.reach (max s1.rw.txUntil s1.rw.rxAt + s1.bitPeriod)) { kind := 0x82, code := 0, seq := 0 }
    else s1
  else s

/-- Bytes received: the hunt takes what records they complete. While RPDE is asserted the receiver takes nothing (R261, R283). -/
def State.portBytes (s : State) (l : List Byte) : State :=
  if s.portLive && decide (s.rw.txUntil ≤ s.now) then
    let b := s.rw.rx ++ l
    State.freePort (State.hunt (b.length + 1) { s with rw.rx := b, rw.rxAt := if l.isEmpty then s.rw.rxAt else s.now })
  else s

/-- A gap, a framing error or a break: the bytes received are dropped; a record that was arriving is abandoned. -/
def State.portGap (s : State) : State :=
  if s.portLive then
    let s1 := { s with rw.rx := [] }
    State.freePort (if s.recordArriving then s1.abandonRecord else s1)
  else s

/-! ### The receiver (R259, R261, R262) -/

/-- Level of a line at SCLK i: mark beyond its end. -/
def lineAt : List (Bool × Nat) → Nat → Bool
  | [], _ => true
  | (b, n) :: l, i => if i < n then b else lineAt l (i - n)

/-- Falling edges of a line, each with the mark before it; `at_` is where the part left begins and `mark` the mark up to there. -/
def fallsFrom (at_ mark : Nat) : List (Bool × Nat) → List (Nat × Nat)
  | [] => []
  | (true, n) :: l => fallsFrom (at_ + n) (mark + n) l
  | (false, n) :: l =>
    if n = 0 then fallsFrom at_ mark l
    else if mark = 0 then fallsFrom (at_ + n) 0 l
    else (at_, mark) :: fallsFrom (at_ + n) 0 l

/-- Where mark next stands from i on; `at_` is where the part left begins. -/
def markFrom (i at_ : Nat) : List (Bool × Nat) → Nat
  | [] => max i at_
  | (b, n) :: l => if b && decide (i < at_ + n) then max i at_ else markFrom i (at_ + n) l

/-- A bit's value: the majority of three samples round its centre (R261). -/
def bitValue (l : List (Bool × Nat)) (centre : Nat) : Bool :=
  let a := lineAt l (centre - 1)
  let b := lineAt l centre
  let c := lineAt l (centre + 1)
  (a && b) || (a && c) || (b && c)

/-- What the receiver finds: a byte, or a fault: a framing error, a break, a gap (R261, R266). -/
inductive RxItem where
  | byte (b : Byte)
  | fault
deriving DecidableEq, Repr

/-- The receiver over a line's falling edges, with the time of each item: `busy` is the centre of the last stop bit, `ended` the end
of the last byte. An edge inside a byte begins none; one needs a bit period of mark before it, or a stop bit that read as mark
(R261; log 130). -/
def receive (bp : Nat) (l : List (Bool × Nat)) : List (Nat × Nat) → Nat → Option Nat → List (Nat × RxItem)
  | [], _, _ => []
  | (at_, mark) :: fs, busy, ended =>
    if at_ < busy then receive bp l fs busy ended
    else if mark < bp ∧ ended = none then receive bp l fs busy ended
    else
      let value := fun (k : Nat) => bitValue l (at_ + k * bp + bp / 2)
      let gap := match ended with
        | some e => if e + 16 * bp < at_ then [(e + 16 * bp, RxItem.fault)] else []
        | none => []
      let stop := at_ + 9 * bp + bp / 2
      if value 9 then
        let b := BitVec.ofNat 8 (sumTo 8 (fun k => if value (k + 1) then 2 ^ k else 0))
        gap ++ (at_ + 10 * bp, .byte b) :: receive bp l fs stop (some (at_ + 10 * bp))
      else
        -- the fault is complete with the stop bit, or with the break's 20 bit periods of space
        let t := if at_ + 20 * bp ≤ markFrom at_ 0 l then at_ + 20 * bp else at_ + 10 * bp
        gap ++ (t, .fault) :: receive bp l fs stop none

/-- One item of the receiver, t SCLK after `from_`; while RPDE is asserted the receiver takes nothing. -/
def State.takeItem (s : State) (from_ : Nat) (x : Nat × RxItem) : State :=
  let t := s.reach (from_ + x.1)
  match x.2 with
  | .byte b => t.portBytes [b]
  | .fault => if t.rw.txUntil ≤ t.now then t.portGap else t

/-- What comes in at RPRX: bytes already taken, or the lead's levels for the receiver. -/
def State.portTakes (s : State) : PortInput → State
  | .bytes l => s.portBytes l
  | .line l => (receive s.bitPeriod l (fallsFrom 0 s.bitPeriod l) 0 none).foldl (fun (t : State) x => t.takeItem s.now x) s

/-- The check time of the record under check ends. -/
def State.signatureDone (s : State) : State :=
  match s.rw.checking with
  | some (r, c, due) => if s.portLive then ((s.reach due).endCheck due r c).attend else s
  | none => s

/-- A request falls due: sent, or waiting for the port; the next is due 1,000 ms on. -/
def State.requestFalls (s : State) : State :=
  match s.rw.requestDue with
  | some t =>
    if s.portLive then
      let s1 := s.reach t
      State.freePort { s1 with rw.requestDue := some (t + sclkHz), rw.requestWaits := s1.requestHolds }
    else s
  | none => s

/-- A kept-record write ends. -/
def State.keptWritten (s : State) : State := if s.clocked then s.endKeptWrite else s

/-- A typesetting ends; one that became due meanwhile begins (R277). -/
def State.renderEnds (s : State) : State :=
  match s.rw.typesetting, s.clocked with
  | some (t, m), true =>
    let s1 := { s.reach t with rw.typesetting := none }
    let s2 := s1.rendered m
    let s3 := if s.rw.typesetAgain then State.typesetFor { s2 with rw.typesetAgain := false, rw.redraw.again := false } s2.rw.redraw.again else s2
    s3.attend
  | _, _ => s

/-- The record under check will be verified in the crystal cycle of a time (R283). -/
def State.verifiesBy (s : State) (t : Nat) : Bool :=
  match s.rw.checking with
  | some (r, none, due) => due / cycle == t / cycle && s.sigOk r
  | _ => false

/-- STALE seconds have passed without a verified record in a live session (R274); a record verified in the same crystal cycle wins
(R283). -/
def State.staleNow (s : State) : State :=
  let t := s.rw.lastVerified + s.staleSeconds * sclkHz
  if s.rw.session.isSome && !(s.staleSeconds == 0) && !s.rw.stale && s.portLive && !s.verifiesBy t then
    let s1 := s.reach t
    (State.refreshStatus { s1 with rw.stale := true }).attend
  else s

/-- The re-check of the kept record ends (R486). -/
def State.recheckEnds (s : State) : State :=
  if s.rw.recheck && s.clocked then
    ((s.reach (s.rw.lastVerified + checkTime)).endRecheck.firstRender.firstRequest).attend
  else s

end Sys2Proof.Machine
end

