-- ==== Sys2Proof/Machine/ExecFault.lean ====
section
/-! DEFINITION. The fault family (21_faults). -/

namespace Sys2Proof.Machine

/-- FLT_INJ (R477). -/
def execFltInj (via : Via) (op : AliasOp) (data : Word) (s : State) : Host.Outcome State Fault Refusal :=
  .next (s.viaAlias via op 0x610 data)

/-- INJECT_END (R477). -/
def execInjectEnd (s : State) : Host.Outcome State Fault Refusal :=
  .next s.injectEnd

/-- FAULT_CLEAR (R474). -/
def execFaultClear (via : Via) (reg : FaultReg) (data : Word) (s : State) : Host.Outcome State Fault Refusal :=
  .next (s.viaWord via (match reg with | .sticky0 => 0x608 | .sticky1 => 0x609 | .backup => 0x60B) data)

/-- REACTION_DECISION (R469, R471, R472). -/
def execReactionDecision (s : State) : Host.Outcome State Fault Refusal :=
  .next s.reactionDecision

/-- RECOVERY_END (R469, R472). -/
def execRecoveryEnd (s : State) : Host.Outcome State Fault Refusal :=
  .next s.recoveryEnd

end Sys2Proof.Machine
end

