-- ==== Sys2Proof/Machine/ExecLink.lean ====
section
/-! DEFINITION. The link family: letters, arbitration, gaps, cut and dropped replies (16_novlet_link), and the state requests
(15_power_states). -/

namespace Sys2Proof.Machine

/-- HELLO (R375). -/
def execHello (l : Letter) (s : State) : Host.Outcome State Fault Refusal :=
  .next (s.receiveLetter l)

/-- READ (R376). -/
def execRead (l : Letter) (s : State) : Host.Outcome State Fault Refusal :=
  .next (s.receiveLetter l)

/-- WRITE (R376). -/
def execWrite (l : Letter) (s : State) : Host.Outcome State Fault Refusal :=
  .next (s.receiveLetter l)

/-- COLLECT (R380). -/
def execCollect (l : Letter) (s : State) : Host.Outcome State Fault Refusal :=
  .next (s.receiveLetter l)

/-- COLLECT_ARBITRATION (R380, R381). -/
def execCollectArbitration (others : List (BitVec 4)) (s : State) : Host.Outcome State Fault Refusal :=
  .next (s.arbitrate others)

/-- WHY (R378). -/
def execWhy (l : Letter) (s : State) : Host.Outcome State Fault Refusal :=
  .next (s.receiveLetter l)

/-- UPDATE (R196). -/
def execUpdate (l : Letter) (s : State) : Host.Outcome State Fault Refusal :=
  .next (s.receiveLetter l)

/-- RESTATE (R205). -/
def execRestate (l : Letter) (s : State) : Host.Outcome State Fault Refusal :=
  .next (s.receiveLetter l)

/-- STAGE (R182). -/
def execStage (l : Letter) (s : State) : Host.Outcome State Fault Refusal :=
  .next (s.receiveLetter l)

/-- REQ_RUN: SCAN with REQ RUN, or `PWR_CTL.REQ` written so (R347). -/
def execReqRun (via : Via) (form : ReqForm) (s : State) : Host.Outcome State Fault Refusal :=
  .next (s.viaRequest via 0 form)

/-- REQ_SLOW (R353). -/
def execReqSlow (via : Via) (form : ReqForm) (s : State) : Host.Outcome State Fault Refusal :=
  .next (s.viaRequest via 1 form)

/-- REQ_HOLD (R349). -/
def execReqHold (via : Via) (form : ReqForm) (s : State) : Host.Outcome State Fault Refusal :=
  .next (s.viaRequest via 2 form)

/-- REQ_DORMANT (R354). -/
def execReqDormant (via : Via) (form : ReqForm) (s : State) : Host.Outcome State Fault Refusal :=
  .next (s.viaRequest via 3 form)

/-- WAKE_FRAME (R385, R386). -/
def execWakeFrame (rises : Nat) (frame : BitVec 16) (s : State) : Host.Outcome State Fault Refusal :=
  .next (s.wakeFrame rises frame)

/-- LETTER_GAP (R362). -/
def execLetterGap (s : State) : Host.Outcome State Fault Refusal :=
  .next s.gap

/-- REPLY_CUT_SHORT (R372). -/
def execReplyCutShort (driving : Bool) (s : State) : Host.Outcome State Fault Refusal :=
  .next (s.cutShort driving)

/-- REPLY_DROPPED (R370). -/
def execReplyDropped (s : State) : Host.Outcome State Fault Refusal :=
  .next s.dropReply

end Sys2Proof.Machine
end

