-- ==== Sys2Proof/Machine/ExecOtp.lean ====
section
/-! DEFINITION. The OTP and life-cycle family (20_otp_and_life_cycle). -/

namespace Sys2Proof.Machine

/-- OTP_PROGRAM (R445). -/
def execOtpProgram (via : Via) (s : State) : Host.Outcome State Fault Refusal :=
  .next (s.viaWord via 0x222 1)

/-- OTP_STEP (R450). -/
def execOtpStep (via : Via) (s : State) : Host.Outcome State Fault Refusal :=
  .next (s.viaWord via 0x222 2)

/-- OTP_MARGIN (R453). -/
def execOtpMargin (via : Via) (s : State) : Host.Outcome State Fault Refusal :=
  .next (s.viaWord via 0x222 3)

/-- LC_STEP (R458). -/
def execLcStep (via : Via) (op : AliasOp) (data : Word) (s : State) : Host.Outcome State Fault Refusal :=
  .next (s.viaAlias via op 0x230 data)

/-- OTP_OP_DONE (R445, R450, R453, R455). -/
def execOtpOpDone (e : OtpEnd) (s : State) : Host.Outcome State Fault Refusal :=
  .next (s.otpDone e).attend

/-- SUPPLY_OK_CHANGE (R455). -/
def execSupplyOkChange (ok : Bool) (s : State) : Host.Outcome State Fault Refusal :=
  .next (s.supplyChange ok).attend

end Sys2Proof.Machine
end

