-- ==== Sys2Proof/Machine/ExecPanel.lean ====
section
/-! DEFINITION. The panel family (05_panel_outputs). -/

namespace Sys2Proof.Machine

/-- RAIL_TRIM (R309). -/
def execRailTrim (via : Via) (op : AliasOp) (rail : Fin 8) (data : Word) (s : State) : Host.Outcome State Fault Refusal :=
  .next (s.viaAlias via op (0xD01 + rail.val) data)

/-- VCOM_TRIM (R119). -/
def execVcomTrim (via : Via) (op : AliasOp) (sel : Sel 8) (data : Word) (s : State) : Host.Outcome State Fault Refusal :=
  .next (s.viaAlias via op (selAddr 0x308 0x310 0x311 sel) data)

/-- VCOM_EN (R120). -/
def execVcomEn (via : Via) (op : AliasOp) (data : Word) (s : State) : Host.Outcome State Fault Refusal :=
  .next (s.viaAlias via op 0x300 data)

/-- HEADLAND_DONE (R123). -/
def execHeadlandDone (codes : Vector (BitVec 12) 4) (gx4AtVgl : Bool) (s : State) : Host.Outcome State Fault Refusal :=
  .next (s.headlandEnd codes gx4AtVgl)

/-- VCOM_RAMP_END (R120). -/
def execVcomRampEnd (s : State) : Host.Outcome State Fault Refusal :=
  .next s.vcomEnd

/-- GATE_OVERLOAD (R116). -/
def execGateOverload (line : Fin 16) (s : State) : Host.Outcome State Fault Refusal :=
  .next (s.gateFired line.val)

/-- VCOM_OVERLOAD (R122). -/
def execVcomOverload (ch : Fin 8) (s : State) : Host.Outcome State Fault Refusal :=
  .next (s.vcomFired ch.val)

end Sys2Proof.Machine
end

