-- ==== Sys2Proof/Machine/ExecPgh.lean ====
section
/-! DEFINITION. The pigeonhole family (08_pigeonholes, R200, R204, R218). -/

namespace Sys2Proof.Machine

/-- PGH_CANCEL (R204). -/
def execPghCancel (via : Via) (scope : PghScope) (s : State) : Host.Outcome State Fault Refusal :=
  .next (s.viaWord via (match scope with | .indexed => 0x805 | .broadcast => 0x806 | .group => 0x807) 1)

/-- PGH_RELEASE (R200). -/
def execPghRelease (via : Via) (scope : PghScope) (s : State) : Host.Outcome State Fault Refusal :=
  .next (s.viaWord via (match scope with | .indexed => 0x805 | .broadcast => 0x806 | .group => 0x807) 2)

/-- HIST_CLR (R218). -/
def execHistClr (via : Via) (scope : PghScope) (s : State) : Host.Outcome State Fault Refusal :=
  .next (s.viaWord via (match scope with | .indexed => 0x805 | .broadcast => 0x806 | .group => 0x807) 3)

end Sys2Proof.Machine
end

