-- ==== Sys2Proof/Machine/ExecPower.lean ====
section
/-! DEFINITION. The power-tree family: auxiliary rails, load switches, front light and their supervisors (13_power_tree). -/

namespace Sys2Proof.Machine

/-- AUX_EN (R316). -/
def execAuxEn (via : Via) (op : AliasOp) (sel : Sel 4) (data : Word) (s : State) : Host.Outcome State Fault Refusal :=
  .next (s.viaAlias via op (selAddr 0xD40 0xD44 0xD45 sel) data)

/-- LSW_EN (R318). -/
def execLswEn (via : Via) (op : AliasOp) (sel : Sel 4) (data : Word) (s : State) : Host.Outcome State Fault Refusal :=
  .next (s.viaAlias via op (selAddr 0xD48 0xD4C 0xD4D sel) data)

/-- LED_DIM (R321). -/
def execLedDim (via : Via) (op : AliasOp) (sel : Sel 8) (data : Word) (s : State) : Host.Outcome State Fault Refusal :=
  .next (s.viaAlias via op (selAddr 0xD50 0xD58 0xD59 sel) data)

/-- LED_LATCH_CLEAR (R324). -/
def execLedLatchClear (via : Via) (data : Word) (s : State) : Host.Outcome State Fault Refusal :=
  .next (s.viaWord via 0xD5B data)

/-- AUX_RAMP_END (R316). -/
def execAuxRampEnd (n : Fin 4) (s : State) : Host.Outcome State Fault Refusal :=
  .next (s.auxRampEnd n.val)

/-- AUX_OC (R317). -/
def execAuxOc (n : Fin 4) (s : State) : Host.Outcome State Fault Refusal :=
  .next (s.auxOcFired n.val)

/-- AUX_OV (R317). -/
def execAuxOv (edge : AuxEdge) (s : State) : Host.Outcome State Fault Refusal :=
  .next (s.auxOvFired edge.rail.val edge.present)

/-- AUX_UV (R317). -/
def execAuxUv (n : Fin 4) (s : State) : Host.Outcome State Fault Refusal :=
  .next (s.auxUvFired n.val)

/-- LED_SHORT (R323). -/
def execLedShort (n : Fin 8) (s : State) : Host.Outcome State Fault Refusal :=
  .next (s.ledShortFired n.val)

/-- LED_OPEN (R324). -/
def execLedOpen (n : Fin 8) (s : State) : Host.Outcome State Fault Refusal :=
  .next (s.ledOpenFired n.val)

/-- LED_SOFTSTART_END (R322). -/
def execLedSoftstartEnd (n : Fin 8) (s : State) : Host.Outcome State Fault Refusal :=
  .next (s.ledSoftEnd n.val)

end Sys2Proof.Machine
end

