-- ==== Sys2Proof/Machine/ExecRtc.lean ====
section
/-! DEFINITION. The clock, backup and gauge family (19_rtc_and_backup). -/

namespace Sys2Proof.Machine

/-- RTC_LOAD (R425). -/
def execRtcLoad (via : Via) (s : State) : Host.Outcome State Fault Refusal :=
  .next (s.viaWord via 0xC14 1)

/-- DST_FORWARD (R426). -/
def execDstForward (via : Via) (s : State) : Host.Outcome State Fault Refusal :=
  .next (s.viaWord via 0xC14 2)

/-- DST_BACK (R426). -/
def execDstBack (via : Via) (s : State) : Host.Outcome State Fault Refusal :=
  .next (s.viaWord via 0xC14 3)

/-- RTC_TICK (R424). -/
def execRtcTick (s : State) : Host.Outcome State Fault Refusal :=
  .next s.rtcTick

/-- GAUGE_TEST_START (R433). -/
def execGaugeTestStart (s : State) : Host.Outcome State Fault Refusal :=
  .next s.gaugeStart

/-- GAUGE_TEST_DONE (R433). -/
def execGaugeTestDone (v0 v1 v20 : Nat) (s : State) : Host.Outcome State Fault Refusal :=
  .next (s.gaugeDone v0 v1 v20)

/-- VBAK_CUTOFF (R421, R422). -/
def execVbakCutoff (s : State) : Host.Outcome State Fault Refusal :=
  .next s.vbakCutoff

/-- VBAK_RESTORE (R421). -/
def execVbakRestore (s : State) : Host.Outcome State Fault Refusal :=
  .next s.vbakRestore

/-- DELIVERY_TIME_LIMIT (R439). -/
def execDeliveryTimeLimit (s : State) : Host.Outcome State Fault Refusal :=
  .next s.deliveryLimit

/-- VBAK_LOW (R439, R440). -/
def execVbakLow (s : State) : Host.Outcome State Fault Refusal :=
  .next s.vbakLow

/-- BACKUP_RUN_IDLE_END (R440). -/
def execBackupRunIdleEnd (s : State) : Host.Outcome State Fault Refusal :=
  .next s.backupIdleEnd

/-- BACKUP_RUN_TIME_END (R440). -/
def execBackupRunTimeEnd (s : State) : Host.Outcome State Fault Refusal :=
  .next s.backupTimeEnd

/-- CHARGER_FULL (R431). -/
def execChargerFull (s : State) : Host.Outcome State Fault Refusal :=
  .next s.chargerFull

/-- CHARGING_RESUMES (R431). -/
def execChargingResumes (s : State) : Host.Outcome State Fault Refusal :=
  .next s.chargingResumes

/-- BACKUP_ALIVE (R423). -/
def execBackupAlive (vinValid : Bool) (s : State) : Host.Outcome State Fault Refusal :=
  .next (s.backupAlive vinValid).chargeFollow

/-- VIN_RETURN (R355, R441). -/
def execVinReturn (s : State) : Host.Outcome State Fault Refusal :=
  .next s.vinReturn.chargeFollow

/-- VIN_LOSS (R437); what a lost guarded write held goes on (R405). -/
def execVinLoss (s : State) : Host.Outcome State Fault Refusal :=
  .next s.vinLoss.pump

/-- VIN_OV (R338). -/
def execVinOv (s : State) : Host.Outcome State Fault Refusal :=
  .next s.vinOver

/-- VIN_OV_FALLING (R469). -/
def execVinOvFalling (s : State) : Host.Outcome State Fault Refusal :=
  .next s.vinOverEnds

end Sys2Proof.Machine
end

