-- ==== Sys2Proof/Machine/ExecScan.lean ====
section
/-! DEFINITION. The scan and drill family (06_scan_and_drills, 04_pixel_word_and_memories). -/

namespace Sys2Proof.Machine

/-- DRL_TEST (R155). -/
def execDrlTest (via : Via) (op : AliasOp) (data : Word) (s : State) : Host.Outcome State Fault Refusal :=
  .next (s.viaAlias via op 0x404 data)

/-- DRILL_ROTATE (R155). -/
def execDrillRotate (s : State) : Host.Outcome State Fault Refusal :=
  .next s.rotate

/-- DRILL_SELF_TEST_DONE (R131, R147, R156). -/
def execDrillSelfTestDone (which passed : BitVec 16) (s : State) : Host.Outcome State Fault Refusal :=
  .next (s.testsEnd which passed)

/-- FRAME_BOUNDARY (R28); level events act with it (R351). -/
def execFrameBoundary (s : State) : Host.Outcome State Fault Refusal :=
  .next s.boundary.attend

/-- START_SET (R212). -/
def execStartSet (i : StartInput) (s : State) : Host.Outcome State Fault Refusal :=
  .next (s.startSet i)

/-- ROW_LATCH (R136): the next row slot of the frame in progress. Conditions injected meanwhile meet their detectors (R477). -/
def execRowLatch (i : RowInput) (s : State) : Host.Outcome State Fault Refusal :=
  .next (if s.scan.scanning && decide (s.scan.slot < s.frameRows) then (s.rowSlot i).meetHeld else s)

/-- AGING_TICK (R87, R150). -/
def execAgingTick (flips : List BitFlip) (s : State) : Host.Outcome State Fault Refusal :=
  .next (s.agingTick flips)

end Sys2Proof.Machine
end

