-- ==== Sys2Proof/Machine/ExecSeq.lean ====
section
/-! DEFINITION. The sequencing and supervision family (14_sequencing_and_supervision) and the commits of 15_power_states. -/

namespace Sys2Proof.Machine

/-- RAIL_POWER_GOOD (R330). -/
def execRailPowerGood (s : State) : Host.Outcome State Fault Refusal :=
  .next s.powerGood

/-- RAIL_PG_TIMEOUT (R330). -/
def execRailPgTimeout (s : State) : Host.Outcome State Fault Refusal :=
  .next s.pgTimeout

/-- RAIL_DISCHARGED (R331). -/
def execRailDischarged (s : State) : Host.Outcome State Fault Refusal :=
  .next s.discharged

/-- DISCH_TIMEOUT (R331). -/
def execDischTimeout (s : State) : Host.Outcome State Fault Refusal :=
  .next s.dischOver

/-- VGL_HOLD_EXPIRY (R331). -/
def execVglHoldExpiry (s : State) : Host.Outcome State Fault Refusal :=
  .next s.vglHoldOver

/-- PLAN_AUX_PG (R335). -/
def execPlanAuxPg (s : State) : Host.Outcome State Fault Refusal :=
  .next s.planPg

/-- AUX_PG_TIMEOUT (R335). -/
def execAuxPgTimeout (s : State) : Host.Outcome State Fault Refusal :=
  .next s.auxPgTimeout

/-- PLAN_DELAY_END (R335). -/
def execPlanDelayEnd (s : State) : Host.Outcome State Fault Refusal :=
  .next s.delayEnd

/-- HOLD_COMMIT (R349, R350). -/
def execHoldCommit (attn lost : Nat) (s : State) : Host.Outcome State Fault Refusal :=
  .next (s.holdCommit attn lost)

/-- HOLD_RETURN_RAILUP (R352). -/
def execHoldReturnRailup (s : State) : Host.Outcome State Fault Refusal :=
  .next s.returnUp

/-- DORMANT_COMMIT (R354, R350). -/
def execDormantCommit (attn lost : Nat) (s : State) : Host.Outcome State Fault Refusal :=
  .next (s.dormantCommit attn lost)

/-- RAIL_UV (R338). -/
def execRailUv (edge : RailEdge) (s : State) : Host.Outcome State Fault Refusal :=
  .next (s.railUvFired edge.rail.val edge.present)

/-- RAIL_OV (R338). -/
def execRailOv (edge : RailEdge) (s : State) : Host.Outcome State Fault Refusal :=
  .next (s.railOvFired edge.rail.val edge.present)

/-- RAIL_OC (R338). -/
def execRailOc (edge : RailEdge) (s : State) : Host.Outcome State Fault Refusal :=
  .next (s.railOcFired edge.rail.val edge.present)

/-- INT_UV (R338). -/
def execIntUv (rail : IntRail) (s : State) : Host.Outcome State Fault Refusal :=
  .next (s.intUvFired rail)

/-- WATCHDOG_EXPIRY (R341). -/
def execWatchdogExpiry (s : State) : Host.Outcome State Fault Refusal :=
  .next s.watchdog

/-- RAIL_VOTE (R334). -/
def execRailVote (w : EnableWrite) (s : State) : Host.Outcome State Fault Refusal :=
  .next (s.railVote w)

end Sys2Proof.Machine
end

