-- ==== Sys2Proof/Machine/ExecStart.lean ====
section
/-! DEFINITION. The clock and start-up family (12_clock, 22_start_up). -/

namespace Sys2Proof.Machine

/-- XTAL_LOSS (R295). -/
def execXtalLoss (s : State) : Host.Outcome State Fault Refusal :=
  .next (s.xtalLost true)

/-- PLL_UNLOCK (R288). -/
def execPllUnlock (s : State) : Host.Outcome State Fault Refusal :=
  .next s.lockLost

/-- PLL_RELOCK (R288). -/
def execPllRelock (s : State) : Host.Outcome State Fault Refusal :=
  .next s.relockDone

/-- NO_RELOCK (R312). -/
def execNoRelock (s : State) : Host.Outcome State Fault Refusal :=
  .next s.relockFailed

/-- XTAL_RUNNING (R286). -/
def execXtalRunning (s : State) : Host.Outcome State Fault Refusal :=
  .next s.xtalStarts

/-- OTP_DELIVERY_DONE (R456). -/
def execOtpDeliveryDone (d : DeliverySense) (s : State) : Host.Outcome State Fault Refusal :=
  .next (s.delivered d)

/-- STRAP_READ_DONE (R62). -/
def execStrapReadDone (codes : Vector (Vector (BitVec 12) 4) 12) (s : State) : Host.Outcome State Fault Refusal :=
  .next (s.strapsRead codes).chargeFollow

/-- PLL_LOCK (R287). -/
def execPllLock (s : State) : Host.Outcome State Fault Refusal :=
  .next s.locked

/-- E0_BOOT (R482). -/
def execE0Boot (s : State) : Host.Outcome State Fault Refusal :=
  .next s.booted

/-- E0_RUN (R482). -/
def execE0Run (s : State) : Host.Outcome State Fault Refusal :=
  .next s.e0Start

/-- LINK_UP (R482). -/
def execLinkUp (s : State) : Host.Outcome State Fault Refusal :=
  .next s.linkUp

/-- STARTUP_COMPLETE (R484). -/
def execStartupComplete (s : State) : Host.Outcome State Fault Refusal :=
  .next s.completed

/-- RESET_N_ASSERT (R488). -/
def execResetNAssert (s : State) : Host.Outcome State Fault Refusal :=
  .next s.resetAssert

/-- RESET_N_RELEASE (R480). -/
def execResetNRelease (s : State) : Host.Outcome State Fault Refusal :=
  .next s.resetRelease

end Sys2Proof.Machine
end

