-- ==== Sys2Proof/Machine/ExecTherm.lean ====
section
/-! DEFINITION. The thermal family (09_thermal_plots). -/

namespace Sys2Proof.Machine

/-- WBUD (R234). -/
def execWbud (via : Via) (op : AliasOp) (data : Word) (s : State) : Host.Outcome State Fault Refusal :=
  .next (s.viaAlias via op 0x900 data)

/-- FORCE_HOT (R231). -/
def execForceHot (via : Via) (op : AliasOp) (sel : Sel 64) (data : Word) (s : State) : Host.Outcome State Fault Refusal :=
  .next (s.viaAlias via op (selAddr 0x9C0 0x910 0x911 sel) data)

/-- SLOW_ROUND_SLOT (R221). -/
def execSlowRoundSlot (i : SlotInput) (s : State) : Host.Outcome State Fault Refusal :=
  .next (s.slotEnd i)

/-- GRACE_END (R236). -/
def execGraceEnd (c : Graced) (s : State) : Host.Outcome State Fault Refusal :=
  .next (s.graceOver c)

end Sys2Proof.Machine
end

