-- ==== Sys2Proof/Machine/ExecWindow.lean ====
section
/-! DEFINITION. The registered-window family (11_registered_window). -/

namespace Sys2Proof.Machine

/-- METER_RECORD (R266). -/
def execMeterRecord (input : PortInput) (s : State) : Host.Outcome State Fault Refusal :=
  .next (s.portTakes input)

/-- SIGNATURE_CHECK_DONE (R267). -/
def execSignatureCheckDone (s : State) : Host.Outcome State Fault Refusal :=
  .next s.signatureDone

/-- KEPT_RECORD_WRITTEN (R268). -/
def execKeptRecordWritten (s : State) : Host.Outcome State Fault Refusal :=
  .next s.keptWritten

/-- RECORD_REQUEST (R269). -/
def execRecordRequest (s : State) : Host.Outcome State Fault Refusal :=
  .next s.requestFalls

/-- RENDER_DONE (R277). -/
def execRenderDone (s : State) : Host.Outcome State Fault Refusal :=
  .next s.renderEnds

/-- STALE_EXPIRY (R274). -/
def execStaleExpiry (s : State) : Host.Outcome State Fault Refusal :=
  .next s.staleNow

/-- RECHECK_DONE (R486). -/
def execRecheckDone (s : State) : Host.Outcome State Fault Refusal :=
  .next s.recheckEnds

/-- RECORD_GAP (R266). -/
def execRecordGap (s : State) : Host.Outcome State Fault Refusal :=
  .next s.portGap

end Sys2Proof.Machine
end

