-- ==== Sys2Proof/Machine/Dispatch.lean ====
section
/-! DEFINITION. The dispatch: one arm per command. -/

namespace Sys2Proof.Machine

def exec (i : Instr) (s : State) : Host.Outcome State Fault Refusal :=
  match i with
  | .hello l => Sys2Proof.Machine.execHello l s
  | .read l => Sys2Proof.Machine.execRead l s
  | .write l => Sys2Proof.Machine.execWrite l s
  | .collect l => Sys2Proof.Machine.execCollect l s
  | .collectArbitration others => Sys2Proof.Machine.execCollectArbitration others s
  | .why l => Sys2Proof.Machine.execWhy l s
  | .update l => Sys2Proof.Machine.execUpdate l s
  | .restate l => Sys2Proof.Machine.execRestate l s
  | .stage l => Sys2Proof.Machine.execStage l s
  | .reqRun via form => Sys2Proof.Machine.execReqRun via form s
  | .reqSlow via form => Sys2Proof.Machine.execReqSlow via form s
  | .reqHold via form => Sys2Proof.Machine.execReqHold via form s
  | .reqDormant via form => Sys2Proof.Machine.execReqDormant via form s
  | .wakeFrame rises frame => Sys2Proof.Machine.execWakeFrame rises frame s
  | .letterGap => Sys2Proof.Machine.execLetterGap s
  | .replyCutShort driving => Sys2Proof.Machine.execReplyCutShort driving s
  | .replyDropped => Sys2Proof.Machine.execReplyDropped s
  | .secKey via data => Sys2Proof.Machine.execSecKey via data s
  | .almOpen via => Sys2Proof.Machine.execAlmOpen via s
  | .almClose via => Sys2Proof.Machine.execAlmClose via s
  | .almCommit via => Sys2Proof.Machine.execAlmCommit via s
  | .almAbort via => Sys2Proof.Machine.execAlmAbort via s
  | .almValidationDone => Sys2Proof.Machine.execAlmValidationDone s
  | .almDrainEnd => Sys2Proof.Machine.execAlmDrainEnd s
  | .almCopyDone crcMatches => Sys2Proof.Machine.execAlmCopyDone crcMatches s
  | .almRecheckPass agrees => Sys2Proof.Machine.execAlmRecheckPass agrees s
  | .pghCancel via scope => Sys2Proof.Machine.execPghCancel via scope s
  | .pghRelease via scope => Sys2Proof.Machine.execPghRelease via scope s
  | .histClr via scope => Sys2Proof.Machine.execHistClr via scope s
  | .drlTest via op data => Sys2Proof.Machine.execDrlTest via op data s
  | .drillRotate => Sys2Proof.Machine.execDrillRotate s
  | .drillSelfTestDone which passed => Sys2Proof.Machine.execDrillSelfTestDone which passed s
  | .railTrim via op rail data => Sys2Proof.Machine.execRailTrim via op rail data s
  | .vcomTrim via op sel data => Sys2Proof.Machine.execVcomTrim via op sel data s
  | .vcomEn via op data => Sys2Proof.Machine.execVcomEn via op data s
  | .auxEn via op sel data => Sys2Proof.Machine.execAuxEn via op sel data s
  | .lswEn via op sel data => Sys2Proof.Machine.execLswEn via op sel data s
  | .ledDim via op sel data => Sys2Proof.Machine.execLedDim via op sel data s
  | .ledLatchClear via data => Sys2Proof.Machine.execLedLatchClear via data s
  | .wbud via op data => Sys2Proof.Machine.execWbud via op data s
  | .forceHot via op sel data => Sys2Proof.Machine.execForceHot via op sel data s
  | .rtcLoad via => Sys2Proof.Machine.execRtcLoad via s
  | .dstForward via => Sys2Proof.Machine.execDstForward via s
  | .dstBack via => Sys2Proof.Machine.execDstBack via s
  | .otpProgram via => Sys2Proof.Machine.execOtpProgram via s
  | .otpStep via => Sys2Proof.Machine.execOtpStep via s
  | .otpMargin via => Sys2Proof.Machine.execOtpMargin via s
  | .lcStep via op data => Sys2Proof.Machine.execLcStep via op data s
  | .otpOpDone e => Sys2Proof.Machine.execOtpOpDone e s
  | .fltInj via op data => Sys2Proof.Machine.execFltInj via op data s
  | .injectEnd => Sys2Proof.Machine.execInjectEnd s
  | .faultClear via reg data => Sys2Proof.Machine.execFaultClear via reg data s
  | .postedWriteLand block => Sys2Proof.Machine.execPostedWriteLand block s
  | .guardedWriteReply => Sys2Proof.Machine.execGuardedWriteReply s
  | .onDemandWakeDone => Sys2Proof.Machine.execOnDemandWakeDone s
  | .domainRehold d => Sys2Proof.Machine.execDomainRehold d s
  | .frameBoundary => Sys2Proof.Machine.execFrameBoundary s
  | .startSet input => Sys2Proof.Machine.execStartSet input s
  | .rowLatch input => Sys2Proof.Machine.execRowLatch input s
  | .agingTick flips => Sys2Proof.Machine.execAgingTick flips s
  | .headlandDone codes gx4AtVgl => Sys2Proof.Machine.execHeadlandDone codes gx4AtVgl s
  | .slowRoundSlot input => Sys2Proof.Machine.execSlowRoundSlot input s
  | .graceEnd c => Sys2Proof.Machine.execGraceEnd c s
  | .vinReturn => Sys2Proof.Machine.execVinReturn s
  | .backupAlive vinValid => Sys2Proof.Machine.execBackupAlive vinValid s
  | .vinLoss => Sys2Proof.Machine.execVinLoss s
  | .vinOv => Sys2Proof.Machine.execVinOv s
  | .resetNAssert => Sys2Proof.Machine.execResetNAssert s
  | .resetNRelease => Sys2Proof.Machine.execResetNRelease s
  | .sealNChange asserted => Sys2Proof.Machine.execSealNChange asserted s
  | .railPowerGood => Sys2Proof.Machine.execRailPowerGood s
  | .railPgTimeout => Sys2Proof.Machine.execRailPgTimeout s
  | .railDischarged => Sys2Proof.Machine.execRailDischarged s
  | .dischTimeout => Sys2Proof.Machine.execDischTimeout s
  | .vglHoldExpiry => Sys2Proof.Machine.execVglHoldExpiry s
  | .vcomRampEnd => Sys2Proof.Machine.execVcomRampEnd s
  | .planAuxPg => Sys2Proof.Machine.execPlanAuxPg s
  | .auxPgTimeout => Sys2Proof.Machine.execAuxPgTimeout s
  | .planDelayEnd => Sys2Proof.Machine.execPlanDelayEnd s
  | .auxRampEnd n => Sys2Proof.Machine.execAuxRampEnd n s
  | .holdCommit attn lost => Sys2Proof.Machine.execHoldCommit attn lost s
  | .holdReturnRailup => Sys2Proof.Machine.execHoldReturnRailup s
  | .dormantCommit attn lost => Sys2Proof.Machine.execDormantCommit attn lost s
  | .railUv edge => Sys2Proof.Machine.execRailUv edge s
  | .railOv edge => Sys2Proof.Machine.execRailOv edge s
  | .railOc edge => Sys2Proof.Machine.execRailOc edge s
  | .intUv rail => Sys2Proof.Machine.execIntUv rail s
  | .gateOverload line => Sys2Proof.Machine.execGateOverload line s
  | .vcomOverload ch => Sys2Proof.Machine.execVcomOverload ch s
  | .auxOc n => Sys2Proof.Machine.execAuxOc n s
  | .auxOv edge => Sys2Proof.Machine.execAuxOv edge s
  | .auxUv n => Sys2Proof.Machine.execAuxUv n s
  | .ledShort n => Sys2Proof.Machine.execLedShort n s
  | .ledOpen n => Sys2Proof.Machine.execLedOpen n s
  | .ledSoftstartEnd n => Sys2Proof.Machine.execLedSoftstartEnd n s
  | .watchdogExpiry => Sys2Proof.Machine.execWatchdogExpiry s
  | .xtalLoss => Sys2Proof.Machine.execXtalLoss s
  | .pllUnlock => Sys2Proof.Machine.execPllUnlock s
  | .railVote w => Sys2Proof.Machine.execRailVote w s
  | .pllRelock => Sys2Proof.Machine.execPllRelock s
  | .reactionDecision => Sys2Proof.Machine.execReactionDecision s
  | .recoveryEnd => Sys2Proof.Machine.execRecoveryEnd s
  | .meterRecord input => Sys2Proof.Machine.execMeterRecord input s
  | .signatureCheckDone => Sys2Proof.Machine.execSignatureCheckDone s
  | .keptRecordWritten => Sys2Proof.Machine.execKeptRecordWritten s
  | .recordRequest => Sys2Proof.Machine.execRecordRequest s
  | .renderDone => Sys2Proof.Machine.execRenderDone s
  | .staleExpiry => Sys2Proof.Machine.execStaleExpiry s
  | .recheckDone => Sys2Proof.Machine.execRecheckDone s
  | .rtcTick => Sys2Proof.Machine.execRtcTick s
  | .gaugeTestStart => Sys2Proof.Machine.execGaugeTestStart s
  | .gaugeTestDone v0 v1 v20 => Sys2Proof.Machine.execGaugeTestDone v0 v1 v20 s
  | .vbakCutoff => Sys2Proof.Machine.execVbakCutoff s
  | .vbakRestore => Sys2Proof.Machine.execVbakRestore s
  | .xtalRunning => Sys2Proof.Machine.execXtalRunning s
  | .otpDeliveryDone d => Sys2Proof.Machine.execOtpDeliveryDone d s
  | .strapReadDone codes => Sys2Proof.Machine.execStrapReadDone codes s
  | .pllLock => Sys2Proof.Machine.execPllLock s
  | .e0Boot => Sys2Proof.Machine.execE0Boot s
  | .e0Run => Sys2Proof.Machine.execE0Run s
  | .linkUp => Sys2Proof.Machine.execLinkUp s
  | .startupComplete => Sys2Proof.Machine.execStartupComplete s
  | .deliveryTimeLimit => Sys2Proof.Machine.execDeliveryTimeLimit s
  | .vbakLow => Sys2Proof.Machine.execVbakLow s
  | .backupRunIdleEnd => Sys2Proof.Machine.execBackupRunIdleEnd s
  | .backupRunTimeEnd => Sys2Proof.Machine.execBackupRunTimeEnd s
  | .vinOvFalling => Sys2Proof.Machine.execVinOvFalling s
  | .noRelock => Sys2Proof.Machine.execNoRelock s
  | .supplyOkChange ok => Sys2Proof.Machine.execSupplyOkChange ok s
  | .recordGap => Sys2Proof.Machine.execRecordGap s
  | .chargerFull => Sys2Proof.Machine.execChargerFull s
  | .chargingResumes => Sys2Proof.Machine.execChargingResumes s

end Sys2Proof.Machine
end

