-- ==== Sys2Proof/Safety.lean ====
section
/-! DEFINITION. What counts as a safe state, and the conditions under which claims say that a command has its effect. -/

namespace Sys2Proof.Machine

/-! ### Invariants -/

/-- The canonical form of every addressed memory: frame store and ledger with their flipped bits, and the one-time-programmable
cells (R88, R91, R97, R442). -/
def State.memoryOk (s : State) : Bool :=
  swf unknownWord s.mem.pixels && swf 0 s.mem.ledger && swf 0 s.mem.flips && swf 0 s.mem.ledgerFlip && swf default s.otp.words && swf Thermo.blank s.otp.thermo

/-- While ACTIVE is 0, TARGET equals CURRENT in every word as a read delivers it (R80). -/
def State.idleOk (s : State) : Prop :=
  ∀ k, (pixelOf (sget unknownWord s.mem.pixels k)).active = false →
    (pixelOf (sget unknownWord s.mem.pixels k)).target = (pixelOf (sget unknownWord s.mem.pixels k)).current

/-- Number of set bits. -/
def bitCount (w : BitVec 88) : Nat := (List.range 88).countP (fun i => w.getLsbD i)

/-- The bits of the frame store that a command says have flipped. -/
def flipsOf : Instr → List BitFlip
  | .rowLatch i => i.flips ++ i.lateFlips
  | .startSet i => i.flips
  | .agingTick l => l
  | _ => []

/-- No group that the command at the queue's front flips has more than two bits flipped after it: more may read as another word
(R91). -/
def State.flipsLow (s : State) : Prop :=
  ∀ c rest g, s.pending = c :: rest → (∃ x ∈ flipsOf c, x.group = g) →
    bitCount (sget 0 s.mem.flips g) + (flipsOf c).countP (fun x => x.group == g) ≤ 2

/-! ### What a stop and a fault leave -/

/-- The memories of t are those of s, or those of s once the scan's stop has made the visits that its locks held up (R154). -/
def State.memKept (s t : State) : Prop := t.mem = s.mem ∨ t.mem = s.releaseRows.mem

/-- The power states' record is kept, but for the causes of ATTN_N that the wake-race window holds back (R350). -/
def State.pwrKept (s t : State) : Prop := t.pwr = { s.pwr with attnHeld := t.pwr.attnHeld }

/-- The access record is kept, but for what the hardware has just set (R13). -/
def State.accKept (s t : State) : Prop := t.acc = { s.acc with hwSet := t.acc.hwSet }

/-- A stop takes the main domains nowhere at once: a panel rail is up, or nothing waits for the rails to be down. -/
def State.staysUp (s : State) : Prop := s.anyRail = true ∨ s.rtc.deliveryAt = none ∧ s.pwr.st ≠ .enterDormant

/-! ### When a letter is executed -/

/-- The commands that bring a letter as bytes. -/
def letterCommands (l : Letter) : List Instr :=
  [.hello l, .read l, .write l, .collect l, .why l, .update l, .restate l, .stage l]

/-- The reply that the letter's KIND makes of a status and a body: full, short, or none (R367, R369). -/
def State.replyTo (s : State) (l : Letter) (status : Byte) (body : List Byte) : Option Reply :=
  if l.kind = 2 then none
  else some { bytes := s.replyBytes l.typ l.tag status (if l.kind = 1 then [] else body), readyAt := s.now
              short := l.kind == 1 }

/-- A letter passes orders 1 to 5 of R365: the device hears it, it is framed and sound, begins no round, is addressed to
the device, repeats nothing, and its form is the open version's. -/
def State.takes (s : State) (l : Letter) : Bool :=
  s.hears l && l.framed && l.sound && !l.collects && s.addressed l && !s.repeats l && (s.order5 l).isNone

/-- No letter waits, no write is in flight, no relock runs: a register letter is served to its end at once (R390). -/
def State.quiet (s : State) : Bool :=
  s.link.serving.isEmpty && s.acc.guarded.isEmpty && s.acc.posted.isEmpty && !s.relocking

/-- t is s but for the time, the link's records and the access machinery: all that serving a letter touches by itself. -/
def State.servedOnly (s t : State) : Prop :=
  t = { s with now := t.now, link := t.link, acc := t.acc, rtc.quietAt := t.rtc.quietAt }

/-- t is s but for the link's records and the access machinery, at the same moment: all that receiving a letter touches by
itself. -/
def State.heardOnly (s t : State) : Prop :=
  t = { s with link := t.link, acc := t.acc, rtc.quietAt := t.rtc.quietAt }

/-- The link after a letter that was executed: counted, its round and its waiting reply ended, all else of the link as it was but
the record and the reply (R365, R372, R389). -/
def State.letterCounted (s t : State) : Prop :=
  t.link = { s.link with letters := (s.link.letters + 1) % 65536, inRound := false, winner := false
                         recorded := t.link.recorded, lastTag := t.link.lastTag, reply := t.link.reply
                         abort := t.link.abort, serving := t.link.serving }

/-! ### Registers that hold what is written -/

/-- The registers whose written fields only hold a value, by address, with what holds it (R389, R415, R416, R218, R244, R255,
R284, R419, R328). -/
def heldRegisters : List (Nat × (State → Word)) :=
  [ (0x220, fun s => s.otp.addr), (0x221, fun s => s.otp.data), (0x304, fun s => s.panel.vcomGroup.setWidth 32)
  , (0x320, fun s => s.panel.qcSel), (0x502, fun s => s.link.cfg.setWidth 32), (0x800, fun s => s.pgh.index)
  , (0x808, fun s => s.pgh.cfg), (0x912, fun s => s.therm.group0), (0x913, fun s => s.therm.group1)
  , (0xA10, fun s => s.ledger.cellSel), (0xB15, fun s => s.rw.cfg), (0xB20, fun s => s.rw.recSel)
  , (0xC12, fun s => s.rtc.stageT), (0xC13, fun s => s.rtc.stageD), (0xC16, fun s => s.rtc.alm1), (0xC17, fun s => s.rtc.alm1D)
  , (0xC18, fun s => s.rtc.alm2), (0xC19, fun s => s.rtc.alm2D), (0xD46, fun s => s.tree.auxGroup.setWidth 32)
  , (0xD4E, fun s => s.tree.lswGroup.setWidth 32), (0xD5A, fun s => s.tree.ledGroup.setWidth 32) ]

/-- Their written bits. -/
def heldMask (a : Nat) : Word :=
  match rowAt a with
  | some r => wd r.rw
  | none => 0

/-! ### Requests (R347) -/

/-- The command of a power-state request. -/
def reqCommand (v : Via) (f : ReqForm) : PwrReq → Instr
  | .run => .reqRun v f
  | .slow => .reqSlow v f
  | .hold => .reqHold v f
  | .dormant => .reqDormant v f

/-- Its letter: SCAN, or a write of `PWR_CTL`. -/
def reqLetter (v : Via) (f : ReqForm) (r : PwrReq) : Letter :=
  let k := match r with | .run => 0 | .slow => 1 | .hold => 2 | .dormant => 3
  match f with
  | .scan => viaScan v k
  | .write d => viaWrite v 0xF00 ((d &&& ~~~(3#32)) ||| wd k)

/-- A write of `PWR_CTL` also writes ALARM_WAKE. -/
def State.withForm (s : State) (f : ReqForm) : State :=
  match f with
  | .scan => s
  | .write d => { s with pwr.alarmWake := bit d 8 }

/-- No level event of R351 stands. -/
def State.levelQuiet (s : State) : Bool := !(s.pwr.alarmWake && (s.rtc.alm1F || s.rtc.alm2F)) && !s.rw.attention

/-! ### Writes in two commands -/

/-- A command whose write is posted, and then lands (R394): u is the state after it. -/
def State.landsAs (s : State) (c : Instr) (block : Fin 16) (u : State) : Prop :=
  ∃ t, exec c s = .next t ∧ exec (.postedWriteLand block) t = .next u

/-- A guarded write, and then its reply (R403): u is the state after it. -/
def State.repliesAs (s : State) (c : Instr) (u : State) : Prop :=
  ∃ t, exec c s = .next t ∧ exec .guardedWriteReply t = .next u

/-! ### The hedge -/

/-- The hedge has taken the device over from s for a cause: the scan has stopped, the rail order has begun or, with no rail up,
the items are being dropped, and posted writes across the bridge are lost (R341 to R343, R395). -/
def State.takenOver (s t : State) (cause : Nat) : Prop :=
  t.seq.hedge = true ∧ t.seq.hedgeCause = setBit s.seq.hedgeCause cause true ∧ t.seq.phase = .hedge ∧ t.pwr.st = .hedge
    ∧ t.scan.scanning = false ∧ t.scan.startDue = none ∧ t.flt.react = none ∧ t.rtc.bak.getLsbD 2 = true
    ∧ t.acc.posted = s.acc.posted.filter (fun p => p.backup) ∧ t.mem = s.releaseRows.mem ∧ t.otp = s.otp
    ∧ t.link.version = s.link.version
    ∧ (s.anyRail = true → t.seq.after = .hedge ∧ t.seq.railStep ≠ 0 ∧ t.seq.rising = false ∧ t.seq.hedgeStep ≤ 3)
    ∧ (s.anyRail = false → s.seq.railStep = 0 → t.seq.hedgeStep = 5 ∧ t.seq.run = .hedgeDrop ∧ t.seq.stepAt = t.now
        ∧ t.seq.hedgeEnd = t.now + 66 * 6144)

/-- The timing words and the row time that D brings (R185). -/
def State.atDrain (s : State) : State :=
  let w : State := { s with panel.words := timingOf (some s.alm.staged) s.frameRows }
  { w with scan.rowT := w.rowTimeNow }

/-- The clock once a takeover has disabled the PLL and enabled it again, where a relock is due (R288). -/
def State.relockTried (s : State) : ClockState :=
  if s.clock.xtalOk = true ∧ s.clock.relock = .none then
    { s.clock with pllLock := false, relock := .running, relockAt := s.now }
  else s.clock

/-- An auxiliary rail's reference ramps down. -/
def Aux.falling (x : Aux) : Bool := match x.ramp with | .down _ => true | _ => false

/-! ### Quiet conditions -/

/-- A channel is chosen by the address of a write to an array: itself, every channel, or those of the group's mask (R397). -/
def selTakes {n : Nat} (mask : Nat) : Sel n → Nat → Bool
  | .one i, k => k == i.val
  | .broadcast, _ => true
  | .group, k => mask.testBit k

/-- RUN or slow scan with no reaction, DARK, hedge, delivery, RESET_N or injection. -/
def State.steady (s : State) : Bool :=
  (s.pwr.st == PwrSt.run || s.pwr.st == PwrSt.slow) && s.flt.react.isNone && !s.flt.dark && !s.seq.hedge
    && s.rtc.deliveryAt.isNone && !s.rtc.resetN && s.flt.injecting.isEmpty

/-- No drill is declared dead and no test waits for a slot: the drills' service is the same after the boundary but for a
spare that takes a slot. -/
def State.drillsKeep (s : State) : Bool := !s.anyFenced && s.drills.swap.isNone

/-- The row time of the frame to come: that of the words that wait, for RUN or slow scan as a change of rate has it (R103, R138,
R353). -/
def State.comingRow (s : State) : State :=
  let slow := match s.pwr.change with
    | some b => if s.seqIdle then b else s.scan.slow
    | none => s.scan.slow
  let w : State := { s with panel.words := if s.alm.wordsDue then timingOf s.alm.image s.frameRows else s.panel.words, scan.slow := slow }
  { w with scan.rowT := w.rowTimeNow }

/-- The coming row time is one that the drills in service, and any more, meet (R138). -/
def State.spanKept (s : State) : Bool := allTo 15 (fun a => decide (a < s.aNow) || !s.comingRow.shortFor a)

end Sys2Proof.Machine
end

