-- ==== Sys2Proof/Certificates/Slice0/Obligations.lean ====
section
/-! DEFINITION. The statements for the provers: the queue and the invariants, the link and the registers, then the commands
family by family. -/

open Sys2Proof Sys2Proof.Machine

/-! ### The queue and the invariants -/

/-- The command at the front of the queue runs with the queue's rest; with nothing waiting a cycle of SCLK passes (the model's
choice, log 1). -/
def Obligations.QueueRuns : Prop :=
  (∀ (s : State) (c : Instr) (rest : List Instr),
    step { s with pending := c :: rest } = exec c { s with pending := rest })
  ∧ ∀ s : State, s.pending = [] → step s = .next { s with now := s.now + 1 }

/-- A command's effect leaves the queue of waiting commands as it was. -/
def Obligations.NoCommandTouchesQueue : Prop :=
  ∀ (c : Instr) (s t : State), exec c s = .next t → t.pending = s.pending

/-- At reset the memories are canonical and idle pixels agree. -/
def Obligations.ResetMeetsInvariants : Prop :=
  State.reset.memoryOk = true ∧ State.reset.idleOk ∧ State.reset.pending = []

/-- Frame store, ledger and one-time-programmable cells keep their canonical form in every step. -/
def Obligations.MemoryStaysCanonical : Prop :=
  ∀ s t : State, s.memoryOk = true → step s = .next t → t.memoryOk = true

/-- R80 is kept by every step: an idle pixel's TARGET is its CURRENT, so both hold a known state or both hold 31. A group that bits
flip in is left with at most two of them flipped: more may read as another word (R91). -/
def Obligations.IdlePixelsAgree : Prop :=
  ∀ s t : State, s.memoryOk = true → s.idleOk → s.flipsLow → step s = .next t →
    t.idleOk ∧ ∀ k, (pixelOf (sget unknownWord t.mem.pixels k)).active = false →
      let x := pixelOf (sget unknownWord t.mem.pixels k)
      (x.target ≤ 30 ∧ x.current ≤ 30) ∨ (x.target = 31 ∧ x.current = 31)

/-- A thermometer counter never reads lower than before a step, as its cells hold it; so neither as it reads, but where a raise in
progress shows its target before its cells are all programmed, of which `OtpOperationEnds` says where a cut leaves it (R449, R450).
-/
def Obligations.CountersNeverFall : Prop :=
  ∀ (s t : State) (c : Nat), step s = .next t →
    s.counterCells c ≤ t.counterCells c ∧ t.counterCells c ≤ t.counter c ∧ (s.raiseShown = false → s.counter c ≤ t.counter c)

/-- A bit of a one-time-programmable word that reads 1 is never cleared (R443, R445). -/
def Obligations.OtpWordsOnlyGain : Prop :=
  ∀ (s t : State) (w i : Nat), s.memoryOk = true → step s = .next t →
    (s.otpWord w).bits.getLsbD i = true → (t.otpWord w).bits.getLsbD i = true

/-- What R423 leaves when the backup domain comes alive from no supply: TIME_LOST and POWER_ON, the calendar, every other field of
the backup domain at its value or 0, nothing kept, `HEDGE_STAT` clear, uptime from here, `RTC_COMP` not affected; the crystal curve
is delivered by every start-up. -/
def Obligations.BackupComesAlive : Prop :=
  (∀ (s : State) (vin : Bool), s.rtc.alive = false → ∃ t, exec (.backupAlive vin) s = .next t
    ∧ t.rtc.alive = true ∧ t.rtc.onBackup = !vin ∧ t.rtc.bak = 2 ∧ t.pwr.wake = 0x20 ∧ t.rtc.comp = s.rtc.comp
    ∧ t.rtc.cal = { sec := 0, min := 0, hour := 0, day := 1, month := 1, year := 0, weekday := 6 }
    ∧ t.rtc.secondAt = s.now ∧ t.rtc.aliveAt = s.now ∧ t.now = s.now
    ∧ t.rtc.kept0.marker = false ∧ t.rtc.kept1.marker = false ∧ t.rtc.kept0.floor = 0 ∧ t.rtc.kept1.floor = 0
    ∧ t.seq.hedge = false ∧ t.seq.hedgeStep = 0 ∧ t.seq.hedgeCause = 0
    ∧ t.rtc.stageT = 0 ∧ t.rtc.stageD = 0 ∧ t.rtc.badSet = false ∧ t.rtc.alm1F = false ∧ t.rtc.alm2F = false
    ∧ t.rtc.dst = 0 ∧ t.rtc.dstPending = false
    ∧ t.rtc.alm1 = 0x00204040 ∧ t.rtc.alm1D = 0x00091121 ∧ t.rtc.alm2 = 0x00204040 ∧ t.rtc.alm2D = 0x00091121
    ∧ t.rtc.temp = 0 ∧ t.rtc.adj = 0 ∧ t.rtc.period = 0 ∧ t.rtc.chgEn = true ∧ t.rtc.chgCur = 0 ∧ t.rtc.full = false
    ∧ t.rtc.gVbak = 0 ∧ t.rtc.usable = 0 ∧ t.rtc.liveOk = false ∧ t.rtc.wakeOk = false ∧ t.rtc.testing = none
    ∧ t.rtc.path = false ∧ t.rtc.armed = false
    ∧ t.pwr.mHouse = 0 ∧ t.pwr.mPostA = 0 ∧ t.pwr.mPostB = 0 ∧ t.pwr.mBak = 0
    ∧ t.tree.vinValid = vin ∧ t.mem = s.mem ∧ t.otp = s.otp ∧ t.link = s.link ∧ t.flt = s.flt)
  ∧ ∀ (s : State) (d : DeliverySense), s.up.stage = .otp → (s.senseFactory d.flips).criticalOk = true →
    ∃ t, exec (.otpDeliveryDone d) s = .next t
      ∧ t.rtc.comp = Config.rtcComp ((List.range 63).map (s.senseFactory d.flips).factoryValue)

/-- What reset leaves of the registers whose value the spec gives. -/
def Obligations.ResetValues : Prop :=
  let s := State.reset
  s.link.version = 0 ∧ s.link.lastTag = 0 ∧ s.link.cfg = 0 ∧ s.link.errFrame = 0 ∧ s.link.letters = 0
    ∧ s.flt.sticky0 = 0 ∧ s.flt.sticky1 = 0 ∧ s.flt.first = none ∧ s.rtc.bak = 2 ∧ s.pwr.wake = 0x20
    ∧ s.panel.vcomEn = 0xFF ∧ s.pgh.index = 0 ∧ s.pgh.cfg = 0 ∧ s.alm.load = .idle ∧ s.scan.scanning = false
    ∧ s.pwr.result = .none ∧ s.acc.armed = none ∧ s.acc.testMode = false ∧ s.acc.voteCnt = 0
    ∧ (∀ n, (s.pgh_ n).state = .free) ∧ (∀ k, sget unknownWord s.mem.pixels k = 0xFFC06)
    ∧ (∀ k, sget (0 : LedgerWord) s.mem.ledger k = 0) ∧ s.rtc.cal.weekday = 6

/-! ### The link -/

/-- A letter with one byte of its body damaged on the way fails order 2 and is counted in `NOV_ERR0.CRC`; one whose rise count is
not that of its LENGTH fails order 1 and is counted in `NOV_ERR0.FRAME`. Nothing of either is acted on and no reply is sent (R361,
R364, R365). -/
def Obligations.BadLettersDropped : Prop :=
  (∀ (s : State) (l l' : Letter) (i : Nat) (b : Byte),
    l.sound = true → i < l.body.length → byteAt l.body i ≠ b → l' = { l with body := l.body.set i b } →
    s.hears l' = true → l'.framed = true →
    ∀ c ∈ letterCommands l', ∃ t, exec c s = .next t ∧ s.heardOnly t
      ∧ t.link.errCrc = sat16 s.link.errCrc 1 ∧ t.link.errFrame = s.link.errFrame ∧ t.link.letters = s.link.letters
      ∧ t.link.recorded = s.link.recorded ∧ t.link.version = s.link.version ∧ t.link.reply = none)
  ∧ (∀ (s : State) (l : Letter), s.hears l = true → l.rises ≠ l.risesDue →
    ∀ c ∈ letterCommands l, ∃ t, exec c s = .next t ∧ s.heardOnly t
      ∧ t.link.errFrame = sat16 s.link.errFrame 1 ∧ t.link.errCrc = s.link.errCrc ∧ t.link.letters = s.link.letters
      ∧ t.link.recorded = s.link.recorded ∧ t.link.version = s.link.version ∧ t.link.reply = none)

/-- HELLO: the highest version from VMIN to VMAX is chosen and opens the link; with none in common the link keeps its version.
Either way the duplicate record is cleared, and HOLD ends (R351, R375). -/
def Obligations.HelloOpens : Prop :=
  ∀ (s : State) (l : Letter), s.takes l = true → l.typ = 0x01 →
    let c := chooseVersion (l.framing == .v1) (byteAt l.body 1).toNat (byteAt l.body 0).toNat
    ∃ t, exec (.hello l) s = .next t
      ∧ (∃ u : State, u = s.wakeEvent .letter ∧ u.heardOnly t)
      ∧ t.link.version = (if c = 0 then s.link.version else versionCode c)
      ∧ t.link.recorded = none ∧ t.link.lastTag = s.link.lastTag
      ∧ t.link.letters = (s.link.letters + 1) % 65536 ∧ t.acc.helloSeen = (s.acc.helloSeen || decide (c ≠ 0))
      ∧ t.link.reply = s.replyTo l (if c = 0 then 0xF2 else 0)
          [BitVec.ofNat 8 c, 0x21, BitVec.ofNat 8 s.house, BitVec.ofNat 8 (s.postA + 16 * s.postB)]

/-- WHY: the refuser's code of the last power-state refusal, and `SEC_WHY` while SEAL_N is asserted (R378). -/
def Obligations.WhyServed : Prop :=
  ∀ (s : State) (l : Letter), s.takes l = true → l.typ = 0x07 →
    ∃ t, exec (.why l) s = .next t ∧ s.heardOnly t ∧ s.letterCounted t
      ∧ t.link.reply = s.replyTo l 0
          [BitVec.ofNat 8 s.pwr.refuser, if s.acc.sealIn then BitVec.ofNat 8 s.acc.why else 0]

/-- A STAGE letter in order is staged at its OFFSET and `ALM_STAT.STAGED_BYTES` advances; out of order, past the container or
outside STAGING it is answered with its code and stages nothing. A STAGE ends HOLD (R182, R351, R373, R378). -/
def Obligations.StageTaken : Prop :=
  ∀ (s : State) (l : Letter), s.takes l = true → l.typ = 0x12 →
    let offset := quad l.body 0
    let data := l.body.drop 4
    ∃ t, exec (.stage l) s = .next t
      ∧ (if s.alm.load = .staging ∧ offset = s.alm.stagedBytes ∧ offset + data.length ≤ 430084 then
          (∃ u : State, u = { s.wakeEvent .letter with alm := { s.alm with staged := s.alm.staged ++ data.toArray,
                                                                           stagedBytes := s.alm.stagedBytes + data.length } }
            ∧ u.heardOnly t) ∧ t.link.reply = s.replyTo l 0 []
        else (∃ u : State, u = s.wakeEvent .letter ∧ u.heardOnly t)
          ∧ t.link.reply = s.replyTo l (if s.alm.load ≠ .staging then 0x40 else if offset ≠ s.alm.stagedBytes then 0x41 else 0x42) [])

/-- An UPDATE or RESTATE that passes R196's checks makes its pigeonhole PENDING with the letter's fields; one that fails gets the
first failing check's code and changes no pigeonhole (R194 to R196, R205). -/
def Obligations.UpdateTaken : Prop :=
  ∀ (s : State) (l : Letter) (restate : Bool), s.takes l = true → l.typ = (if restate then 0x11 else 0x10) →
    let f := updateFields l.body
    ∃ t, exec (if restate then .restate l else .update l) s = .next t
      ∧ (let u := s.wakeEvent .letter
         let code := u.updateCheck f
         t.link.reply = s.replyTo l code []
         ∧ (code ≠ 0 → u.heardOnly t)
         ∧ (code = 0 →
            let p := t.pgh_ f.n
            p.state = .pending ∧ p.row0 = f.row0 ∧ p.height = f.height ∧ p.colg0 = f.col0 / 4 ∧ p.widg = f.width / 4
              ∧ p.mode.val = f.mode ∧ p.preempt = f.preempt ∧ p.format.val = f.format ∧ p.prio.val = f.prio
              ∧ p.keep = f.keep ∧ p.ref = f.ref ∧ p.source = (if f.ref then f.source else f.n)
              ∧ p.ticket = s.pgh.ticket ∧ p.restate = restate ∧ p.waited = 0 ∧ p.nextRow = 0
              ∧ t.pgh.ticket = (s.pgh.ticket + 1) % 32768 ∧ (∀ m, m ≠ f.n → t.pgh_ m = s.pgh_ m)
              ∧ t.pgh.sieve = s.pgh.sieve ∧ t.pgh.done = s.pgh.done ∧ t.pgh.cfg = s.pgh.cfg
              ∧ t.mem = s.mem ∧ t.scan = s.scan ∧ t.alm = s.alm ∧ t.otp = s.otp ∧ t.rw = s.rw))

/-- A COLLECT letter begins a round, whatever order 5 says of it; the end of an arbitration then decides a winner by the lower house
number, or ends the round when no device competes (R380, R381).
In part the model's reading: log 93. -/
def Obligations.CollectionRound : Prop :=
  (∀ (s : State) (l : Letter), s.hears l = true → l.framed = true → l.sound = true → l.collects = true →
    ∃ t, exec (.collect l) s = .next t ∧ s.heardOnly t
      ∧ t.link.inRound = true ∧ t.link.replied = false ∧ t.link.winner = false ∧ t.link.roundTag = l.tag
      ∧ t.link.roundStatus = (s.order5 l).getD 0
      ∧ t.link.reply = none ∧ t.link.recorded = s.link.recorded)
  ∧ (∀ (s : State) (others : List (BitVec 4)), s.link.inRound = true → s.linkLive = true → s.link.winner = false →
    ∃ t, exec (.collectArbitration others) s = .next t ∧ s.heardOnly t
      ∧ (let mine := decide (s.attnWord ≠ 0) && !s.link.replied
         t.link.inRound = (mine || !others.isEmpty)
         ∧ (mine = true → (∀ h ∈ others, s.house ≤ h.toNat) → t.link.winner = true
            ∧ t.link.reply = some {
                readyAt := s.now, short := false
                bytes := s.replyBytes 0x05 s.link.roundTag s.link.roundStatus
                  (if s.link.roundStatus = 0 then leBytes 4 s.attnWord else []) })
         ∧ ((mine = false ∨ ∃ h ∈ others, h.toNat < s.house) → t.link.winner = false ∧ t.link.reply = s.link.reply)))
  ∧ (∀ (s : State) (others : List (BitVec 4)), s.link.inRound = true → s.linkLive = true → s.link.winner = true →
    ∃ t, exec (.collectArbitration others) s = .next t ∧ s.heardOnly t ∧ t.link.replied = true ∧ t.link.winner = false
      ∧ t.link.reply = none ∧ t.link.inRound = !others.isEmpty)

/-- A READ of a range of registers is answered with their words in address order; an address at which no register lies reads 0.
An address above 0x3FFF is answered BAD_ADDRESS (R373, R376, R390, R391).
In part the model's reading: log 113. -/
def Obligations.ReadServed : Prop :=
  ∀ (s : State) (l : Letter), s.takes l = true → s.quiet = true → l.typ = 0x02 →
    let a := half l.body 0
    (0x4000 ≤ a → ∃ t, exec (.read l) s = .next t ∧ s.heardOnly t ∧ s.letterCounted t ∧ t.link.reply = s.replyTo l 0x31 [])
    ∧ (a < 0x4000 → ∀ x : Nat → Word,
        (∀ i, i < l.count →
          (s.decodeAddr (a + i) = none ∧ x i = 0)
          ∨ ∃ b row, s.decodeAddr (a + i) = some b ∧ rowAt (b % 4096) = some row
              ∧ (wakeOf row.dom = none ∨ s.pwr.st ≠ .hold ∧ s.mustWake b = none) ∧ ∀ w, s.heardOnly w → w.acc = s.acc → w.readAt b = (x i, w)) →
        ∃ t, exec (.read l) s = .next t ∧ s.heardOnly t ∧ s.letterCounted t ∧ t.acc = s.acc
          ∧ t.link.reply = s.replyTo l 0 ((List.range l.count).flatMap (fun i => leBytes 4 (x i).toNat)))

/-- A WRITE of one word to a register that only holds its value takes effect through the address's alias on the written bits
alone: at once in the logic core, when it lands elsewhere. Every other such register stays as it was (R390, R394, R396). -/
def Obligations.WriteServed : Prop :=
  ∀ (s : State) (v : Via) (op : AliasOp) (d : Word) (a : Nat) (f : State → Word), (a, f) ∈ heldRegisters →
    s.takes (viaWrite v (4096 * opCode op + a) d) = true → s.quiet = true →
    ∃ t u, exec (.write (viaWrite v (4096 * opCode op + a) d)) s = .next t
      ∧ exec (.postedWriteLand (Fin.ofNat 16 (a / 256))) t = .next u
      ∧ f u = aliasOp (opCode op) (f s) d &&& heldMask a
      ∧ (a / 256 ∈ [5, 8, 9, 10, 11] → u = t)
      ∧ (a / 256 ∉ [5, 8, 9, 10, 11] → f t = f s)
      ∧ (∀ b g, (b, g) ∈ heldRegisters → b ≠ a → g u = g s)
      ∧ u.mem = s.mem ∧ u.scan = s.scan ∧ u.alm = s.alm ∧ u.clock = s.clock ∧ u.seq = s.seq ∧ u.flt = s.flt ∧ u.up = s.up
      ∧ u.strap = s.strap ∧ u.drills = s.drills ∧ u.pwr = s.pwr

/-- A WRITE of several words whose range holds a guarded register is answered MULTI_GUARD and writes nothing (R373). -/
def Obligations.MultiGuardRefused : Prop :=
  ∀ (s : State) (l : Letter), s.takes l = true → l.typ = 0x03 → half l.body 0 < 0x4000 → 1 < l.count →
    s.rangeGuarded (half l.body 0) l.count = true →
    ∃ t, exec (.write l) s = .next t ∧ s.heardOnly t ∧ s.letterCounted t ∧ t.link.reply = s.replyTo l 0x32 []

/-- A power-state request, by letter or by a write of `PWR_CTL`, while no level event stands: the first check of R348 that fails
refuses it, and it changes nothing but RESULT, REFUSER and its count; accepted, it begins what R347's table names.
In part the model's reading: logs 43 and 44. -/
def Obligations.RequestDecided : Prop :=
  ∀ (s : State) (v : Via) (f : ReqForm) (r : PwrReq),
    s.takes (reqLetter v f r) = true → s.quiet = true → (s.withForm f).levelQuiet = true →
    let w := s.withForm f
    ∃ t, exec (reqCommand v f r) s = .next t ∧
      match w.refuserOf r with
      | some c =>
        ({ w with pwr.result := .refused, pwr.refuser := c
                  pwr.refuse := vset w.pwr.refuse (c - 1) (sat32 (vget w.pwr.refuse (c - 1)) 1) } : State).heardOnly t
      | none =>
        t.pwr.result = .accepted ∧ t.pwr.req = r ∧ t.pwr.refuser = s.pwr.refuser ∧ t.pwr.refuse = s.pwr.refuse
          ∧ t.mem = s.mem ∧ t.otp = s.otp ∧ t.scan = s.scan ∧ t.seq = s.seq ∧ t.tree = s.tree ∧ t.up = s.up
          ∧ (s.entering = none →
              (s.pwr.st = .run → r = .run → t.pwr.st = .run ∧ t.pwr.change = none)
              ∧ (s.pwr.st = .slow → r = .slow → t.pwr.st = .slow ∧ t.pwr.change = none)
              ∧ (s.pwr.st = .hold → r = .hold → t.pwr.st = .hold)
              ∧ (s.pwr.st = .run → r = .slow → t.pwr.st = .run ∧ t.pwr.change = some true)
              ∧ (s.pwr.st = .slow → r = .run → t.pwr.st = .slow ∧ t.pwr.change = some false)
              ∧ (s.pwr.st = .run ∨ s.pwr.st = .slow → r = .hold →
                  t.pwr.st = .enterHold ∧ t.pwr.resume = decide (s.pwr.st = .slow) ∧ t.pwr.committed = false)
              ∧ (s.pwr.st = .run ∨ s.pwr.st = .slow → r = .dormant → t.pwr.st = .enterDormant ∧ t.pwr.noWait = false)
              ∧ (s.pwr.st = .hold → r = .dormant → t.pwr.st = .enterDormant ∧ t.pwr.noWait = true)
              ∧ (s.pwr.st = .hold → r = .run ∨ r = .slow →
                  t.pwr.st = .ret ∧ t.pwr.retSlow = decide (r = .slow) ∧ t.pwr.retAt = some s.now))

/-- A letter abandoned between rises, a reply cut short, and a reply the host does not launch within 10 ms are counted, and the
reply is gone (R362, R370, R372).
In part the model's reading: log 92. -/
def Obligations.LinkEventsCounted : Prop :=
  (∀ s : State, s.linkLive = true → ∃ t, exec .letterGap s = .next t ∧ s.heardOnly t
    ∧ t.link.gap = sat16 s.link.gap 1 ∧ t.link.reply = none ∧ t.link.inRound = false ∧ t.link.letters = s.link.letters
    ∧ t.link.recorded = s.link.recorded ∧ t.link.version = s.link.version ∧ t.link.errFrame = s.link.errFrame)
  ∧ (∀ (s : State) (driving : Bool), s.linkLive = true → s.link.reply.isSome = true →
    ∃ t, exec (.replyCutShort driving) s = .next t ∧ s.heardOnly t
      ∧ t.link.abort = sat16 s.link.abort 1 ∧ t.link.reply = none ∧ t.link.inRound = false ∧ t.link.winner = false
      ∧ t.link.replied = s.link.replied ∧ t.link.gap = s.link.gap ∧ t.link.recorded = s.link.recorded)
  ∧ (∀ (s : State) (r : Reply), s.linkLive = true → s.link.reply = some r →
    exec .replyDropped s = .next { s with
      now := max s.now (r.readyAt + 2013266), link.reply := none, link.winner := false, link.gap := sat16 s.link.gap 1 })

/-- A wake frame addressed to the device: in DORMANT it begins a start-up, whose causes it joins, or with VIN not valid it is
deferred; a frame for another, or one not of 16 rises, changes nothing; a running link counts it as badly framed (R355, R385,
R386, R481). -/
def Obligations.WakeFrameActs : Prop :=
  ∀ (s : State) (rises : Nat) (f : BitVec 16),
    (s.up.stage = .off → s.pwr.st = .dormant → s.rtc.armed = true → s.frameMatches rises f = true → s.tree.vinValid = true →
      s.clock.xtalOk = true → s.rtc.resetN = false → s.rtc.alive = true →
      ∃ t, exec (.wakeFrame rises f) s = .next t ∧ t.up.stage = .otp ∧ t.up.at_ = s.now ∧ t.up.rstOut = true
        ∧ t.pwr.wake = s.rtc.causes ||| 0x81 ∧ t.rtc.causes = 0 ∧ t.rtc.armed = false
        ∧ t.rtc.cal = s.rtc.cal ∧ t.rtc.kept0 = s.rtc.kept0 ∧ t.rtc.kept1 = s.rtc.kept1 ∧ t.rtc.bak = s.rtc.bak)
    ∧ (s.up.stage = .off → s.pwr.st = .dormant → s.rtc.armed = true → s.frameMatches rises f = true → s.tree.vinValid = false →
      exec (.wakeFrame rises f) s = .next { s with rtc.causes := s.rtc.causes ||| 0x41 })
    ∧ (s.up.stage = .off → s.frameMatches rises f = false → exec (.wakeFrame rises f) s = .next s)
    ∧ (s.linkLive = true → ∃ t, exec (.wakeFrame rises f) s = .next t ∧ s.heardOnly t
        ∧ t.link.errFrame = sat16 s.link.errFrame 1 ∧ t.link.letters = s.link.letters ∧ t.link.reply = none)

/-! ### Keys, the almanac, the pigeonholes -/

/-- A write of `SEC_KEY` arms the group that its KEY names, or none; the test key also enters factory test mode, and is a key
only in Fallow (R400, R401). -/
def Obligations.SecKeyArms : Prop :=
  ∀ (s : State) (v : Via) (d : Word), s.takes (viaWrite v 0x210 d) = true → s.quiet = true →
    let k := d.toNat % 65536
    let g := if k = 0x5EED then some Group.almanac else if k = 0xF1E1 then some Group.trims
      else if k = 0x5EA1 then some Group.otp else if k = 0x7E57 ∧ s.lcNow = 0 then some Group.test else none
    ∃ t, exec (.secKey v d) s = .next t ∧ s.heardOnly t ∧ s.letterCounted t
      ∧ t.link.reply = s.replyTo (viaWrite v 0x210 d) 0 []
      ∧ t.acc = { s.acc with armed := g, testMode := s.acc.testMode || g == some Group.test
                             rsvdDiff := t.acc.rsvdDiff, testCtl := t.acc.testCtl }
      ∧ (s.fullDecode = false → t.acc.rsvdDiff = s.acc.rsvdDiff ∧ t.acc.testCtl = s.acc.testCtl)

/-- The operations of `ALM_CTL`, by the letter and the reply 1.000 ms after it: a write that fails a check of R183 is refused
with its code and does nothing; OPEN stages, CLOSE sends to validation, COMMIT drains, with the counter's programming where
ALM_ROLLBACK asks for it, and ABORT ends a load (R182 to R185, R187, R401, R403).
In part the model's reading: log 117. -/
def Obligations.AlmOperations : Prop :=
  ∀ (s : State) (v : Via) (op : Fin 4),
    let c := match op with
      | 0 => Instr.almAbort v | 1 => Instr.almOpen v | 2 => Instr.almClose v | 3 => Instr.almCommit v
    let l := viaWrite v 0x700 (wd op.val)
    s.takes l = true → s.quiet = true →
    let w : State := { s with now := s.now + 201327 }
    ∃ u, s.repliesAs c u ∧ (s.acc.armed = some Group.almanac → u.acc.armed = none) ∧
      match s.almWhy (s.acc.armed == some Group.almanac) op.val with
      | some k => s.servedOnly u ∧ u.now = w.now ∧ u.acc.refusals = sat16 s.acc.refusals 1 ∧ u.acc.why = k
          ∧ u.link.reply = w.replyTo l 0x30 []
      | none => u.now = w.now ∧ u.link.reply = w.replyTo l 0 [] ∧ u.acc.refusals = s.acc.refusals ∧
          match op with
          | 0 => ({ s with alm := { s.alm with lastOp := 0, load := .idle, staged := #[], stagedPages := [], check := none
                                               ctrBusy := false, copyAt := none
                                               wordsDue := s.alm.wordsDue || s.alm.copyAt.isSome }
                           otp.commitTo := none } : State).servedOnly u
          | 1 => let p := u.alm.stagedPages
              p.length = 421 ∧ p.Nodup ∧ (∀ x ∈ p, x < 4032 ∧ x ∉ s.pagesUsed)
              ∧ ({ s with free := s.free + 1
                          alm := { s.alm with lastOp := 1, load := .staging, staged := #[], stagedBytes := 0, stagedPages := p
                                              check := none, drainFrames := 0 } } : State).servedOnly u
          | 2 => ({ s with alm := { s.alm with lastOp := 2, load := .checking, since := w.now } } : State).servedOnly u
          | 3 =>
              let a := { s.alm with lastOp := 3, load := .draining, since := w.now, drainFrames := 0, ctrBusy := u.alm.ctrBusy }
              let b := u.alm.ctrBusy
              let o := u.otp
              ({ s with free := u.free, otp := o, alm := a } : State).servedOnly u
              ∧ (if s.counter ctrAlmanac < s.stagedRollback then
                  b = true ∧ o.commitTo = some (s.counter ctrAlmanac, s.stagedRollback) ∧ o.words = s.otp.words ∧ o.thermo = s.otp.thermo
                    ∧ (s.otp.op = none → s.otp.openings = 0 → o.op = some (.commit (s.counter ctrAlmanac) s.stagedRollback))
                else b = s.alm.ctrBusy ∧ o = s.otp ∧ u.free = s.free)

/-- Validation ends with the result of R181; at D, with nothing holding it back, the timing words take effect, the copy begins,
no hidden unit stays PENDING and no deferral list holds a cell; a row time that the drills in service cannot meet is a
DRILL_SHORTFALL; a recheck pass is counted, and the second in a row that
differs raises ALM_CRC with HOLD; the copy's end leaves the container in the almanac RAM, or, where its CRC did not match, the ROM
almanac, whose timing words wait for a boundary, with ALM_CRC raised, and starts resume (R103, R138, R181, R182, R185, R186, R189,
R248, R254).
In part the model's reading: logs 48 and 95. -/
def Obligations.AlmEvents : Prop :=
  (∀ s : State, s.alm.load = .checking →
    exec .almValidationDone s = .next (if s.clock.pllLock then { s with
      alm.load := .staged, alm.check := some (validate s.alm.staged (s.bin 3) (s.bin 5)) } else s))
  ∧ (∀ s : State, s.drainDone = true → (s.shortFor s.aNow = true ∨ s.atDrain.shortFor s.aNow = false) →
      ∃ t, exec .almDrainEnd s = .next t
      ∧ t.panel.words = timingOf (some s.alm.staged) s.frameRows ∧ t.alm.copyAt = some s.now ∧ t.now = s.now
      ∧ (∀ x ∈ t.pgh.tab, 2048 ≤ x.1 → x.2.state ≠ .pending)
      ∧ (∀ x ∈ s.pgh.tab, ¬ (2048 ≤ x.1 ∧ x.2.state = .pending) → x.2 ≠ Pgh.free → x ∈ t.pgh.tab)
      ∧ (∀ i, i < 14 → (vget t.drills.drill i).defer = [])
      ∧ t.alm.image = s.alm.image ∧ t.alm.load = .draining ∧ t.mem = s.mem ∧ t.otp = s.otp ∧ t.link = s.link ∧ t.flt = s.flt
      ∧ t.rw = s.rw ∧ t.therm = s.therm ∧ t.pwr = s.pwr ∧ t.seq = s.seq ∧ t.tree = s.tree ∧ t.rtc = s.rtc)
  ∧ (∀ s : State, s.drainDone = true → s.recording = true → s.shortFor s.aNow = false → s.atDrain.shortFor s.aNow = true →
      s.staysUp →
      ∃ t, exec .almDrainEnd s = .next t ∧ t.sticky fltShortfall = true)
  ∧ (∀ s : State, s.almReadable = true →
      let w : State := { s with now := max s.now (s.alm.passAt + 860160)
                                alm := { s.alm with passes := (s.alm.passes + 1) % 65536
                                                    passAt := max s.now (s.alm.passAt + 860160) } }
      exec (.almRecheckPass true) s = .next { w with alm.suspect := false }
      ∧ (s.alm.suspect = false → exec (.almRecheckPass false) s = .next { w with alm.suspect := true })
      ∧ (s.alm.suspect = true → s.flt.react = none → s.flt.dark = false → s.seq.hedge = false → s.resetOrder = false →
          s.rtc.deliveryAt = none → s.pwr.st ≠ .enterDormant → s.flt.history.length < 2 →
          ∃ t, exec (.almRecheckPass false) s = .next t ∧ t.sticky fltAlmCrc = true ∧ t.alm.suspect = false
            ∧ ∃ r, t.flt.react = some r ∧ r.level = .hold ∧ r.fault = fltAlmCrc ∧ r.repair = true))
  ∧ (∀ (s : State) (ok : Bool), s.clock.pllLock = false → exec (.almCopyDone ok) s = .next s)
  ∧ (∀ (s : State) (at_ : Nat), s.alm.copyAt = some at_ → s.clock.pllLock = true →
    let n := max s.now (at_ + 3361)
    let a : AlmState := { s.alm with
      thermalDue := true, load := .idle, staged := #[], stagedPages := [], check := none, copyAt := none, drainOn := false
      suspect := false, passAt := n }
    exec (.almCopyDone true) s = .next { s with now := n, alm := { a with image := some s.alm.staged } }
    ∧ ∃ t, exec (.almCopyDone false) s = .next t ∧ t.now = n ∧ t.alm = { a with image := none, wordsDue := true }
        ∧ t.panel = s.panel ∧ (s.recording = true → t.sticky fltAlmCrc = true)
        ∧ t.otp = s.otp ∧ t.mem = s.mem ∧ t.pgh = s.pgh ∧ t.scan = s.scan ∧ t.drills = s.drills ∧ t.rw = s.rw ∧ t.therm = s.therm
        ∧ t.tree = s.tree ∧ t.seq = s.seq ∧ s.pwrKept t ∧ t.rtc = s.rtc ∧ t.flt.react = s.flt.react ∧ t.flt.dark = s.flt.dark)

/-- Cancel, release and HIST_CLR through `PGH_CTL`: a PENDING pigeonhole is DONE with CANCELLED and its bit of `PGH_DONE`; a
started one waits for its pixels under a cancel; a released one is FREE, unless a referrer still needs what it keeps; the
broadcast and group aliases act on every host pigeonhole they name; HIST_CLR clears the histogram through any of them
(R193, R200, R204, R218); pigeonhole 0 is left alone (R279). -/
def Obligations.PghActions : Prop :=
  ∀ (s : State) (v : Via) (sc : PghScope) (a : Fin 3),
    let c := match a with | 0 => Instr.pghCancel v sc | 1 => Instr.pghRelease v sc | 2 => Instr.histClr v sc
    let l := viaWrite v (match sc with | .indexed => 0x805 | .broadcast => 0x806 | .group => 0x807) (wd (a.val + 1))
    s.takes l = true → s.quiet = true →
    ∃ t, exec c s = .next t ∧ let q := t.pgh
      ({ s with pgh := q } : State).heardOnly t ∧ s.letterCounted t
      ∧ t.link.reply = s.replyTo l 0 [] ∧ q.ticket = s.pgh.ticket ∧ q.cfg = s.pgh.cfg ∧ q.index = s.pgh.index
      ∧ (if a = 2 then q = { s.pgh with lat := Vector.replicate 8 0 }
        else
          let one (w : State) (n : Nat) : State :=
            if n = 0 then w else if a = 0 then w.cancelPgh n else if 2048 ≤ n then w else w.releasePgh n
          match sc with
          | .indexed => q = (one s s.pghSelected).pgh
          | .broadcast => q = (((List.range 2048).drop 1).foldl one s).pgh
          | .group => q = ((((List.range 2048).drop 1).filter
              (fun n => s.pgh.cfg.getLsbD (s.pgh_ n).prio.val)).foldl one s).pgh)

/-- What a cancel and a release do to one pigeonhole.
In part the model's reading: logs 84 and 118. -/
def Obligations.PghActionOnOne : Prop :=
  ∀ (s : State) (v : Via) (n : Nat),
    n = s.pghSelected → 1 ≤ n → n < 2048 → s.quiet = true →
    let p := s.pgh_ n
    (s.takes (viaWrite v 0x805 1) = true →
      ∃ t, exec (.pghCancel v .indexed) s = .next t
        ∧ (∀ x ∈ s.pgh.tab, x.1 ≠ n → x.2.freeWaits = false → x.2 ≠ Pgh.free → x ∈ t.pgh.tab)
        ∧ (p.state = .pending → (t.pgh_ n).state = .done ∧ (t.pgh_ n).cancelled = true
            ∧ bit (vget t.pgh.done (n / 32)) (n % 32) = true
            ∧ ((p.kept.isSome && s.referred n) = false → p.freeWaits = false → (t.pgh_ n).stored = none ∧ (t.pgh_ n).own = none))
        ∧ (p.going = true → p.cancelling = false → (t.pgh_ n).state = .running ∧ (t.pgh_ n).cancelling = true
            ∧ (t.pgh_ n).cancelled = p.cancelled ∧ t.pgh.done = s.pgh.done
            ∧ (s.freeWindow.isSome = true → ∃ i, i < 32 ∧ vget t.pgh.sieve i
                = some { pgh := n, cancel := true, rect := p.startedRect, ticket := p.ticket })
            ∧ (s.freeWindow = none → (t.pgh_ n).cancelWaits = true))
        ∧ (p.busy = false → s.heardOnly t))
    ∧ (s.takes (viaWrite v 0x805 2) = true →
      ∃ t, exec (.pghRelease v .indexed) s = .next t
        ∧ (∀ x ∈ s.pgh.tab, x.1 ≠ n → x ∈ t.pgh.tab)
        ∧ (if p.state = .done ∧ ¬ (p.kept.isSome ∧ s.referred n) then
            (t.pgh_ n).state = .free ∧ (t.pgh_ n).stored = none ∧ (t.pgh_ n).own = none ∧ t.pgh.done = s.pgh.done
              ∧ t.pgh.sieve = s.pgh.sieve
          else s.heardOnly t))

/-! ### Scan and drills -/

/-- A request for a self-test: a spare enters TESTING at once, its local store cleared, an ACTIVE drill with a spare ready waits for
its boundary, and the others are answered NOT_ELIGIBLE, BUSY or NO_SPARE (R147, R155, R157).
In part the model's reading: log 108. -/
def Obligations.TestRequested : Prop :=
  ∀ (s : State) (v : Via) (op : AliasOp) (d : Word),
    let l := viaWrite v (4096 * opCode op + 0x404) d
    s.takes l = true → s.quiet = true →
    let e := (aliasOp (opCode op) (wd s.drills.testDrill) d).toNat % 16
    let role := (vget s.drills.drill (e - 2)).role
    let w : State := { s with drills.testDrill := e }
    ∃ t, exec (.drlTest v op d) s = .next t ∧ s.letterCounted t ∧ t.link.reply = s.replyTo l 0 [] ∧
      if e < 2 ∨ s.inHold = true ∨ role ≠ .spare ∧ role ≠ .active then ({ w with drills.result := .notEligible } : State).heardOnly t
      else if s.testBusy = true then ({ w with drills.result := .busy } : State).heardOnly t
      else if role = .spare then
        ({ w with drills.result := .running, drills.asked := some e, drills.running := s.drills.running ++ [(e, s.now)]
                  drills.drill := vmod s.drills.drill (e - 2) (fun x => { x with role := .testing })
                  up.stores := t.up.stores } : State).heardOnly t
          ∧ (vget t.up.stores e).loaded = false ∧ ∀ k, k < 16 → k ≠ e → vget t.up.stores k = vget s.up.stores k
      else if s.spare.isSome then
        ({ w with drills.result := .running, drills.asked := some e, drills.swap := some e } : State).heardOnly t
      else ({ w with drills.result := .noSpare } : State).heardOnly t

/-- ROTATE's minute asks for the next drill that would be accepted; self-tests that end make spares of drills that pass and take the
others out of service, the outcome of the one asked for in `DRL_TEST`; the tests of start-up give the lowest-numbered drills that
passed their slots (R131, R147, R155, R156). -/
def Obligations.SelfTests : Prop :=
  (∀ s : State, bit s.drills.ctl 0 = true → s.clocked = true →
    let n := max s.now (s.drills.rotateAt + 60 * 201326592)
    let w : State := { s with now := n, drills.rotateAt := n }
    (w.rotateNext = none → exec .drillRotate s = .next w)
    ∧ ∀ e, w.rotateNext = some e → w.testable e = true ∧ ∃ t, exec .drillRotate s = .next t
        ∧ t.drills.rotateLast = e ∧ t.drills.testDrill = e ∧ t.drills.result = .running ∧ t.testBusy = true ∧ t.mem = s.mem)
  ∧ (∀ (s : State) (which passed : BitVec 16), s.clocked = true → s.flt.injecting = [] → s.drills.startTest = false →
    ∃ t, exec (.drillSelfTestDone which passed) s = .next t
    ∧ (∀ i b, i < 14 → (i + 2, b) ∈ s.drills.running → which.getLsbD (i + 2) = true →
        (vget t.drills.drill i).role = (if passed.getLsbD (i + 2) then DrillRole.spare else .failed)
          ∧ (i + 2, b) ∉ t.drills.running)
    ∧ (∀ i, i < 14 → (∀ b, (i + 2, b) ∉ s.drills.running) ∨ which.getLsbD (i + 2) = false →
        vget t.drills.drill i = vget s.drills.drill i)
    ∧ (∀ e b, 2 ≤ e → e < 16 → s.drills.asked = some e → (e, b) ∈ s.drills.running → which.getLsbD e = true →
        t.drills.result = (if passed.getLsbD e then TestResult.pass else .fail))
    ∧ (∀ x ∈ s.drills.running, which.getLsbD x.1 = false → x ∈ t.drills.running)
    ∧ (s.recording = true → (∃ x ∈ s.drills.running, which.getLsbD x.1 = true ∧ passed.getLsbD x.1 = false) →
        t.sticky fltDrillTest = true))
  ∧ (∀ (s : State) (which passed : BitVec 16), s.clocked = true → s.flt.injecting = [] → s.drills.startTest = true →
    let ok := (List.range 14).filter (fun i => passed.getLsbD (i + 2))
    let a := min (14 - scanSpares (s.bin 9)) ok.length
    s.shortFor a = false → ∃ t, exec (.drillSelfTestDone which passed) s = .next t
      ∧ t.drills.startTest = false ∧ t.drills.running = [] ∧ t.drills.aStart = a
      ∧ ∀ i, i < 14 → (passed.getLsbD (i + 2) = false → (vget t.drills.drill i).role = .failed)
          ∧ (passed.getLsbD (i + 2) = true →
              if ok.idxOf i < a then (vget t.drills.drill i).role = .active ∧ (vget t.drills.drill i).slot = ok.idxOf i
              else (vget t.drills.drill i).role = .spare))

/-- A frame boundary in RUN or slow scan begins the next frame: SCAN_FRAME, the row slots and the reports begin anew; VCOM takes its
trimmed codes, raised rails theirs, the trims that landed before this cycle, and WBUD counts from here; waiting timing words come
into force; no pixel and no ledger cell changes (R28, R103, R119, R129, R130, R138, R234, R309, R327).
In part the model's reading: log 115. -/
def Obligations.FrameBegins : Prop :=
  ∀ (s : State) (at_ : Nat), s.steady = true → s.drillsKeep = true → s.spanKept = true → s.dieAtLeast 2000 = false →
    (s.frameOver = true ∧ at_ = s.slotTime s.frameRows ∨ s.scan.scanning = false ∧ s.scan.startDue = some at_) →
    ∃ t, exec .frameBoundary s = .next t
      ∧ t.now = max s.now at_ ∧ t.scan.scanning = true ∧ t.scan.boundaryAt = t.now ∧ t.scan.slot = 0 ∧ t.scan.startSetDone = false
      ∧ t.scan.startDue = none ∧ t.scan.missed = [] ∧ t.scan.lost = [] ∧ t.scan.completed = 0
      ∧ t.scan.frame = (if s.scan.fresh then s.scan.frame else s.scan.frame + 1)
      ∧ t.scan.rowT = (if t.scan.slow ∧ t.panel.words.slowRowT ≠ 0 then t.panel.words.slowRowT else t.panel.words.rowT)
      ∧ t.panel.words = (if s.alm.wordsDue = true then timingOf s.alm.image s.frameRows else s.panel.words)
      ∧ (∀ n, n < 8 → (vget t.panel.vcom n).code
          = if (vget s.panel.vcom n).trimAt < t.now then (vget s.panel.vcom n).trim else (vget s.panel.vcom n).trimWas)
      ∧ (∀ k, k < 8 → vget t.tree.trimNow k = if s.enabled k = false then vget s.tree.trimNow k
          else if vget s.tree.trimAt k < t.now then vget s.tree.trim k else vget s.tree.trimWas k)
      ∧ t.therm.wbudNow = s.therm.ctl.toNat % 65536
      ∧ t.mem.pixels = s.mem.pixels ∧ t.mem.ledger = s.mem.ledger ∧ t.otp = s.otp ∧ s.accKept t ∧ t.up = { s.up with stores := t.up.stores }
      ∧ t.rtc = { s.rtc with quietAt := t.rtc.quietAt }

/-- A start set with one eligible pigeonhole that fits: a restate's idle pixels take its states, an update's start, and every
other pixel keeps its word (R83, R201, R205, R212). -/
def Obligations.StartSetStarts : Prop :=
  ∀ (s : State) (i : StartInput) (n : Nat) (p : Pgh), s.memoryOk = true → s.scan.scanning = true → s.scan.startSetDone = false →
    s.scan.slot ≤ 32 → (s.flipBits i.flips).lostGroups (fun _ => true) = [] → s.pgh.tab = [(n, p)] → p.state = .pending →
    p.split = false → p.units = [] →
    let e := s.openEnergy (s.frameBudget s.workingBudget)
    s.eligibleHost e n p = true → 2 ≤ e → (s.forecast n p p.rect : Int) ≤ e →
    ∃ t, exec (.startSet i) s = .next t
      ∧ t.now = max s.now (s.scan.boundaryAt + 10240) ∧ t.scan.startSetDone = true ∧ t.scan.frame = s.scan.frame
      ∧ (if p.restate then (t.pgh_ n).state = .pending ∧ (t.pgh_ n).doneDue = true else (t.pgh_ n).state = .running)
      ∧ ∀ row col, col < 3072 →
          let w := sget unknownWord (s.flipBits i.flips).mem.pixels (pixelKey row col)
          sget unknownWord t.mem.pixels (pixelKey row col)
            = if p.rect.has row col ∧ s.inWindow row col = false ∧ (pixelOf w).active = false then
                match p.target row col with
                | none => w
                | some x => pixelWord (if p.restate then pixelRestate x (pixelOf w) else pixelStart x p.mode.val (pixelOf w))
              else w

/-- A row slot. In blanking code 0 is driven and no memory changes; a row whose codes are missing is reported missed, with its
sources floating; a delivered row takes each ACTIVE pixel one step on, gives a lost group the unknown word, leaves the groups that
its bank's guard refuses and every other pixel alone, of a group in which bits flip later this says nothing; a failure of other
bridge traffic than the row's codes misses no row, and any failure raises its fault (R19, R20, R83, R93, R94, R106, R135, R136,
R140, R141, R146, R164, R189).
In part the model's reading: logs 51, 99 and 109. -/
def Obligations.RowSlotRuns : Prop :=
  ∀ (s : State) (i : RowInput), s.scan.scanning = true → s.scan.slot < s.frameRows → s.flt.injecting = [] →
    let row := s.scan.slot - 32
    let stored := (s.flipBits i.flips).mem.pixels
    let misses := s.rowMisses i
    let stale := if s.scan.slot < 32 ∨ misses = true then s.mem.stale else sat32 s.mem.stale (s.refusedGroups row).length
    (i.bridgeFail = none →
      ∃ t, exec (.rowLatch i) s = .next t ∧ t.now = max s.now (s.slotTime s.scan.slot) ∧ t.scan.slot = s.scan.slot + 1
        ∧ t.scan.scanning = true ∧ t.mem.brgPerr = sat32 s.mem.brgPerr i.repeats
        ∧ t.mem.stale = sat32 stale (s.dropped i.late)
        ∧ (s.scan.slot < 32 → t.mem.pixels = stored ∧ t.mem.ledger = s.mem.ledger ∧ t.scan.missed = s.scan.missed
            ∧ t.panel.srcCodes = [] ∧ t.panel.srcFloat = false)
        ∧ (32 ≤ s.scan.slot → misses = true →
            (s.mem.ageWait = none → t.mem.pixels = stored) ∧ t.mem.ledger = s.mem.ledger
              ∧ t.scan.missed = s.scan.missed ++ [row] ∧ t.panel.srcFloat = true)
        ∧ (32 ≤ s.scan.slot → misses = false → t.scan.missed = s.scan.missed ∧ t.panel.srcFloat = false)
        ∧ (32 ≤ s.scan.slot → misses = false → s.memoryOk = true → s.mem.ageWait = none → s.rtc.deliveryAt = none →
            let lost := (s.flipBits i.flips).lostGroups (fun g => g / 768 == row)
            ∀ r col, col < 3072 → (∀ f ∈ i.lateFlips, f.group ≠ groupOf r col) →
              let w := sget unknownWord stored (pixelKey r col)
              let x := pixelOf w
              sget unknownWord t.mem.pixels (pixelKey r col)
                = if r = row ∧ col < s.cols ∧ col / 4 ∉ s.refusedGroups row then
                    if groupOf r col ∈ lost then unknownWord
                    else if x.active = false then w
                    else if s.scan.cancelAll = true then pixelWord (pixelCancel x)
                    else pixelWord (s.pixelWrite r col x (s.pixelStep r col x))
                  else w))
    ∧ (∀ b, i.bridgeFail = some b → s.staysUp →
      ∃ t, exec (.rowLatch i) s = .next t ∧ t.now = max s.now (s.slotTime s.scan.slot) ∧ t.scan.slot = s.scan.slot + 1
        ∧ t.mem.brgPerr = sat32 s.mem.brgPerr i.repeats ∧ (s.recording = true → t.sticky fltBridge = true)
        ∧ t.scan.missed = (if 32 ≤ s.scan.slot ∧ misses = true then s.scan.missed ++ [row] else s.scan.missed)
        ∧ (32 ≤ s.scan.slot → b = .codes → misses = true))

/-- An aging tick while E0 is clocked: it is counted, and unless the directive, HOLD or the lack of drills holds it, every idle
pixel in use whose drill begins the pass ages by R85, by R87 at the first pass after HOLD; ACTIVE pixels, uncorrectable groups and
the rows that the scan has locked keep their words, and a locked row is visited when its latch releases it (R84 to R87, R92, R150,
R154, R518).
In part the model's reading: logs 99 and 112. -/
def Obligations.AgingPass : Prop :=
  (∀ (s : State) (flips : List BitFlip) (at_ : Nat), s.clocked = true → s.nextTickAt = some at_ →
    ∃ t, exec (.agingTick flips) s = .next t ∧ t.now = max s.now at_ ∧ t.mem.tickNum = s.mem.tickNum + 1
      ∧ t.mem.ledger = s.mem.ledger
      ∧ (if s.pgh.deferAge = true ∨ s.inHold = true ∨ s.aNow = 0 then
          t.mem.pixels = (s.flipBits flips).mem.pixels ∧ t.mem.holdAge = s.mem.holdAge ∧ t.mem.ageWait = s.mem.ageWait
        else
          let u : State := { s with now := max s.now at_ }
          let lost := (u.flipBits flips).lostGroups (fun g => u.passStarts (g / 768) && !u.rowLocked (g / 768))
          t.mem.holdAge = none
          ∧ t.mem.ageWait = some { rows := (List.range s.rows).filter (fun r => u.rowLocked r && u.passStarts r)
                                   tick := s.mem.tickNum, hold := s.mem.holdAge }
          ∧ (s.memoryOk = true → ∀ k,
            let w := sget unknownWord (u.flipBits flips).mem.pixels k
            sget unknownWord t.mem.pixels k
              = if k / 3072 < s.rows ∧ k % 3072 < s.cols ∧ (pixelOf w).active = false ∧ u.passStarts (k / 3072) = true
                    ∧ u.rowLocked (k / 3072) = false ∧ groupOf (k / 3072) (k % 3072) ∉ lost then
                  pixelWord (match s.mem.holdAge with
                    | some h => { pixelOf w with age := max (pixelOf w).age h.val, step := 0 }
                    | none => pixelAge s.mem.tickNum (pixelOf w))
                else w)))
  ∧ (∀ (s : State) (i : RowInput) (a : AgeVisit), s.scan.scanning = true → 32 ≤ s.scan.slot → s.scan.slot < s.frameRows →
      i.bridgeFail = none → s.flt.injecting = [] → s.rowMisses i = true → s.mem.ageWait = some a → s.scan.slot - 32 ∈ a.rows →
      s.memoryOk = true →
      let row := s.scan.slot - 32
      row < s.rows → ((s.flipBits i.flips).lostGroups (fun g => g / 768 == row) = []) →
      ∃ t, exec (.rowLatch i) s = .next t ∧ t.mem.ageWait = some { a with rows := a.rows.filter (fun r => !(r == row)) } ∧ ∀ k,
        let w := sget unknownWord (s.flipBits i.flips).mem.pixels k
        sget unknownWord t.mem.pixels k
          = if k / 3072 = row ∧ k % 3072 < s.cols then pixelWord (a.apply (pixelOf w)) else w)

/-! ### Panel outputs -/

/-- The field trims of a rail and of VCOM channels, by the letter and the reply: refused without the key, clamped to their
windows with it, and taken by the next boundary of a later cycle; nothing else changes
(R76, R119, R309, R327, R396, R397, R401, R403). -/
def Obligations.TrimsTaken : Prop :=
  ∀ (s : State) (v : Via) (op : AliasOp) (d : Word),
    let w : State := { s with now := s.now + 201327 }
    s.quiet = true →
    (∀ k : Fin 8,
      let l := viaWrite v (4096 * opCode op + (0xD01 + k.val)) d
      s.takes l = true → ∃ u, s.repliesAs (.railTrim v op k d) u ∧
        if s.acc.armed = some Group.trims then
          ({ s with tree.trim := vset s.tree.trim k.val (clampI (-30) 30
                      (sgn 7 (aliasOp (opCode op) (wd (twos 7 (vget s.tree.trim k.val))) d).toNat))
                    tree.trimAt := vset s.tree.trimAt k.val w.now
                    tree.trimWas := vset s.tree.trimWas k.val (if vget s.tree.trimAt k.val < w.now then vget s.tree.trim k.val
                      else vget s.tree.trimWas k.val) } : State).servedOnly u
            ∧ u.now = w.now ∧ u.acc.armed = none ∧ u.link.reply = w.replyTo l 0 []
        else s.servedOnly u ∧ u.acc.why = 1 ∧ u.acc.refusals = sat16 s.acc.refusals 1 ∧ u.link.reply = w.replyTo l 0x30 [])
    ∧ (∀ sel : Sel 8,
      let l := viaWrite v (4096 * opCode op + selAddr 0x308 0x310 0x311 sel) d
      s.takes l = true → ∃ u, s.repliesAs (.vcomTrim v op sel d) u ∧
        if s.acc.armed = some Group.trims then
          (({ s with panel.vcom := u.panel.vcom } : State).servedOnly u ∧ ∀ n, n < 8 → vget u.panel.vcom n =
              if selTakes s.panel.vcomGroup.toNat sel n then
                { vget s.panel.vcom n with
                  trim := s.vcomClamp ((aliasOp (opCode op) (wd (vget s.panel.vcom n).trim) d).toNat % 1024)
                  trimAt := w.now
                  trimWas := if (vget s.panel.vcom n).trimAt < w.now then (vget s.panel.vcom n).trim else (vget s.panel.vcom n).trimWas }
              else vget s.panel.vcom n)
            ∧ u.now = w.now ∧ u.acc.armed = none ∧ u.link.reply = w.replyTo l 0 []
        else s.servedOnly u ∧ u.acc.why = 1 ∧ u.acc.refusals = sat16 s.acc.refusals 1 ∧ u.link.reply = w.replyTo l 0x30 [])

/-- A reading of a headland loop: the mean of the four conversions and its class, suspect outside good; the second reading in one
class raises the class's fault; a reading with GX4 not at VGL is discarded (R123 to R125).
In part the model's reading: log 116. -/
def Obligations.HeadlandRead : Prop :=
  ∀ (s : State) (codes : Vector (BitVec 12) 4) (n : Fin 8), s.panel.hlNow = some n →
    let at_ := max s.now s.headlandTime
    exec (.headlandDone codes false) s = .next { s with now := at_, panel.hlNow := none }
    ∧ (let r := ((vget codes 0).toNat + (vget codes 1).toNat + (vget codes 2).toNat + (vget codes 3).toNat) / 4
      let c := s.loopClass n r
      ∃ t, exec (.headlandDone codes true) s = .next t ∧ t.now = at_
        ∧ t.panel = { s.panel with
            hlNow := none, headland := vset s.panel.headland n.val { ohm := r, cls := c, suspect := decide (c ≠ .good) } }
        ∧ (c ≠ .good → c = (vget s.panel.headland n.val).cls → s.recording = true →
            t.sticky (if c = .low then fltHlShort else fltHlOpen) = true)
        ∧ (c = .good ∨ c ≠ (vget s.panel.headland n.val).cls → t.flt = s.flt)
        ∧ t.mem = s.mem ∧ t.tree = s.tree ∧ t.pwr = s.pwr)

/-- The end of a VCOM ramp. Of a rail-up: the rails are up, `SEQ_TIME.UP` is kept, and a scan that may start begins. Of a
rail-down with a rail left: the channels stand at 0 V and the next drop begins; of the step alone that a write of the rail-enable
word asked for: no rail follows (the model's choice, log 103). Otherwise one channel's own ramp ends
(R47, R120, R330, R331). -/
def Obligations.VcomRampsEnd : Prop :=
  (∀ s : State, s.seq.railStep = 9 → s.seq.rising = true →
    let at_ := max s.now (s.seq.railAt + 201327)
    ∃ t, exec .vcomRampEnd s = .next t ∧ t.now = at_ ∧ t.seq.railStep = 0
      ∧ t.seq.timeUp = min 65535 ((at_ - s.seq.beganAt) * 100000 / 201326592)
      ∧ (s.scanMayStart = true → t.scan.startDue = some at_) ∧ t.tree = s.tree ∧ t.mem = s.mem ∧ t.pwr = s.pwr
      ∧ ∀ n, n < 8 → ∀ e, (vget s.panel.vcom n).phase = .rampUp e → e ≤ at_ → (vget t.panel.vcom n).phase = .atTrim)
  ∧ (∀ s : State, s.seq.railStep = 1 → s.seq.rising = false → s.seq.lone = false → (∃ k, k < 8 ∧ s.enabled k = true) →
    ∃ t, exec .vcomRampEnd s = .next t ∧ t.now = max s.now (s.seq.railAt + s.vcomDownLen)
      ∧ (∀ n, n < 8 → (vget t.panel.vcom n).phase = .zero ∨ (vget t.panel.vcom n).phase = .off)
      ∧ t.seq.vcomBlankTo = t.now + 201327 ∧ t.seq.rising = false ∧ 2 ≤ t.seq.railStep ∧ t.seq.railStep ≤ 9
      ∧ (s.seq.hedge = true → t.seq.hedgeStep = 3) ∧ t.mem = s.mem ∧ t.link = s.link ∧ t.pwr = s.pwr)
  ∧ (∀ s : State, s.seq.railStep = 1 → s.seq.rising = false → s.seq.lone = true → s.anyRail = true →
    ∃ t, exec .vcomRampEnd s = .next t ∧ t.now = max s.now (s.seq.railAt + s.vcomDownLen) ∧ t.seq.railStep = 0
      ∧ t.seq.lone = false ∧ (∀ n, n < 8 → (vget t.panel.vcom n).phase = .zero ∨ (vget t.panel.vcom n).phase = .off)
      ∧ (∀ k, k < 8 → t.enabled k = s.enabled k) ∧ t.tree = { s.tree with railsUp := false }
      ∧ t.mem = s.mem ∧ t.link = s.link ∧ t.pwr = s.pwr)
  ∧ (∀ (s : State) (e : Nat), ¬ (s.seq.railStep = 9 ∧ s.seq.rising = true) → ¬ (s.seq.railStep = 1 ∧ s.seq.rising = false) →
    s.vcomRampEndAt = some e → ∃ t, exec .vcomRampEnd s = .next t
      ∧ t = { s with now := max s.now e, panel.vcom := t.panel.vcom }
      ∧ ∀ n, n < 8 → vget t.panel.vcom n = match (vget s.panel.vcom n).phase with
        | .rampUp x => if x ≤ max s.now e then { vget s.panel.vcom n with phase := .atTrim } else vget s.panel.vcom n
        | .rampDown x => if x ≤ max s.now e then { vget s.panel.vcom n with phase := .off } else vget s.panel.vcom n
        | _ => vget s.panel.vcom n)

/-- An overload of a gate line or of a VCOM channel: while the rails are up and it is not blanked, the line or channel is
recorded and SAFE's fault raised; otherwise nothing (R116, R122, R340).
In part the model's reading: log 86. -/
def Obligations.OverloadsRecorded : Prop :=
  (∀ (s : State) (line : Fin 16),
    (s.tree.railsUp = true → s.seq.gateBlankTo ≤ s.now → s.recording = true →
      s.staysUp →
      ∃ t, exec (.gateOverload line) s = .next t ∧ t.panel.goaSeen = true ∧ t.panel.goaLine.toNat = line.val ∧ t.now = s.now
        ∧ t.sticky fltGate = true ∧ t.mem.ledger = s.mem.ledger
        ∧ (s.mem.ageWait = none → t.mem.pixels = s.mem.pixels))
    ∧ (s.tree.railsUp = false ∨ s.now < s.seq.gateBlankTo → exec (.gateOverload line) s = .next s))
  ∧ (∀ (s : State) (ch : Fin 8),
    (s.tree.railsUp = true → (vget s.panel.vcom ch.val).phase ≠ .off → s.seq.vcomBlankTo ≤ s.now →
      ¬ (s.seq.railStep = 1 ∧ s.seq.rising = false) → s.recording = true → s.staysUp →
      ∃ t, exec (.vcomOverload ch) s = .next t ∧ (vget t.panel.vcom ch.val).ovl = true ∧ t.now = s.now ∧ t.sticky fltVcom = true
        ∧ t.mem.ledger = s.mem.ledger
        ∧ (s.mem.ageWait = none → t.mem.pixels = s.mem.pixels))
    ∧ (s.tree.railsUp = false ∨ (vget s.panel.vcom ch.val).phase = .off ∨ s.now < s.seq.vcomBlankTo →
      exec (.vcomOverload ch) s = .next s))

/-! ### Panel outputs and auxiliary supplies by register -/

/-- Enables that land: `VCOM_EN` keeps its eight bits; EN of an auxiliary rail, set, only for a rail that the plan raises, ramps its
reference up over 2.0 ms, out of a ramp-down too, and cleared ramps it down over 2.0 ms and lets a latched rail go, a 1 clearing OC;
EN of a load switch, set, needs the plan, and LSWn_N follows EN and the plan's hold; a bit that the hardware sets in the landing's
cycle stays set (R13); in a takeover EN is stored and rails and switches stay as they are (R13, R46, R76, R120, R316 to R318, R340,
R394, R396, R397, R409).
In part the model's reading: logs 8 and 22. -/
def Obligations.EnablesLand : Prop :=
  (∀ (s : State) (v : Via) (op : AliasOp) (d : Word), s.quiet = true →
    s.takes (viaWrite v (4096 * opCode op + 0x300) d) = true →
    ∃ u, s.landsAs (.vcomEn v op d) 3 u
      ∧ ({ s with panel.vcomEn := aliasOp (opCode op) s.panel.vcomEn d &&& 0xFF#32 } : State).servedOnly u
      ∧ u.now = s.now + 202 ∧ u.acc.posted = [])
  ∧ (∀ (s : State) (v : Via) (op : AliasOp) (sel : Sel 4) (d : Word), s.quiet = true → s.planAwaits = none →
    s.takes (viaWrite v (4096 * opCode op + selAddr 0xD40 0xD44 0xD45 sel) d) = true →
    let n := s.now + 202
    ∃ u, s.landsAs (.auxEn v op sel d) 13 u ∧ ({ s with tree.aux := u.tree.aux } : State).servedOnly u ∧ u.now = n
      ∧ ∀ m, m < 4 →
        let x := vget s.tree.aux m
        let e := bit (aliasOp (opCode op) (wd (bw x.en 0)) d) 0
        let falling := match x.ramp with | .down _ => true | _ => false
        let x1 : Aux :=
          if s.seq.hedge then { x with en := if e && !s.planAux m then x.en else e }
          else if e then
            if s.planAux m ∧ ¬ x.en then
              (if x.raised && !x.latched && (!x.running || falling) then
                { x with en := true, running := true, pg := false, armed := false, ramp := .up (n + 402654) }
              else { x with en := true })
            else x
          else if x.running && !falling then
            { x with en := false, latched := false, pg := false, ramp := .down (n + 402654), blankTo := n + 402654 + 201327 }
          else { x with en := false, latched := false }
        let c := d &&& ~~~(({ s with now := n } : State).hwFresh (0xD40 + m) 1)
        vget u.tree.aux m = if selTakes s.tree.auxGroup.toNat sel m then
            { x1 with oc := x1.oc && !((op == .base || op == .clear) && bit c 5) }
          else x)
  ∧ (∀ (s : State) (v : Via) (op : AliasOp) (sel : Sel 4) (d : Word), s.quiet = true →
    s.takes (viaWrite v (4096 * opCode op + selAddr 0xD48 0xD4C 0xD4D sel) d) = true →
    ∃ u, s.landsAs (.lswEn v op sel d) 13 u ∧ ({ s with tree.lsw := u.tree.lsw } : State).servedOnly u ∧ u.now = s.now + 202
      ∧ ∀ m, m < 4 →
        let x := vget s.tree.lsw m
        let e := bit (aliasOp (opCode op) (wd (bw x.en 0)) d) 0
        vget u.tree.lsw m = if selTakes s.tree.lswGroup.toNat sel m && (!e || s.planLsw m) then
            (if s.seq.hedge then { x with en := e } else { x with en := e, asserted := e && x.raised })
          else x)

/-- A landed `LED_DIM` of a used channel: EN, CUR up to the ceiling, and DIM; the channel is driven, from the next PWM period on,
where it is set on, not latched, and the front light is allowed; an unused channel ignores it. A landed write to `LED_STAT` clears
the latches of the channels written 1, but those set in that very cycle; the channels then follow their settings (R13, R71, R321,
R322, R324, R325, R397).
In part the model's reading: logs 8 and 46. -/
def Obligations.FrontLightLands : Prop :=
  (∀ (s : State) (v : Via) (op : AliasOp) (sel : Sel 8) (d : Word), s.quiet = true →
    s.takes (viaWrite v (4096 * opCode op + selAddr 0xD50 0xD58 0xD59 sel) d) = true →
    ∃ u, s.landsAs (.ledDim v op sel d) 13 u
      ∧ ({ s with tree.led := u.tree.led, tree.scale := u.tree.scale, tree.pclamp := u.tree.pclamp
                  tree.power := u.tree.power } : State).servedOnly u ∧ u.now = s.now + 202
      ∧ ∀ m, m < 8 →
        let x := vget s.tree.led m
        let y := vget u.tree.led m
        if selTakes s.tree.ledGroup.toNat sel m = true ∧ m < ledUsed (s.bin 7) then
          let w := aliasOp (opCode op) (wd (bw x.en 31 + x.cur * 65536 + x.dim)) d &&& 0x807F0FFF#32
          y.en = bit w 31 ∧ y.cur = min (w.toNat / 65536 % 128) (ledCeiling (s.bin 7)) ∧ y.dim = w.toNat % 4096
            ∧ y.short = x.short ∧ y.openL = x.openL
            ∧ y.on = (s.lightsAllowed && y.en && decide (y.cur ≠ 0) && decide (y.dim ≠ 0) && !y.short && !y.openL)
            ∧ y.due = ({ s with now := u.now } : State).nextPwm
            ∧ (u.now < y.due → y.driven u.now = x.driven u.now ∧ y.curNow u.now = x.curNow u.now ∧ y.dimNow u.now = x.dimNow u.now
              ∧ y.soft = if (y.on && x.on) || x.driven u.now then x.soft else if y.on then some (y.due + 402653) else none)
        else y = x)
  ∧ (∀ (s : State) (v : Via) (d : Word), s.quiet = true → s.takes (viaWrite v 0xD5B d) = true →
    ∃ u, s.landsAs (.ledLatchClear v d) 13 u ∧ ({ s with tree.led := u.tree.led } : State).servedOnly u ∧ u.now = s.now + 202
      ∧ ∀ m, m < 8 →
        let x := vget s.tree.led m
        let y := vget u.tree.led m
        let c := d &&& ~~~(({ s with now := u.now } : State).hwFresh 0xD5B 1)
        y.en = x.en ∧ y.cur = x.cur ∧ y.dim = x.dim ∧ y.short = (x.short && !bit c m) ∧ y.openL = (x.openL && !bit c (8 + m))
          ∧ y.on = (s.lightsAllowed && decide (m < ledUsed (s.bin 7)) && y.en && decide (y.cur ≠ 0) && decide (y.dim ≠ 0)
              && !y.short && !y.openL))

/-! ### Thermal control -/

/-- A write of WBUD is clamped to the BUDGET class, and one of FORCE_HOT keeps its bit in every plot it selects; neither changes
anything else until the next boundary (R231, R234, R397). -/
def Obligations.ThermalWrites : Prop :=
  ∀ (s : State) (v : Via) (op : AliasOp) (d : Word), s.quiet = true →
    let b := viaWrite v (4096 * opCode op + 0x900) d
    (s.takes b = true → ∃ t, exec (.wbud v op d) s = .next t ∧ s.letterCounted t ∧ t.link.reply = s.replyTo b 0 []
        ∧ ({ s with therm.ctl := wd (min ((aliasOp (opCode op) s.therm.ctl d).toNat % 65536) s.budgetMw) } : State).heardOnly t)
    ∧ ∀ sel : Sel 64,
      let l := viaWrite v (4096 * opCode op + selAddr 0x9C0 0x910 0x911 sel) d
      s.takes l = true → ∃ t, exec (.forceHot v op sel d) s = .next t ∧ s.letterCounted t ∧ t.link.reply = s.replyTo l 0 []
        ∧ ({ s with therm.plot := t.therm.plot } : State).heardOnly t
        ∧ ∀ m, m < 64 → vget t.therm.plot m =
            if selTakes (s.therm.group0.toNat + s.therm.group1.toNat * 2 ^ 32) sel m then
              { vget s.therm.plot m with cfg := aliasOp (opCode op) (vget s.therm.plot m).cfg d &&& 1#32 }
            else vget s.therm.plot m

/-! ### Calendar, one-time-programmable cells, faults -/

/-- `RTC_CTL`: LOAD sets the calendar from a staged time and date that exist, its weekday from the date and its second from now,
and sets BADSET from one that does not; the summer-time commands join those pending (R425, R426). A second that ends in the crystal
cycle in which LOAD lands is told apart, for its alarms act too (R441). A YEAR above 99 counts as
one that does not exist (the model's reading, log 30), and
a command lands at R394's bound (log 8). -/
def Obligations.CalendarCommands : Prop :=
  ∀ (s : State) (v : Via), s.quiet = true →
    let n := s.now + 18432
    (s.takes (viaWrite v 0xC14 1) = true → ∃ u, s.landsAs (.rtcLoad v) 12 u ∧ u.now = n ∧
      let c : Calendar := { sec := fld s.rtc.stageT 0 6, min := fld s.rtc.stageT 8 6, hour := fld s.rtc.stageT 16 5
                            day := fld s.rtc.stageD 0 5, month := fld s.rtc.stageD 8 4, year := fld s.rtc.stageD 16 7
                            weekday := weekdayOf (fld s.rtc.stageD 16 7) (fld s.rtc.stageD 8 4) (fld s.rtc.stageD 0 5) }
      if c.sec < 60 ∧ c.min < 60 ∧ c.hour < 24 ∧ 1 ≤ c.month ∧ c.month ≤ 12 ∧ 1 ≤ c.day ∧ c.day ≤ monthDays c.year c.month
          ∧ c.year < 100 then
        u.rtc.cal = c ∧ u.rtc.secondAt = n ∧ u.rtc.dst = 0 ∧ u.rtc.dstNew = 0 ∧ u.rtc.dstPending = false
        ∧ (let due := s.rtc.secondAt + secondCycles s.rtc.adj s.rtc.period * cycle
          ¬ (due ≤ n ∧ n < due + cycle) →
          ({ s with rtc.cal := c, rtc.secondAt := n, rtc.dst := 0, rtc.dstNew := 0, rtc.dstPending := false } : State).servedOnly u)
      else ({ s with rtc.badSet := true } : State).servedOnly u)
    ∧ (s.takes (viaWrite v 0xC14 2) = true → ∃ u, s.landsAs (.dstForward v) 12 u ∧ u.now = n
      ∧ u.rtc.dst + u.rtc.dstNew = s.rtc.dst + s.rtc.dstNew + 1
      ∧ ({ s with rtc.dst := u.rtc.dst, rtc.dstNew := u.rtc.dstNew, rtc.dstAt := n, rtc.dstPending := true } : State).servedOnly u)
    ∧ (s.takes (viaWrite v 0xC14 3) = true → ∃ u, s.landsAs (.dstBack v) 12 u ∧ u.now = n
      ∧ u.rtc.dst + u.rtc.dstNew = s.rtc.dst + s.rtc.dstNew - 1
      ∧ ({ s with rtc.dst := u.rtc.dst, rtc.dstNew := u.rtc.dstNew, rtc.dstAt := n, rtc.dstPending := true } : State).servedOnly u)

/-- PROGRAM, STEP, MARGIN and a life-cycle step, by the letter and the reply: refused with the first failing check of R454, by a
released seal, or by a supply out of its window; otherwise the operation is in progress, and the time at which a counter that it
raises shows its target is free between bounds (R402, R403, R445, R450, R453, R454, R458).
In part the model's reading: log 129. -/
def Obligations.OtpOperations : Prop :=
  ∀ (s : State) (v : Via) (k : Fin 4) (al : AliasOp) (d : Word),
    let c := match k with
      | 0 => Instr.otpProgram v | 1 => Instr.otpStep v | 2 => Instr.otpMargin v | 3 => Instr.lcStep v al d
    let l := match k with
      | 0 => viaWrite v 0x222 1 | 1 => viaWrite v 0x222 2 | 2 => viaWrite v 0x222 3
      | 3 => viaWrite v (4096 * opCode al + 0x230) d
    let next := (aliasOp (opCode al) (wd s.lcNow) d).toNat % 4
    let ask := match k with
      | 0 => OtpAsk.program (fld s.otp.addr 0 10) | 1 => .step (fld s.otp.addr 16 3)
      | 2 => .margin (fld s.otp.addr 16 3) (fld s.otp.addr 0 10) | 3 => .life next
    s.takes l = true → s.quiet = true →
    let w : State := { s with now := s.now + 201327 }
    ∃ u, s.repliesAs c u ∧ u.now = w.now ∧
      match s.otpWhy (s.acc.armed == some Group.otp) ask with
      | some x => s.servedOnly u ∧ u.acc.why = x ∧ u.acc.refusals = sat16 s.acc.refusals 1 ∧ u.link.reply = w.replyTo l 0x30 []
      | none => u.acc.armed = none ∧ u.link.reply = w.replyTo l 0 [] ∧
          let o := match k with
            | 0 => OtpOp.program (fld s.otp.addr 0 10) s.otp.data
            | 1 => .raise (fld s.otp.addr 16 3) (s.counter (fld s.otp.addr 16 3)) ((s.stepTarget (fld s.otp.addr 16 3)).getD 0)
            | 2 => .margin (fld s.otp.addr 16 3) (fld s.otp.addr 0 10)
            | 3 => .raise ctrLife (next - 1) next
          let last : BitVec 3 := match k with | 0 => 1 | 1 => 2 | 2 => 3 | 3 => s.otp.lastOp
          ({ s with free := s.free + 1, otp.lastOp := last, otp.op := some o, otp.shownAt := u.otp.shownAt } : State).servedOnly u
            ∧ w.now + 4028 ≤ u.otp.shownAt ∧ u.otp.shownAt < w.now + usToSclk 346 + 2014

/-- A word programmed to its end, with every bit taking its pulses, reads the data it was given with no error, where it was blank
before; a margin read's end counts the marginal bits and changes no cell; a change of the supply window is seen at once: programming
in progress ends when it clears, a word holding no bit that it was not to hold and reading neither unprogrammed nor clean, no bit of
a counter lost, and a counter that read its target already keeps it (R443 to R445, R449 to R451, R453, R455). How far it had come is
free (log 26). -/
def Obligations.OtpOperationEnds : Prop :=
  (∀ (s : State) (w : Nat) (d : Word), s.memoryOk = true → s.otp.op = some (.program w d) → (s.otpWord w).blank = true →
      s.otp.openings = 0 → s.otp.commitTo = none → s.otp.healDue = false →
    ∃ t, exec (.otpOpDone { completed := none, marginalNext := false, weak := [] }) s = .next t
      ∧ t.otp.op = none ∧ (t.otpWord w).bits = otpEncode d ∧ (t.otpWord w).marginal = 0
      ∧ (t.otpWord w).value = d ∧ (t.otpWord w).ecc = 0 ∧ t.otp.thermo = s.otp.thermo
      ∧ (∀ x ∈ s.otp.words, x.1 ≠ w → x ∈ t.otp.words))
  ∧ (∀ (s : State) (c w : Nat) (e : OtpEnd), s.otp.op = some (.margin c w) → s.otp.openings = 0 → s.otp.commitTo = none →
      s.otp.healDue = false → s.levelQuiet = true →
    exec (.otpOpDone e) s = .next { s with otp.op := none, otp.marginBits := s.marginCount c w })
  ∧ (∀ (s : State) (ok : Bool), (s.otp.op = none ∨ ∃ c w, s.otp.op = some (.margin c w)) → s.otp.openings = 0 →
      s.otp.commitTo = none → s.otp.healDue = false → s.levelQuiet = true →
    exec (.supplyOkChange ok) s = .next { s with otp.supplyOk := ok })
  ∧ (∀ (s : State) (w : Nat) (d : Word), s.memoryOk = true → s.otp.op = some (.program w d) →
    ∃ t, exec (.supplyOkChange false) s = .next t ∧ t.otp.op = none ∧ t.otp.supplyOk = false ∧ t.otp.thermo = s.otp.thermo
      ∧ (∀ i, i < 39 → (s.otpWord w).bits.getLsbD i = true → (t.otpWord w).bits.getLsbD i = true)
      ∧ (∀ i, i < 39 → (t.otpWord w).bits.getLsbD i = true →
          (s.otpWord w).bits.getLsbD i = true ∨ (otpEncode d).getLsbD i = true)
      ∧ ((s.otpWord w).blank = true → (t.otpWord w).blank = false ∧ (t.otpWord w).ecc ≠ 0)
      ∧ (∀ x ∈ s.otp.words, x.1 ≠ w → x ∈ t.otp.words))
  ∧ (∀ s : State, s.memoryOk = true →
    ∃ t, exec (.supplyOkChange false) s = .next t ∧ t.otp.supplyOk = false
      ∧ (t.otp.op = none ∨ ∃ c w, s.otp.op = some (.margin c w) ∧ t.otp.op = s.otp.op)
      ∧ ∀ b, (s.thermo b).reads = true → (t.thermo b).reads = true)
  ∧ (∀ (s : State) (c f n : Nat), s.memoryOk = true → c < 6 → f < n → n ≤ counterSteps c → s.otp.op = some (.raise c f n) →
      s.otp.shownAt ≤ s.now →
    s.counter c = max (s.counterCells c) n ∧ ∃ t, exec (.supplyOkChange false) s = .next t ∧ n ≤ t.counter c)

/-- `FLT_INJ` is refused outside factory test mode and without its key, and takes effect in it; an injection that ends is no
longer presented; one still presented meets the detector that a later event arms (R392, R454, R477, R478).
In part the model's reading: logs 73 and 77. -/
def Obligations.InjectionGuarded : Prop :=
  (∀ (s : State) (v : Via) (op : AliasOp) (d : Word), s.quiet = true →
    let l := viaWrite v (4096 * opCode op + 0x610) d
    s.takes l = true →
    let w := aliasOp (opCode op) s.flt.inj d &&& 0xFFFF017F#32
    let m : State := { s with now := s.now + 201327 }
    ∃ u, s.repliesAs (.fltInj v op d) u ∧
      if s.lcNow ≠ 0 ∨ s.acc.testMode = false then
        s.servedOnly u ∧ u.acc.why = 4 ∧ u.acc.refusals = sat16 s.acc.refusals 1 ∧ u.link.reply = m.replyTo l 0x30 []
      else if s.acc.armed ≠ some Group.test then
        s.servedOnly u ∧ u.acc.why = 1 ∧ u.acc.refusals = sat16 s.acc.refusals 1 ∧ u.link.reply = m.replyTo l 0x30 []
      else (bit w 8 = false → ({ s with flt.inj := w } : State).servedOnly u)
        ∧ (bit w 8 = true → w.toNat % 128 = fltNtc →
            ({ s with flt.inj := setBit w 8 false
                      flt.injecting := s.flt.injecting ++ [(fltNtc, s.now + 201327 + usToSclk (1000 * (w.toNat / 65536)))] }
              : State).servedOnly u)
        ∧ (bit w 8 = true → injectable (w.toNat % 128) = false →
            ({ s with flt.inj := setBit w 8 false } : State).servedOnly u))
  ∧ (∀ (s : State) (n at_ : Nat), s.flt.injecting = [(n, at_)] → s.flt.react = none →
    exec .injectEnd s = .next { s with now := max s.now at_, flt.injecting := [] })
  ∧ (∀ (s : State) (at_ : Nat), s.railRising = true → upRail s.seq.railStep = 0 → s.flt.injecting = [(fltRailUv, at_)] →
      vget s.seq.blankTo 0 ≤ s.now → s.recording = true → s.rtc.deliveryAt = none →
    ∃ t, exec .railPowerGood s = .next t ∧ t.sticky fltRailUv = true
      ∧ (s.seq.first = none → t.seq.first = some { source := 0, kind := 0, frame := s.scan.frame.toNat % 65536 }))

/-- Sticky bits written 1 are cleared when the write lands, but those that the hardware set in that cycle, the crystal's for
`FLT_BAK`, and no others; HEDGE_TAKEOVER stays while the hedge holds the device
(R13, R418, R474). -/
def Obligations.FaultsClear : Prop :=
  ∀ (s : State) (v : Via) (d : Word), s.quiet = true →
    let fresh : State → Nat → Nat → Word := fun u a span => ({ s with now := u.now } : State).hwFresh a span
    (s.takes (viaWrite v 0x608 d) = true → ∃ u, s.landsAs (.faultClear v .sticky0 d) 6 u
      ∧ ({ s with flt.sticky0 := s.flt.sticky0 &&& ~~~(d &&& 0xFFFFFF#32 &&& ~~~(fresh u 0x608 1)) } : State).servedOnly u)
    ∧ (s.takes (viaWrite v 0x609 d) = true → ∃ u, s.landsAs (.faultClear v .sticky1 d) 6 u
      ∧ ({ s with flt.sticky1 := s.flt.sticky1 &&& ~~~(d &&& 0xFFFFF#32 &&& ~~~(fresh u 0x609 1)) } : State).servedOnly u)
    ∧ (s.takes (viaWrite v 0x60B d) = true → ∃ u, s.landsAs (.faultClear v .backup d) 6 u ∧
      let e : BitVec 5 := (d &&& ~~~(fresh u 0x60B 6144)).setWidth 5
      let m : BitVec 5 := if s.seq.hedge then e &&& 0x1B#5 else e
      ({ s with rtc.bak := s.rtc.bak &&& ~~~m
                seq.hedgeCause := if m.getLsbD 2 then 0 else s.seq.hedgeCause
                seq.hedgeStep := if m.getLsbD 2 then 0 else s.seq.hedgeStep } : State).servedOnly u)

/-! ### Accesses that wait, the seal -/

/-- The oldest posted write to a block lands, and what waited for its TRANSIT bit goes on; a guarded write's reply comes at its
time while E1 has its clock; an access to a domain that HOLD gates wakes it, is answered when it is awake, and the domain is held
again 64 cycles after its last access. SEAL_N's release is remembered by every guarded write that waits; its assertion in Sealed or
Stubble is an opening, counted at once where programming is possible and nothing is busy, before a healing goes on, else kept to
be counted
(R357, R394, R402, R403, R461).
In part the model's reading: logs 3, 26 and 82. -/
def Obligations.AccessEvents : Prop :=
  (∀ (s : State) (p : Posted) (l : List Posted), s.acc.posted = p :: l →
    exec (.postedWriteLand p.block) s
      = .next (State.land { s with now := max s.now p.due, acc.posted := l } p.addr p.data p.full).pump)
  ∧ (∀ (s : State) (b : Fin 16), (∀ p ∈ s.acc.posted, p.block ≠ b) → exec (.postedWriteLand b) s = .next s)
  ∧ (∀ (s : State) (x : Guarded), s.acc.guarded = [x] → s.clock.pllLock = true → s.link.serving = [] → x.why = some 0x22 →
    ∃ t, exec .guardedWriteReply s = .next t ∧ t.now = max s.now x.due ∧ t.acc.guarded = [] ∧ t.acc.why = 0x22
      ∧ t.acc.refusals = sat16 s.acc.refusals 1 ∧ s.servedOnly t)
  ∧ (∀ (s : State) (l : Letter) (i : Nat), s.takes l = true → s.quiet = true → s.pwr.st = .hold → l.typ = 0x02 →
      i < 14 → half l.body 0 = 0x412 + i → l.count = 1 → s.pwr.waking = Vector.replicate 3 none →
      s.pwr.awake = Vector.replicate 3 none →
    ∃ t, exec (.read l) s = .next t ∧ t.link.reply = none ∧ vget t.pwr.waking 0 = some (s.now + usToSclk 8) ∧ t.pwr.st = .hold
      ∧ ∃ u, exec .onDemandWakeDone t = .next u ∧ u.now = s.now + usToSclk 8 ∧ vget u.pwr.awake 0 = some u.now
      ∧ vget u.pwr.waking 0 = none ∧ u.drills = s.drills
      ∧ u.link.reply = ({ s with now := u.now } : State).replyTo l 0
          (leBytes 4 (({ s with now := u.now } : State).readAt (0x412 + i)).1.toNat))
  ∧ (∀ (s : State) (d : WakeDomain) (at_ : Nat),
      let k := match d with | .drills => 0 | .arrays => 1 | .bias => 2
      vget s.pwr.awake k = some at_ →
      exec (.domainRehold d) s = .next { s with now := max s.now (at_ + 64 * 6144), pwr.awake := vset s.pwr.awake k none })
  ∧ (∀ s : State, s.recording = true → s.levelQuiet = true →
    (∀ a, s.acc.sealIn = a → exec (.sealNChange a) s = .next s)
    ∧ (s.acc.sealIn = true → exec (.sealNChange false) s = .next { s with
        acc.sealIn := false, acc.guarded := s.acc.guarded.map (fun g => { g with sealed := false }) })
    ∧ (s.acc.sealIn = false → s.lcNow < 2 ∨ 1024 ≤ s.counter ctrSeal + s.otp.openings →
        exec (.sealNChange true) s = .next { s with acc.sealIn := true })
    ∧ (s.acc.sealIn = false → 2 ≤ s.lcNow → s.counter ctrSeal + s.otp.openings < 1024 → s.otp.op = some .heal → s.progOk = true →
        ∃ t, exec (.sealNChange true) s = .next t ∧ t.acc.sealIn = true ∧ t.otp.openings = s.otp.openings + 1
          ∧ t.otp.op = some .sealCount ∧ t.otp.healDue = true ∧ t.otp.words = s.otp.words ∧ t.now = s.now)
    ∧ (s.acc.sealIn = false → 2 ≤ s.lcNow → s.counter ctrSeal + s.otp.openings < 1024 → s.otp.op ≠ some .heal →
        ∃ t, exec (.sealNChange true) s = .next t ∧ t = if s.otpBusy || !s.progOk then
            { s with acc.sealIn := true, otp.openings := s.otp.openings + 1 }
          else { s with acc.sealIn := true, otp.openings := s.otp.openings + 1, otp.op := some .sealCount, free := s.free + 1
                        otp.shownAt := t.otp.shownAt }))


/-! ### Slow round and grace -/

/-- A slot of the slow round gives its reading, as its 256th conversion ends, to a thermistor, a diode or a measurement, up to the
converter's full scale; the next slot begins on the grid; the last one ends the round, which
mends the strap copies. Grace that ends lets its condition enforce from the next boundary (R63, R221 to R223, R225, R226, R236,
R326, R504).
In part the model's reading: logs 113, 123 and 128. -/
def Obligations.SlowRoundRuns : Prop :=
  (∀ (s : State) (x : Int) (b : Bool), s.therm.slowOn = true → s.clock.pllLock = true → s.flt.injecting = [] → s.flt.react = none →
    s.therm.slot < 31 →
    let n := s.therm.slot
    ∃ t, exec (.slowRoundSlot { reading := x, boostOv := b, upsets := [] }) s = .next t ∧ t.tree.boostOv = b
      ∧ t.now = max s.now (s.therm.slotAt + 360448 + 1024 * s.slotLoses) ∧ t.therm.slotAt = s.therm.slotAt + 402432
      ∧ t.therm.slot = n + 1 ∧ t.therm.rounds = s.therm.rounds ∧ t.mem = s.mem ∧ t.pgh = s.pgh ∧ s.pwrKept t ∧ t.scan = s.scan
      ∧ (∀ k, k < 4 → vget t.therm.ntc k
          = if k = n then ntcStep s.alm.thermal (vget s.therm.ntc k) (min x.toNat 65520) else vget s.therm.ntc k)
      ∧ (∀ k, k < 6 → vget t.therm.diode k
          = if k + 4 = n then diodeStep (vget s.therm.diode k) x else vget s.therm.diode k)
      ∧ (∀ k, k < 22 → k ≠ 14 → vget t.tree.meas k
          = if k + 10 = n then clampI (-(slotScale n : Int)) (slotScale n) x else vget s.tree.meas k)
      ∧ (n < 4 → s.recording = true → (vget s.therm.ntc n).st = .good → (vget t.therm.ntc n).st ≠ .good → t.sticky fltNtc = true)
      ∧ (4 ≤ n → n < 10 → s.recording = true → (vget s.therm.diode (n - 4)).bad = false → (vget t.therm.diode (n - 4)).bad = true →
          t.sticky fltDiode = true))
  ∧ (∀ (s : State) (x : Int) (b : Bool), s.therm.slowOn = true → s.clock.pllLock = true → s.therm.slot = 31 → s.scan.scanning = true →
      s.flt.injecting = [] →
    ∃ t, exec (.slowRoundSlot { reading := x, boostOv := b, upsets := [] }) s = .next t ∧ t.tree.boostOv = b
      ∧ t.now = max s.now (s.therm.slotAt + 402432) ∧ t.therm.slot = 0 ∧ t.therm.rounds = s.therm.rounds + 1
      ∧ vget t.tree.meas 21 = clampI (-2047) 2047 x
      ∧ (∀ k, k < 12 → vget t.strap.bins k = Trip.all (vget s.strap.bins k).maj)
      ∧ t.strap.votes = (if s.strapVotes = 0 then s.strap.votes else sat16 s.strap.votes s.strapVotes)
      ∧ t.mem = s.mem ∧ t.pgh = s.pgh ∧ s.pwrKept t ∧ t.scan = s.scan)
  ∧ (∀ (s : State) (at_ : Nat), s.clocked = true →
    (s.therm.plotC.inForce = true → s.therm.plotC.graceTo = some at_ →
      exec (.graceEnd .plot) s = .next { s with
        now := max s.now at_, therm.plotC := { s.therm.plotC with graceTo := none, ripe := true } })
    ∧ (s.therm.dieC.inForce = true → s.therm.dieC.graceTo = some at_ →
      exec (.graceEnd .die) s = .next { s with
        now := max s.now at_, therm.dieC := { s.therm.dieC with graceTo := none, ripe := true } }))

/-! ### VIN and RESET_N -/

/-- VIN's loss, return and overvoltage. With VBAK disconnected the loss leaves no supply at all. Otherwise it takes a start-up to
DORMANT, begins final delivery in a live session, else the entry to DORMANT; a record under check and the replies of guarded writes
are dropped, and guarded writes land only where a final delivery begins; OTP programming stops; the return starts a device in
DORMANT with its causes, and is kept in mind by one that is still delivering (R283, R300, R338, R347, R350, R355, R405, R422, R423,
R437, R441, R455, R481, R489).
In part the model's reading: logs 26, 49 and 63. -/
def Obligations.VinEvents : Prop :=
  ∀ s : State, s.rtc.alive = true →
    (s.tree.vinValid = true → s.rtc.vbakConn = false → ∃ t, exec .vinLoss s = .next t ∧ t.rtc.alive = false ∧ t.tree.vinValid = false
      ∧ t.pwr.st = .unpowered ∧ t.up.stage = .off ∧ t.mem = State.reset.mem ∧ t.rtc.comp = s.rtc.comp
      ∧ t.rtc.kept0 = State.reset.rtc.kept0 ∧ (s.otp.op = none → t.otp.words = s.otp.words ∧ t.otp.thermo = s.otp.thermo))
    ∧ (s.tree.vinValid = true → s.rtc.vbakConn = true →
      let w : State := State.stopPulses { s with
                                tree.vinValid := false, rtc.charging := false, rtc.testing := none, rtc.onBackup := true
                                rtc.vinLostAt := s.now
                                pwr.vinGone := s.pwr.vinGone || s.up.stage == Stage.off, otp.supplyOk := false
                                rw.checking := none, rw.waiting := none
                                acc.guarded := if s.delivers && !s.resetOrder then s.acc.guarded.map (fun g => { g with reply := false })
                                  else [] }
      (s.up.stage = .off → exec .vinLoss s = .next w.pump)
      ∧ (s.up.stage = .held → exec .vinLoss s = .next ({ w with tree.startReg := false } : State).pump)
      ∧ (s.up.stage = .wait ∨ s.up.stage = .otp ∨ s.up.stage = .straps ∨ s.up.stage = .pll ∨ s.up.stage = .boot →
          s.rtc.resetDue = false → s.rtc.resetN = false → s.pwr.held = false → s.pwr.heldAlarm = 0 →
          ∃ t, exec .vinLoss s = .next t ∧ t.up.stage = .off ∧ t.pwr.st = .dormant ∧ t.mem = MemState.reset
            ∧ t.link = LinkState.reset ∧ t.rtc.cal = s.rtc.cal ∧ t.rtc.kept0 = s.rtc.kept0 ∧ t.rtc.onBackup = true)
      ∧ (s.up.stage = .complete → s.resetOrder = false → s.rtc.deliveryAt = none → s.seq.hedge = false → s.delivers = true →
          s.link.serving = [] →
          ∃ t, exec .vinLoss s = .next t ∧ t.pwr.st = .delivery ∧ t.rtc.deliveryAt = some s.now ∧ t.rtc.path = true
            ∧ t.flt.react = none ∧ t.mem = s.mem ∧ t.acc.guarded = s.acc.guarded.map (fun g => { g with reply := false })
            ∧ t.rw.checking = none ∧ (∀ n, n < 8 → (vget t.tree.led n).on = false) ∧ t.tree.vinValid = false)
      ∧ (s.up.stage = .complete → s.resetOrder = false → s.rtc.deliveryAt = none → s.seq.hedge = false → s.delivers = false →
          s.scan.scanning = true → s.pwr.st ≠ .enterDormant →
          exec .vinLoss s = .next (State.pump { w with
            pwr.st := .enterDormant, pwr.noWait := true, pwr.change := none, pwr.held := false, pwr.heldAlarm := 0
            pwr.committed := false, flt.react := w.flt.react.map Reacting.inert, up.firstUp := false })))
    ∧ (s.tree.vinValid = false →
      (s.up.stage = .off → s.clock.xtalOk = true → s.rtc.resetN = false →
        ∃ t, exec .vinReturn s = .next t ∧ t.up.stage = .otp ∧ t.tree.vinValid = true ∧ t.rtc.onBackup = false
          ∧ t.pwr.wake = s.rtc.causes ||| 0x88 ∧ t.rtc.causes = 0 ∧ t.up.rstOut = true ∧ t.rtc.cal = s.rtc.cal)
      ∧ (s.up.stage = .wait → s.clock.xtalOk = true → s.rtc.resetN = false →
        ∃ t, exec .vinReturn s = .next t ∧ t.up.stage = .otp ∧ t.tree.vinValid = true ∧ t.pwr.wake = s.rtc.causes)
      ∧ (s.up.stage = .complete → s.rtc.backupRun = false →
        ∃ t, exec .vinReturn s = .next t ∧ t.rtc.vinBack = true ∧ t.tree.vinValid = true ∧ t.seq = s.seq
          ∧ t.pwr = { s.pwr with
              raceHeld := sat16 s.pwr.raceHeld (if s.pwr.st = .enterDormant ∧ s.raceWindow then 1 else 0)
              raceLost := sat16 s.pwr.raceLost 0 }
          ∧ t.mem = s.mem))
    ∧ (s.staysUp → ∃ t, exec .vinOv s = .next t ∧ t.tree.vinOv = true ∧ t.now = s.now
        ∧ (s.recording = true → t.sticky fltVinOv = true ∧ t.seq.first.isSome = true)
        ∧ (s.recording = false → t = { s with tree.vinOv := true }))
    ∧ (s.flt.react = none → exec .vinOvFalling s = .next { s with tree.vinOv := false })

/-- RESET_N. With a panel rail up, or going down, its order begins, which nothing turns aside, and OTP programming stops; before E0
runs, or with nothing up, the reset condition is reached at once; in a final delivery it waits, and in a takeover until the sixth
event. Released in the reset condition it lets a start-up begin, whose time zero, with supply and crystal there, takes the causes
collected; released before, it only ends (R11, R343, R347, R455, R462, R480, R481, R487, R488). -/
def Obligations.ResetPin : Prop :=
  (∀ s : State, s.rtc.resetN = false → s.rtc.alive = true →
    (s.e0Runs = true → s.resetOrder = true → exec .resetNAssert s = .next { s with rtc.resetN := true })
    ∧ (s.e0Runs = true → s.resetOrder = false → s.rtc.deliveryAt = none → s.seq.hedge = false →
        s.anyRail = true ∨ s.seq.railStep ≠ 0 ∧ s.seq.rising = false →
      ∃ t, exec .resetNAssert s = .next t ∧ t.rtc.resetN = true ∧ t.rtc.causes = s.rtc.causes ||| 0x10 ∧ t.scan.scanning = false
        ∧ t.seq.after = .reset ∧ t.seq.rising = false ∧ t.seq.railStep ≠ 0 ∧ t.flt.react = none ∧ t.up.stage = s.up.stage
        ∧ t.mem = s.releaseRows.mem ∧ t.link = s.link ∧ t.rtc.resetDue = true ∧ t.otp.supplyOk = false)
    ∧ (s.e0Runs = true → s.resetOrder = false → s.rtc.deliveryAt.isSome = true →
      exec .resetNAssert s = .next { s with rtc.resetN := true, rtc.resetDue := true })
    ∧ (s.e0Runs = true → s.resetOrder = false → s.rtc.deliveryAt = none → s.seq.hedge = true → s.seq.hedgeStep ≠ 6 →
      exec .resetNAssert s = .next { s with rtc.resetN := true, rtc.resetDue := true, rtc.causes := s.rtc.causes ||| 0x10 })
    ∧ ((s.e0Runs = false ∨ s.resetOrder = false ∧ s.rtc.deliveryAt = none
        ∧ (s.seq.hedge = true ∧ s.seq.hedgeStep = 6 ∨ s.seq.hedge = false ∧ s.anyRail = false ∧ s.seq.railStep = 0)) →
      ∃ t, exec .resetNAssert s = .next t ∧ t.up.stage = .held ∧ t.up.rstOut = true ∧ t.rtc.resetN = true
        ∧ t.rtc.causes = s.rtc.causes ||| (if s.up.stage = .off then 0x90 else 0x10)
        ∧ t.mem = MemState.reset ∧ t.link = LinkState.reset ∧ t.flt = FaultState.reset ∧ t.pgh = PghState.reset
        ∧ t.rtc.dst = 0 ∧ t.rtc.dstNew = 0 ∧ t.rtc.dstPending = false
        ∧ t.rtc.cal = s.rtc.cal ∧ t.rtc.kept0 = s.rtc.kept0 ∧ t.rtc.kept1 = s.rtc.kept1 ∧ t.rtc.bak = s.rtc.bak))
  ∧ (∀ s : State, (s.rtc.resetN = true → exec .resetNAssert s = .next s)
    ∧ (s.rtc.alive = false → exec .resetNAssert s = .next { s with rtc.resetN := true }))
  ∧ (∀ s : State, s.rtc.alive = true → s.up.stage = .held →
    ∃ t, exec .resetNRelease s = .next t ∧ t.rtc.resetN = false ∧ t.up.rstOut = true ∧ t.rtc.cal = s.rtc.cal ∧ t.now = s.now
      ∧ t.mem = MemState.reset
      ∧ if s.clock.xtalOk = true ∧ s.supplied = true then t.up.stage = .otp ∧ t.pwr.wake = s.rtc.causes ∧ t.rtc.causes = 0
        else t.up.stage = .wait ∧ t.pwr.wake = s.pwr.wake ∧ t.rtc.causes = s.rtc.causes)
  ∧ (∀ s : State, s.up.stage ≠ .held ∨ s.rtc.alive = false → exec .resetNRelease s = .next { s with rtc.resetN := false })

/-! ### Rails, plans, entries and returns -/

/-- The steps of rail-up and rail-down: power-good begins the next rail or, after the last, VCOM with the rails up; 5.0 ms without
it raise RAIL_PG and end the rise; a discharge, or its limit with DISCH_TIMEOUT raised, begins the next drop; VGL held drops when
the source rails have discharged or its limit is reached; a step that a write of the rail-enable word alone asked for has none after
it (R329 to R331, R334, R346).
In part the model's reading: log 103. -/
def Obligations.RailSteps : Prop :=
  (∀ s : State, s.railRising = true → s.flt.injecting = [] → s.seq.lone = false →
    let k := s.seq.railStep
    let next := (List.range 9).find? (fun j =>
      decide (k < j) && !s.seq.skip.getLsbD (upRail j) && !(setBit s.tree.pg (upRail k) true).getLsbD (upRail j))
    ∃ t, exec .railPowerGood s = .next t ∧ t.now = max s.now (s.seq.railAt + 201327)
      ∧ t.tree.pg = setBit s.tree.pg (upRail k) true ∧ t.seq.railAt = t.now ∧ t.seq.rising = true
      ∧ (∀ j, next = some j → t.seq.railStep = j ∧ t.enabled (upRail j) = true ∧ t.tree.disch.getLsbD (upRail j) = false)
      ∧ (next = none → t.seq.railStep = 9 ∧ t.enabled 8 = true ∧ t.tree.railsUp = true)
      ∧ t.mem = s.mem ∧ t.pwr = s.pwr ∧ t.link = s.link ∧ t.scan = s.scan ∧ t.flt = s.flt)
  ∧ (∀ s : State, s.railRising = true → s.flt.injecting = [] → s.seq.lone = true → s.anyRail = true →
    ∃ t, exec .railPowerGood s = .next t ∧ t.now = max s.now (s.seq.railAt + 201327) ∧ t.seq.railStep = 0 ∧ t.seq.lone = false
      ∧ t.tree = { s.tree with pg := setBit s.tree.pg (upRail s.seq.railStep) true } ∧ (∀ k, k < 9 → t.enabled k = s.enabled k)
      ∧ t.mem = s.mem ∧ t.pwr = s.pwr ∧ t.link = s.link ∧ t.scan = s.scan ∧ t.flt = s.flt)
  ∧ (∀ s : State, s.railRising = true → s.recording = true → s.staysUp →
    ∃ t, exec .railPgTimeout s = .next t ∧ t.now = max s.now (s.seq.railAt + usToSclk 5000) ∧ t.railRising = false
      ∧ t.sticky fltRailPg = true ∧ (s.seq.first = none →
          t.seq.first = some { source := upRail s.seq.railStep, kind := 3, frame := s.scan.frame.toNat % 65536 })
      ∧ s.memKept t)
  ∧ (∀ (s : State) (j : Nat), s.railFalling = true → s.seq.lone = false →
      (List.range 10).find? (fun j => decide (s.seq.railStep < j) && s.enabled (if j = 1 then 8 else downRail j)) = some j →
      (j = 9 → (setBit s.seq.stuckRails (downRail s.seq.railStep) false).toNat % 64 = 0) →
    ∃ t, exec .railDischarged s = .next t ∧ t.now = s.now ∧ t.seq.railStep = j ∧ t.seq.rising = false ∧ t.seq.railAt = s.now
      ∧ t.enabled (downRail j) = false ∧ t.tree.pg.getLsbD (downRail j) = false ∧ t.tree.disch.getLsbD (downRail j) = true
      ∧ t.seq.after = s.seq.after ∧ t.mem = s.mem ∧ t.pwr = s.pwr ∧ t.link = s.link ∧ t.flt = s.flt)
  ∧ (∀ s : State, s.railFalling = true → s.seq.lone = true → s.anyRail = true →
    ∃ t, exec .railDischarged s = .next t ∧ t.now = s.now ∧ t.seq.railStep = 0 ∧ t.seq.lone = false ∧ t.tree = s.tree
      ∧ (∀ k, k < 9 → t.enabled k = s.enabled k) ∧ t.mem = s.mem ∧ t.pwr = s.pwr ∧ t.link = s.link ∧ t.flt = s.flt)
  ∧ (∀ s : State, s.railFalling = true → s.seq.lone = false → s.seq.after = .nothing →
      (List.range 10).find? (fun j => decide (s.seq.railStep < j) && s.enabled (if j = 1 then 8 else downRail j)) = none →
    ∃ t, exec .railDischarged s = .next t ∧ t.seq.railStep = 0
      ∧ t.seq.timeDown = min 65535 ((s.now - s.seq.beganAt) * 100000 / 201326592)
      ∧ (∀ n, n < 8 → (vget t.panel.vcom n).phase = .off) ∧ t.mem = s.mem ∧ t.pwr = s.pwr ∧ t.link = s.link)
  ∧ (∀ (s : State) (j : Nat), s.railFalling = true → s.seq.lone = false → s.recording = true →
      (List.range 10).find? (fun j => decide (s.seq.railStep < j) && s.enabled (if j = 1 then 8 else downRail j)) = some j → j ≠ 9 →
    ∃ t, exec .dischTimeout s = .next t ∧ t.now = max s.now (s.seq.railAt + s.dischLimit) ∧ t.seq.railStep = j
      ∧ t.sticky fltDisch = true ∧ t.seq.dischRaised = true ∧ t.enabled (downRail j) = false)
  ∧ (∀ s : State, s.seq.vglHold = true → s.recording = true →
    ∃ t, exec .vglHoldExpiry s = .next t ∧ t.now = max s.now (s.seq.railAt + s.holdLimit) ∧ t.seq.vglHold = false
      ∧ t.seq.railStep = 9 ∧ t.seq.rising = false ∧ t.enabled 7 = false ∧ t.tree.disch.getLsbD 7 = true
      ∧ (s.seq.dischRaised = false → t.sticky fltDisch = true)
      ∧ exec .railDischarged s = .next (State.startDrop { s with seq.stuckRails := s.seq.stuckRails &&& 0xC0 } 9))

/-- The steps of a plan and the ramps of auxiliary rails: power-good, its 10 ms limit and a delay end the step, and a rail that
comes next is raised; outside a plan's step power-good and a ramp's end only show on their rail (R316, R335, R337).
In part the model's reading: log 24. -/
def Obligations.PlanSteps : Prop :=
  (∀ (s : State) (n : Fin 4) (l : List PlanStep) (e ms : Nat), s.seq.run = .powerUp → s.seq.steps = .aux n :: .delay ms :: l →
      (vget s.tree.aux n).ramp = .up e → s.flt.injecting = [] →
    exec .planAuxPg s = .next { s with
      now := max s.now e, tree.aux := vmod s.tree.aux n (fun a => { a with pg := true, armed := true, ramp := .none })
      seq.steps := .delay ms :: l, seq.place := s.seq.place + 1, seq.stepAt := max s.now e }
    ∧ ∃ t, exec .auxPgTimeout s = .next t ∧ t.now = max s.now (s.seq.stepAt + usToSclk 10000) ∧ t.tree.aux = s.tree.aux
        ∧ t.seq.steps = .delay ms :: l ∧ t.seq.place = s.seq.place + 1 ∧ t.seq.stepAt = t.now
        ∧ (s.recording = true → t.sticky fltAuxPg = true) ∧ t.mem = s.mem)
  ∧ (∀ (s : State) (m : Fin 4) (l : List PlanStep) (ms : Nat), s.seq.run = .powerUp → s.seq.steps = .delay ms :: .aux m :: l →
      (vget s.tree.aux m).en = true → (vget s.tree.aux m).latched = false → (vget s.tree.aux m).running = false →
    let n := max s.now (s.seq.stepAt + usToSclk (1000 * ms))
    exec .planDelayEnd s = .next { s with
      now := n, seq.steps := .aux m :: l, seq.place := s.seq.place + 1, seq.stepAt := n
      tree.aux := vmod s.tree.aux m (fun a => { a with raised := true, running := true, pg := false
                                                       armed := false, ramp := .up (n + usToSclk 2000) }) })
  ∧ (∀ (s : State) (n : Fin 4) (e : Nat), s.planAwaits = none →
      firstTo 4 (fun k => (vget s.tree.aux k).riseEnd.isSome) = some n.val → (vget s.tree.aux n).ramp = .up e →
      s.flt.injecting = [] →
    exec .planAuxPg s = .next { s with
      now := max s.now e, tree.aux := vmod s.tree.aux n (fun a => { a with pg := true, armed := true, ramp := .none }) })
  ∧ (∀ (s : State) (n : Fin 4) (e : Nat), s.seq.run = .none → s.seq.tail = 0 → (vget s.tree.aux n).ramp = .down e →
    exec (.auxRampEnd n) s = .next { s with
      now := max s.now e, tree.aux := vmod s.tree.aux n (fun a => { a with running := false, armed := false, ov := false, ramp := .none }) })

/-- The commit points of HOLD and DORMANT, and the rail-up of a return: the scan stops, tests are abandoned, the wake-race counts
are kept, DORMANT copies `PWR_MATCH` and arms the matcher, and rail-down begins; the return's rail-up begins 200 µs after its wake
event (R157, R349, R350, R352, R354). -/
def Obligations.EntriesCommit : Prop :=
  ∀ (s : State) (attn lost : Nat),
    (s.pwr.st = .enterHold → s.commitDue = true → s.anyRail = true → s.flt.dark = false → s.flt.injecting = [] →
        s.drillsKeep = true → s.dieAtLeast 2000 = false →
      ∃ t, exec (.holdCommit attn lost) s = .next t ∧ t.scan.scanning = false ∧ t.scan.startDue = none
        ∧ t.now = (if s.scan.scanning then max s.now (s.slotTime s.frameRows) else s.now) ∧ t.pwr.st = .enterHold
        ∧ t.pwr.committed = true ∧ t.pwr.commitAt = t.now ∧ t.pwr.holdFrom = some t.now ∧ t.pwr.held = false ∧ t.pwr.portHeld = false
        ∧ t.pwr.raceHeld = sat16 s.pwr.raceHeld attn ∧ t.pwr.raceLost = sat16 s.pwr.raceLost lost
        ∧ t.drills.running = [] ∧ t.seq.after = .hold ∧ t.seq.rising = false ∧ t.seq.railStep ≠ 0
        ∧ (s.mem.ageWait = none → t.mem.pixels = s.mem.pixels) ∧ t.mem.ledger = s.mem.ledger ∧ t.mem.ageWait = none
        ∧ t.link.version = s.link.version ∧ t.otp = s.otp)
    ∧ (s.pwr.st = .enterDormant → s.commitDue = true → s.anyRail = true → s.flt.dark = false → s.flt.injecting = [] →
        s.drillsKeep = true → s.dieAtLeast 2000 = false →
      ∃ t, exec (.dormantCommit attn lost) s = .next t ∧ t.scan.scanning = false
        ∧ t.pwr.committed = true ∧ t.pwr.commitAt = t.now ∧ t.rtc.armed = true ∧ t.pwr.heldAlarm = 0
        ∧ t.pwr.mHouse = BitVec.ofNat 4 s.house
        ∧ t.pwr.mPostA = BitVec.ofNat 4 s.postA ∧ t.pwr.mPostB = BitVec.ofNat 4 s.postB ∧ t.pwr.mBak = BitVec.ofNat 4 (s.bin 8)
        ∧ t.pwr.raceHeld = sat16 s.pwr.raceHeld attn ∧ t.pwr.raceLost = sat16 s.pwr.raceLost lost
        ∧ t.seq.after = .dormant ∧ t.seq.rising = false ∧ t.seq.railStep ≠ 0
        ∧ (s.mem.ageWait = none → t.mem.pixels = s.mem.pixels) ∧ t.mem.ledger = s.mem.ledger ∧ t.otp = s.otp)
    ∧ (s.pwr.st = .ret → ∀ at_, s.pwr.retAt = some at_ → s.up.firstUp = false → s.flt.react = none →
        s.tree.pg = 0 → s.seq.skip = 0 →
      ∃ t, exec .holdReturnRailup s = .next t ∧ t.now = max s.now (at_ + usToSclk 200) ∧ t.pwr.retAt = none ∧ t.pwr.st = .ret
        ∧ t.seq.railStep = 1 ∧ t.seq.rising = true ∧ t.seq.beganAt = t.now ∧ t.enabled 7 = true ∧ t.mem = s.mem
        ∧ t.link = s.link)

/-! ### Supervisors and protections -/

/-- An undervoltage, overvoltage or overcurrent of a panel rail that its detector is armed for shows in `SUP_STAT` until the rail's
drop, is the first captured, and sets its sticky bit; unarmed it does nothing, and its end clears the bit that shows it. An internal
rail's undervoltage after start-up is carried out as DARK, unless that or the hedge or RESET_N's order has the device already (R338,
R340, R343, R346, R463).
In part the model's reading: log 124. -/
def Obligations.SupervisorsFire : Prop :=
  (∀ (s : State) (k : Fin 8), s.staysUp →
    let seen (t : State) (kind flt : Nat) : Prop := t.now = s.now ∧ (s.recording = true → t.sticky flt = true)
      ∧ s.memKept t
      ∧ (s.seq.first = none → t.seq.first = some { source := k.val, kind := kind, frame := s.scan.frame.toNat % 65536 })
    (s.tree.pg.getLsbD k.val = true → vget s.seq.blankTo k.val ≤ s.now →
      ∃ t, exec (.railUv ⟨k, true⟩) s = .next t ∧ seen t 0 fltRailUv ∧ (t.enabled k.val = true → t.seq.uv.getLsbD k.val = true))
    ∧ (s.enabled k.val = true → vget s.seq.blankOv k.val ≤ s.now →
      ∃ t, exec (.railOv ⟨k, true⟩) s = .next t ∧ seen t 1 fltRailOv ∧ (t.enabled k.val = true → t.seq.ov.getLsbD k.val = true))
    ∧ (s.enabled k.val = true →
      ∃ t, exec (.railOc ⟨k, true⟩) s = .next t ∧ seen t 2 fltRailOc ∧ (t.enabled k.val = true → t.seq.oc.getLsbD k.val = true)))
  ∧ (∀ (s : State) (k : Fin 8),
    (s.tree.pg.getLsbD k.val = false ∨ s.now < vget s.seq.blankTo k.val → exec (.railUv ⟨k, true⟩) s = .next s)
    ∧ (s.enabled k.val = false ∨ s.now < vget s.seq.blankOv k.val → exec (.railOv ⟨k, true⟩) s = .next s)
    ∧ (s.enabled k.val = false → exec (.railOc ⟨k, true⟩) s = .next s)
    ∧ exec (.railUv ⟨k, false⟩) s = .next { s with seq.uv := setBit s.seq.uv k.val false }
    ∧ exec (.railOv ⟨k, false⟩) s = .next { s with seq.ov := setBit s.seq.ov k.val false }
    ∧ exec (.railOc ⟨k, false⟩) s = .next { s with seq.oc := setBit s.seq.oc k.val false })
  ∧ (∀ (s : State) (r : IntRail),
    (s.up.stage ≠ .complete → exec (.intUv r) s = .next s)
    ∧ (s.up.stage = .complete → ∃ t, exec (.intUv r) s = .next t ∧ t.sticky fltIntUv = true ∧ t.now = s.now
        ∧ s.memKept t
        ∧ (s.seq.first = none →
            t.seq.first = some { source := intRailSource r, kind := 0, frame := s.scan.frame.toNat % 65536 })
        ∧ if s.flt.dark = true ∨ s.seq.hedge = true ∨ s.resetOrder = true then
            t.scan = s.scan ∧ s.pwrKept t ∧ t.mem = s.mem ∧ t.tree = s.tree
          else t.flt.dark = true ∧ t.flt.react = none ∧ t.scan.scanning = false
            ∧ (s.anyRail = true → t.seq.after = .dark ∧ t.seq.rising = false)
            ∧ (s.anyRail = false → s.seq.railStep = 0 → t.seq.run = .hedgeDrop)))

/-- An auxiliary rail's valley limit, armed from power-good, latches it off with OC shown, and ends a ramp-down that a plan awaits;
its other comparators only raise their fault, the overvoltage held until it ends, the undervoltage blanked in a ramp-down, the
hedge's too. A front-light channel's short or open latches it off once its soft-start is over; its soft-start's end arms the checks
(R316, R317, R319, R322 to R324, R337, R338, R340, R342).
In part the model's reading: logs 20, 46, 123 and 124. -/
def Obligations.AuxAndLightEvents : Prop :=
  (∀ (s : State) (n : Fin 4), let x := vget s.hedgeDue.tree.aux n
    ((x.running && x.armed) = true →
      ∃ t, exec (.auxOc n) s = .next t ∧ (s.recording = true → t.sticky fltAuxOc = true) ∧ t.mem = s.mem ∧ t.scan = s.scan
        ∧ (x.falling = false ∨ s.seq.run = .none →
          t.now = s.now ∧ s.pwrKept t ∧ t.seq = s.seq
          ∧ t.tree = { s.tree with aux := vmod s.tree.aux n (fun a =>
              { a with oc := true, latched := true, running := false, pg := false, armed := false, ov := false, ramp := .none }) })
        ∧ (∀ e m ms l, x.ramp = .down e → s.seq.run = .holdDrop ∨ s.seq.run = .dormantDrop → s.seq.steps = .aux m :: .delay ms :: l →
            m.val = n.val → t.seq.steps = .delay ms :: l ∧ t.seq.place = s.seq.place + 1))
    ∧ ((x.running && x.armed) = false → exec (.auxOc n) s = .next s)
    ∧ (x.armed = true →
      (∃ t, exec (.auxOv ⟨n, true⟩) s = .next t ∧ (s.recording = true → t.sticky fltAuxOv = true)
        ∧ t.tree = { s.tree with aux := vmod s.tree.aux n (fun a => { a with ov := true }) } ∧ s.pwrKept t
        ∧ t.seq = s.seq ∧ t.mem = s.mem)
      ∧ (x.blankTo ≤ s.now → x.falling = false →
        ∃ t, exec (.auxUv n) s = .next t ∧ (s.recording = true → t.sticky fltAuxUv = true) ∧ t.tree = s.tree ∧ s.pwrKept t
          ∧ t.seq = s.seq ∧ t.mem = s.mem))
    ∧ (x.armed = false → exec (.auxOv ⟨n, true⟩) s = .next s)
    ∧ (x.armed = false ∨ s.now < x.blankTo ∨ x.falling = true → exec (.auxUv n) s = .next s)
    ∧ exec (.auxOv ⟨n, false⟩) s = .next { s with tree.aux := vmod s.tree.aux n (fun a => { a with ov := false }) })
  ∧ (∀ (s : State) (n : Fin 8), let l := vget s.tree.led n
    ((vget s.hedgeDue.tree.led n).driven s.now = true → l.softNow s.now = false →
      (∃ t, exec (.ledShort n) s = .next t ∧ (s.recording = true → t.sticky fltLedShort = true) ∧ t.now = s.now
        ∧ t.tree = { s.tree with led := vset s.tree.led n { l with short := true, on := false, onWas := false } }
        ∧ t.seq = s.seq ∧ t.mem = s.mem)
      ∧ (∃ t, exec (.ledOpen n) s = .next t ∧ (s.recording = true → t.sticky fltLedOpen = true) ∧ t.now = s.now
        ∧ t.tree = { s.tree with
            led := vset s.tree.led n { l with openL := true, on := false, onWas := false }
            boostOv := anyTo 8 (fun m => !(m == n.val) && (vget s.tree.led m).driven s.now) }
        ∧ t.seq = s.seq ∧ t.mem = s.mem))
    ∧ ((vget s.hedgeDue.tree.led n).driven s.now = false ∨ l.softNow s.now = true →
      exec (.ledShort n) s = .next s ∧ exec (.ledOpen n) s = .next s)
    ∧ (∀ e, l.soft = some e → s.flt.injecting = [] → exec (.ledSoftstartEnd n) s = .next { s with
        now := max s.now e, tree.led := vset s.tree.led n { l with soft := none } }))

/-! ### The clock and the hedge -/

/-- Every trigger of the hedge stops the scan at once and begins the rail order, with its cause and `BAK` kept: the watchdog,
crystal loss, loss of lock, the rail-enable copies in disagreement. With the crystal running every takeover disables the PLL and
enables it again once; it locks after 32 cycles in phase, or has failed 2.0 ms on (DEDUCED, log 81). OTP programming stops with the
lock. A write of the rail-enable word that keeps the order begins its rail's step and no other, VGL held while a source rail is; one
that breaks it raises SEQ_ORDER; of copies that disagree the majority is acted on where it keeps the order (R287, R288, R295, R296,
R312, R329, R331, R334, R341, R342, R346).
In part the model's reading: logs 3, 37, 81 and 103. -/
def Obligations.HedgeTakesOver : Prop :=
  (∀ (s : State) (k : Nat), s.seq.kickAt = some k → s.e0Runs = true →
    let n := max s.now (k + 2097 * 6144)
    (s.seq.hedge = false → ∃ t, exec .watchdogExpiry s = .next t ∧ t.now = n ∧ s.takenOver t 0
      ∧ t.clock = ({ s with now := n } : State).relockTried)
    ∧ (s.seq.hedge = true →
        exec .watchdogExpiry s = .next { s with now := n, seq.hedgeCause := setBit s.seq.hedgeCause 0 true }))
  ∧ (∀ s : State, s.rtc.alive = true → s.clock.xtalOk = true → s.e0Runs = true → s.seq.hedge = false →
    ∃ t, exec .xtalLoss s = .next t ∧ t.now = s.now ∧ s.takenOver t 1 ∧ t.sticky fltXtal = true ∧ t.sticky fltXtalStop = true
      ∧ t.clock = { s.clock with
          xtalOk := false, xtalStopped := true, onRc := true
          relock := if s.clock.relock = .running then .none else s.clock.relock }
      ∧ t.rtc.stopAt = s.now ∧ t.rtc.subHeld = s.now - s.rtc.secondAt)
  ∧ (∀ s : State, s.clock.pllLock = true →
    (s.e0Runs = true → s.seq.hedge = false → ∃ t, exec .pllUnlock s = .next t ∧ t.now = s.now
      ∧ ({ s with clock.pllLock := false } : State).stopPulses.takenOver t 2
      ∧ t.sticky fltPll = true ∧ t.clock = ({ s with clock.pllLock := false } : State).relockTried)
    ∧ (s.e0Runs = false → ∃ t, exec .pllUnlock s = .next t ∧ t.up = { s.up with stage := .pll, at_ := s.now }
      ∧ t.clock = { s.clock with pllLock := false } ∧ t.therm = { s.therm with slowOn := false }
      ∧ (s.recording = true → t.sticky fltPll = true) ∧ t.seq = s.seq ∧ t.mem = s.mem))
  ∧ (∀ s : State, s.link.serving = [] → s.otp.openings = 0 → s.otp.commitTo = none → s.otp.healDue = false →
    (s.clock.relock = .running →
      exec .pllRelock s = .next (if s.clock.xtalOk then { s with
          now := max s.now (s.clock.relockAt + 32 * 6144), clock.relock := .done, clock.pllLock := true } else s)
      ∧ exec .noRelock s = .next { s with
          now := max s.now (s.clock.relockAt + usToSclk 2000), clock.relock := .failed, tree.startReg := true })
    ∧ (s.clock.relock ≠ .running → exec .pllRelock s = .next s ∧ exec .noRelock s = .next s))
  ∧ (∀ (s : State), s.e0Runs = true → s.seq.hedge = false →
    (∀ a b c : BitVec 9, ¬ (a = b ∧ b = c) →
      let m := Trip.maj { a := a, b := b, c := c }
      let u := if s.enableLegal m then s.actOn m else s
      ∃ t, exec (.railVote (.copies a b c)) s = .next t ∧ t.now = s.now
        ∧ ({ u with seq.enable := { a := a, b := b, c := c } } : State).takenOver t 3 ∧ t.clock = s.relockTried)
    ∧ (∀ x : BitVec 9, s.enableChanges x = [] → exec (.railVote (.write x)) s = .next s)
    ∧ (∀ (x : BitVec 9) (k : Fin 8), s.enableChanges x = [k.val] →
      (x.getLsbD k.val = true → s.enableLegal x = true →
        ∃ t, exec (.railVote (.write x)) s = .next t ∧ t.seq.railStep = stepUpOf k.val ∧ t.seq.rising = true
          ∧ t.seq.railAt = s.now ∧ t.seq.beganAt = s.now ∧ t.seq.lone = true ∧ (s.seq.phase ≠ .delivery → t.seq.phase = .railUp)
          ∧ t.enabled k.val = true ∧ t.tree.disch.getLsbD k.val = false
          ∧ vget t.tree.trimNow k.val = vget s.tree.trim k.val ∧ t.tree.pg = s.tree.pg ∧ t.flt = s.flt ∧ t.mem = s.mem)
      ∧ (x.getLsbD k.val = false → s.enableLegal x = true →
        ∃ t, exec (.railVote (.write x)) s = .next t ∧ t.seq.railStep = 10 - stepUpOf k.val ∧ t.seq.rising = false
          ∧ t.seq.railAt = s.now ∧ t.seq.beganAt = s.now ∧ t.seq.lone = true ∧ (s.seq.phase ≠ .delivery → t.seq.phase = .railDown)
          ∧ t.flt = s.flt ∧ t.mem = s.mem
          ∧ if k.val = 7 ∧ s.sourcesHeld = true then t.seq.vglHold = true ∧ t.tree = s.tree ∧ t.enabled 7 = true
            else t.enabled k.val = false ∧ t.tree.disch.getLsbD k.val = true
              ∧ t.tree.pg = setBit s.tree.pg k.val false ∧ t.tree.railsUp = false))
    ∧ (∀ x : BitVec 9, s.enableChanges x = [8] → s.enableLegal x = true →
      (x.getLsbD 8 = true → ∃ t, exec (.railVote (.write x)) s = .next t ∧ t.seq.railStep = 9 ∧ t.seq.rising = true
        ∧ t.seq.railAt = s.now ∧ t.seq.lone = true ∧ t.enabled 8 = true ∧ t.tree.railsUp = true ∧ t.mem = s.mem)
      ∧ (x.getLsbD 8 = false → ∃ t, exec (.railVote (.write x)) s = .next t ∧ t.seq.railStep = 1 ∧ t.seq.rising = false
        ∧ t.seq.lone = true ∧ t.enabled 8 = false ∧ t.scan.scanning = false ∧ s.memKept t))
    ∧ (∀ x : BitVec 9, s.enableLegal x = false → s.staysUp →
        ∃ t, exec (.railVote (.write x)) s = .next t ∧ t.sticky fltSeqOrder = true
          ∧ s.memKept t))

/-! ### Start-up -/

/-- The steps of a start-up: the crystal starts it once it has a supply; OTP's delivery brings the critical words to their users,
the straps, lock, the boot, E0's cycle, the link and completion follow at their times; a failed integrity check holds the main
domains in reset (R21, R59, R60, R62, R269, R286, R287, R295, R296, R433, R442, R456, R457, R481, R482, R484).
In part the model's reading: logs 10, 14 and 105. -/
def Obligations.StartUpSteps : Prop :=
  (∀ s : State, s.rtc.alive = true → s.clock.xtalOk = false → s.up.stage = .wait → s.rtc.resetN = false →
      s.seq.hedge = false →
      s.tree.vinValid = true ∨ s.rtc.backupRun = true →
    let n := max s.now ((if s.clock.xtalStopped then s.rtc.stopAt else s.rtc.aliveAt) + 1024 * 6144)
    ∃ t, exec .xtalRunning s = .next t ∧ t.now = n ∧ t.clock = { s.clock with
          xtalOk := true, xtalStopped := false, relock := if s.clock.pllLock then s.clock.relock else .none }
      ∧ t.up = { s.up with stage := .otp, at_ := n } ∧ t.pwr = { s.pwr with wake := s.rtc.causes } ∧ t.rtc.causes = 0
      ∧ t.rtc.secondAt = n - s.rtc.subHeld ∧ t.rtc.subHeld = 0 ∧ t.rtc.cal = s.rtc.cal ∧ t.mem = s.mem)
  ∧ (∀ (s : State) (d : DeliverySense), s.up.stage = .otp →
    let n := max s.now (s.up.at_ + 65 * 6144)
    ((s.senseFactory d.flips).criticalOk = false → ∃ t, exec (.otpDeliveryDone d) s = .next t ∧ t.now = n
      ∧ t.up.stage = .otpFail ∧ t.up.at_ = n ∧ t.up.rstOut = true ∧ t.sticky fltOtpFail = true ∧ t.rtc.cal = s.rtc.cal
      ∧ t.pwr.wake = s.pwr.wake)
    ∧ ((s.senseFactory d.flips).criticalOk = true → ∃ t, exec (.otpDeliveryDone d) s = .next t ∧ t.now = n
      ∧ t.up = { s.up with stage := .straps, at_ := n } ∧ t.otp.lc = Trip.all (BitVec.ofNat 2 (s.counter ctrLife))
      ∧ t.otp.patch = s.counter ctrPatch ∧ t.otp.factory = (s.senseFactory d.flips).otp.factory
      ∧ t.rtc.comp = Config.rtcComp t.otp.trims ∧ t.otp.words = s.otp.words ∧ t.otp.thermo = s.otp.thermo ∧ t.mem = s.mem
      ∧ t.strap = s.strap ∧ t.pwr = s.pwr))
  ∧ (∀ (s : State) (codes : Vector (Vector (BitVec 12) 4) 12), s.up.stage = .straps →
    let n := max s.now (s.up.at_ + 673 * 6144)
    let raw := fun (k : Nat) => sumTo 4 (fun j => (vget (vget codes k) j).toNat)
    ∃ t, exec (.strapReadDone codes) s = .next t ∧ t.now = n ∧ t.up = { s.up with stage := .pll, at_ := n }
      ∧ (∀ k, k < 12 → vget t.strap.bins k = Trip.all (BitVec.ofNat 4 (strapBin (raw k))))
      ∧ (∀ k, k < 12 → (vget t.strap.raw k).toNat = raw k ∧ t.strap.margin.getLsbD k = strapMargin (raw k))
      ∧ t.strap.rsvd = budgetReserved (t.bin 4) ∧ (t.strap.rsvd = true → t.sticky fltStrapRsvd = true)
      ∧ t.tree.railSet = Trip.all (BitVec.ofNat 4 (t.bin 5)) ∧ t.seq.plan = Trip.all (BitVec.ofNat 4 (t.bin 10))
      ∧ t.therm.ctl = wd t.budgetMw ∧ (∀ c, c < 8 → (vget t.panel.vcom c).trim = vcomStart (t.bin 6))
      ∧ t.mem = s.mem ∧ t.otp = s.otp ∧ t.pwr = s.pwr)
  ∧ (∀ s : State, s.up.stage = .pll → s.clock.xtalOk = true →
    let n := max s.now (s.up.at_ + 32 * 6144)
    exec .pllLock s = .next { s with
      now := n, clock.pllLock := true, tree.startReg := false, therm.slowOn := true, therm.slotAt := n, up.stage := .boot
      up.at_ := n })
  ∧ (∀ s : State, s.up.stage = .boot → s.flt.sticky0 = 0 → s.flt.sticky1 = 0 →
    let n := max s.now (s.up.at_ + 16384)
    ∃ st, exec .e0Boot s = .next { s with now := n, up.stage := .e0, up.stores := st, seq.kickAt := some n }
      ∧ (vget st 0).loaded = true ∧ ∀ e, 1 ≤ e → e < 16 → vget st e = vget s.up.stores e)
  ∧ (∀ s : State, s.up.stage = .e0 → s.clock.pllLock = true → s.seq.hedge = false → s.abandoned = false →
    let n := max s.now (s.up.at_ + 36864)
    (s.patchesOk = false → ∃ t, exec .e0Run s = .next t ∧ t.now = n ∧ t.up.stage = .otpFail ∧ t.sticky fltOtpFail = true)
    ∧ (s.patchesOk = true → ∃ t, exec .e0Run s = .next t ∧ t.now = n ∧ t.up.stage = .linkWait ∧ t.up.at_ = s.up.at_
      ∧ t.pwr.st = .run ∧ t.mem = { s.mem with tickBase := some n } ∧ t.drills.startTest = true
      ∧ (vget t.up.stores 1).loaded = true ∧ (∀ e, 2 ≤ e → e < 16 → (vget t.up.stores e).loaded = false)
      ∧ t.rw.epoch = s.counter ctrEpoch ∧ t.rw.postRp = s.counter ctrReprov ∧ t.rw.desc = s.descSlot (s.counter ctrReprov)
      ∧ t.rw.key = s.keyOf (s.counter ctrEpoch) ∧ t.rw.postSeal = s.counter ctrSeal
      ∧ (∀ k, s.keptSlot = some k → t.rw.recheck = true ∧ t.rw.floor = k.floor) ∧ t.link.version = s.link.version))
  ∧ (∀ s : State, s.up.stage = .linkWait → s.seq.hedge = false → s.abandoned = false →
    exec .linkUp s = .next { s with now := max s.now (s.up.at_ + 53248), up.stage := .plan, link.version := 0 })
  ∧ (∀ s : State, s.up.stage = .plan → s.up.planDone = true → s.seq.hedge = false → s.resetOrder = false →
      s.abandoned = false →
    ∃ t, exec .startupComplete s = .next t ∧ t.now = s.now ∧ t.up = { s.up with stage := .complete, rstOut := false }
      ∧ (s.bin 8 ≠ 15 → s.tree.vinValid = true → t.rtc.testing.isSome = true)
      ∧ (s.bin 8 = 15 ∨ s.tree.vinValid = false → t.rtc.testing = s.rtc.testing)
      ∧ (s.rw.recheck = false → s.rw.requestDue = none → t.rw.requestDue = if s.requestHolds then some s.now else none)
      ∧ t.mem = s.mem ∧ t.pwr = s.pwr ∧ t.seq = s.seq ∧ t.tree = s.tree ∧ t.link = s.link)

/-! ### Reactions -/

/-- At a reaction's decision point the rail-up waits while a condition it waits on is present, and begins otherwise, or goes on
where a start-up's rail-up runs; faults raised meanwhile whose condition is present make a third reaction within 10 s DARK. One
frame after the retry's first boundary the recovery ends and FAULT_N is released, or the faults that waited and whose conditions are
present begin one reaction, which waits for them all (R465, R469, R471, R472, R483).
In part the model's reading: log 3. -/
def Obligations.ReactionsEnd : Prop :=
  (∀ (s : State) (r : Reacting), s.flt.react = some r → r.stage = .toDecision → s.pwr.st ≠ .enterDormant → r.repair = false →
    let n := max s.now (r.at_ + 201327)
    let present := r.later.filter s.condition
    (present = [] → s.mustWait r = false → s.tree.railsUp = false → s.seq.railStep ≠ 0 → s.seq.rising = true →
      exec .reactionDecision s = .next { s with now := n, flt.react := some { r with stage := .railUp, at_ := n, later := [] } })
    ∧ (present = [] → s.mustWait r = true →
      exec .reactionDecision s = .next { s with now := n, flt.react := some { r with stage := .waitCond, later := [] } })
    ∧ (present = [] → s.mustWait r = false → s.pwr.st = .run ∨ s.pwr.st = .slow → s.tree.railsUp = false →
        s.seq.railStep = 0 → s.up.planDone = true → s.tree.pg = 0 → s.seq.skip = 0 →
      ∃ t, exec .reactionDecision s = .next t ∧ t.now = n
        ∧ t.flt.react = some { r with stage := .railUp, at_ := n, later := [] } ∧ t.flt.history = s.flt.history
        ∧ t.seq.railStep = 1 ∧ t.seq.rising = true ∧ t.enabled 7 = true ∧ t.seq.beganAt = n ∧ t.mem = s.mem)
    ∧ (present ≠ [] → ({ s with now := n } : State).thirdSoon = true →
      ∃ t, exec .reactionDecision s = .next t ∧ t.now = n ∧ t.flt.dark = true ∧ s.memKept t))
  ∧ (∀ (s : State) (r : Reacting), s.flt.react = some r → r.stage = .frame →
    let n := max s.now (r.at_ + s.frameTime)
    (r.later.filter s.condition = [] → exec .recoveryEnd s = .next { s with now := n, flt.react := none }
      ∧ (s.flt.dark = false → s.seq.hedge = false → ({ s with now := n, flt.react := none } : State).faultN = false))
    ∧ (∀ f l, (r.later.filter s.condition).mergeSort (· ≤ ·) = f :: l → ({ s with now := n } : State).thirdSoon = false →
        s.staysUp →
      ∃ t, exec .recoveryEnd s = .next t ∧ t.now = n ∧ t.flt.history = (n :: s.flt.history).take 3 ∧ s.memKept t
        ∧ ∃ q, t.flt.react = some q ∧ q.level = .safe ∧ q.fault = f ∧ q.waits = f :: l ∧ q.later = []))
  ∧ (∀ (s : State) (r : Reacting), s.flt.react = some r →
    (r.stage ≠ .toDecision → exec .reactionDecision s = .next s) ∧ (r.stage ≠ .frame → exec .recoveryEnd s = .next s))

/-! ### The registered window -/

/-- A byte framed on RPRX by a start bit, eight bits from the least significant and a stop bit is received as that byte. A record
received whole, while RPDE is not asserted, comes under check once the accelerator is free; a record rejected or verified is
answered by its code, and one that is verified raises the floor, marks the session, is drawn, and is kept; the kept-record write
ends in the older slot (R259, R261, R265 to R268, R270, R486).
In part the model's reading: logs 3, 60, 87 and 130. -/
def Obligations.RecordsChecked : Prop :=
  (∀ (s : State) (r : Record), s.portLive = true → s.rw.rx = [] → s.rw.checking = none → s.rw.requestWaits = false →
      byteAt r 0 = 0x3C → byteAt r 1 = 0xC3 → recLen r ≤ 960 → r.length = 88 + recLen r →
      s.rw.txUntil ≤ s.now →
    let n := if s.rw.recheck then max s.now (s.rw.lastVerified + 7864320) else s.now
    (recCrcOk r = true → exec (.meterRecord (.bytes r)) s
      = .next { s with rw.rxAt := s.now, rw.checking := some (r, s.recCode false r, n + 7864320) })
    ∧ (recCrcOk r = false → ∃ t, exec (.meterRecord (.bytes r)) s = .next t ∧ t.now = s.now
        ∧ t.rw.checking = some (r, some 0x10, n + 7864320)))
  ∧ (∀ s : State, s.now < s.rw.txUntil → ∀ b, exec (.meterRecord (.bytes b)) s = .next s)
  ∧ (∀ s : State, s.portLive = true → s.rw.requestWaits = false →
    exec .recordGap s = .next (if s.recordArriving
      then { s with rw.rx := [], rw.abandon := sat16 s.rw.abandon 1, rw.flag := setBit s.rw.flag 4 true }
      else { s with rw.rx := [] }))
  ∧ (∀ s : State, s.portLive = false → (∀ b, exec (.meterRecord (.bytes b)) s = .next s) ∧ exec .recordGap s = .next s
      ∧ exec .signatureCheckDone s = .next s)
  ∧ (∀ (s : State) (b : Byte), let bp := s.bitPeriod
    exec (.meterRecord (.line ((List.range 10).map (fun k => (frameBit [b] k, bp))))) s
      = exec (.meterRecord (.bytes [b])) { s with now := s.now + 10 * bp })
  ∧ (∀ (s : State) (r : Record) (c : Option Byte) (due : Nat), s.rw.checking = some (r, c, due) → s.portLive = true →
      s.rw.waiting = none →
    let n := max s.now due
    let reply := fun (x : Byte) => s.rw.sent ++ [{ kind := 0x81, code := x, seq := wd (recSeq r) }]
    (∀ x, c = some x → x ≠ 0x17 → ∃ t, exec .signatureCheckDone s = .next t ∧ t.now = n
      ∧ t.rw = { s.rw with lastRej := x, rejected := (s.rw.rejected + 1) % 65536, flag := setBit s.rw.flag 3 true
                           checking := none, sent := reply x, txUntil := n + 122 * s.bitPeriod })
    ∧ (c = none → s.sigOk r = false → ∃ t, exec .signatureCheckDone s = .next t ∧ t.now = n ∧ t.rw.lastRej = 0x17
      ∧ t.rw.rejected = (s.rw.rejected + 1) % 65536 ∧ t.rw.failed = true ∧ t.rw.flag = setBit s.rw.flag 1 true
      ∧ t.rw.checking = none ∧ t.rw.sent = reply 0x17 ∧ t.rw.floor = s.rw.floor ∧ t.rw.drawn = s.rw.drawn
      ∧ t.rw.session = s.rw.session ∧ t.rw.writes = s.rw.writes ∧ t.rw.verified = s.rw.verified)
    ∧ (c = none → s.sigOk r = true → ∃ t, exec .signatureCheckDone s = .next t ∧ t.now = n ∧ t.rw.checking = none
      ∧ t.rw.floor = wd (recSeq r) ∧ t.rw.drawn = some r ∧ t.rw.restored = false ∧ t.rw.failed = false ∧ t.rw.stale = false
      ∧ t.rw.lastVerified = n ∧ t.rw.verified = (s.rw.verified + 1) % 65536 ∧ t.rw.writes = s.rw.writes ++ [(r, wd (recSeq r))]
      ∧ t.rw.rejected = s.rw.rejected
      ∧ (recType r ≠ 1 → t.rw.session = none ∧ t.rw.sent = reply 0)
      ∧ (recType r = 1 → s.rw.session = some (wd (recSession r)) ∨ s.rtc.liveOk = true ∧ s.rtc.backupRun = false →
          t.rw.session = some (wd (recSession r)) ∧ t.rw.sent = reply 0)
      ∧ (recType r = 1 → s.rw.session ≠ some (wd (recSession r)) → s.rtc.liveOk = false ∨ s.rtc.backupRun = true →
          t.rw.session = none ∧ t.rw.sent = reply 1 ∧ vget t.pwr.refuse 8 = sat32 (vget s.pwr.refuse 8) 1
          ∧ t.rw.flag = setBit s.rw.flag 5 true)))
  ∧ (∀ (s : State) (r : Record) (f : Word) (l : List (Record × Word)), s.rw.writes = (r, f) :: l → s.clocked = true →
    ∃ t, exec .keptRecordWritten s = .next t ∧ t.rw = { s.rw with writes := l } ∧ t.now = s.now
      ∧ t.keptSlot = some { record := r, floor := f, marker := true, age := max s.rtc.kept0.age s.rtc.kept1.age + 1 }
      ∧ (t.rtc.kept0 = s.rtc.kept0 ∨ t.rtc.kept1 = s.rtc.kept1)
      ∧ (∀ k, s.keptSlot = some k → t.rtc.kept0 = k ∨ t.rtc.kept1 = k))

/-- What the window does by time: a request each second while it has nothing to show, or as soon as the port is free; a render
that ends fills pigeonhole 0, or waits while it runs; a live session without a record goes stale, unless one verifies in that
crystal cycle; the kept record that passes again is drawn (R269, R274, R276, R277, R282, R283, R486).
In part the model's reading: logs 56 and 87. -/
def Obligations.WindowEvents : Prop :=
  (∀ (s : State) (at_ : Nat), s.rw.requestDue = some at_ → s.portLive = true →
    (s.requestHolds = true → s.recordArriving = false →
      let n := max (max s.now at_) (max s.rw.txUntil s.rw.rxAt + s.bitPeriod)
      exec .recordRequest s = .next { s with
        now := n, rw.requestDue := some (at_ + 201326592), rw.requestWaits := false, rw.txUntil := n + 122 * s.bitPeriod
        rw.sent := s.rw.sent ++ [{ kind := 0x82, code := 0, seq := 0 }] })
    ∧ (s.requestHolds = true → s.recordArriving = true → exec .recordRequest s = .next { s with
        now := max s.now at_, rw.requestDue := some (at_ + 201326592), rw.requestWaits := true })
    ∧ (s.requestHolds = false → exec .recordRequest s = .next { s with
        now := max s.now at_, rw.requestDue := some (at_ + 201326592), rw.requestWaits := false }))
  ∧ (∀ (s : State) (at_ : Nat) (m : Array Bool), s.rw.typesetting = some (at_, m) → s.clocked = true → s.rw.typesetAgain = false →
    ((s.pgh_ 0).state = .running → ∃ t, exec .renderDone s = .next t ∧ t.now = max s.now at_ ∧ t.rw.typesetting = none
      ∧ t.rw.waitingMap = some m ∧ t.pgh = s.pgh ∧ t.mem = s.mem)
    ∧ ((s.pgh_ 0).state ≠ .running → ∃ t, exec .renderDone s = .next t ∧ t.now = max s.now at_ ∧ t.rw.typesetting = none
      ∧ t.rw.filled = some m ∧ t.rw.waitingMap = s.rw.waitingMap ∧ t.mem = s.mem ∧ t.pgh.sieve = s.pgh.sieve
      ∧ (let p := t.pgh_ 0
         p.state = .pending ∧ p.preempt = true ∧ p.format = 0 ∧ p.keep = true ∧ p.mode.val = s.winMode ∧ p.height = s.winH
           ∧ p.widg = s.winW / 4 ∧ p.page = (if s.rw.bufB then 4032 else 4064)
           ∧ p.payload.map (fun x => x.bytes) = some (mapBytes m))
      ∧ (∀ x ∈ s.pgh.tab, x.1 ≠ 0 → x ∈ t.pgh.tab)))
  ∧ (∀ s : State, s.rw.session.isSome = true → s.staleSeconds ≠ 0 → s.rw.stale = false → s.portLive = true →
      s.rw.checking = none →
    ∃ t, exec .staleExpiry s = .next t ∧ t.now = max s.now (s.rw.lastVerified + s.staleSeconds * 201326592)
      ∧ t.rw.stale = true ∧ t.rw.session = s.rw.session ∧ t.rw.drawn = s.rw.drawn ∧ t.pgh = s.pgh ∧ t.mem = s.mem
      ∧ (s.lcNow ≠ 3 → s.rw.poff = false → s.rw.epoch ≠ 0 → s.rw.key.isSome = true → s.rw.failed = false → t.rwStatus = .stal))
  ∧ (∀ (s : State) (r : Record) (due : Nat), s.rw.checking = some (r, none, due) → s.sigOk r = true →
      due / 6144 = (s.rw.lastVerified + s.staleSeconds * 201326592) / 6144 → exec .staleExpiry s = .next s)
  ∧ (∀ (s : State) (k : KeptSlot), s.rw.recheck = true → s.clocked = true → s.keptSlot = some k →
    ∃ t, exec .recheckDone s = .next t ∧ t.now = max s.now (s.rw.lastVerified + 7864320) ∧ t.rw.recheck = false
      ∧ t.rw.drawn = (if (s.recCode true k.record).isNone && s.sigOk k.record then some k.record else s.rw.drawn)
      ∧ t.rw.restored = (if (s.recCode true k.record).isNone && s.sigOk k.record then true else s.rw.restored)
      ∧ t.rw.floor = s.rw.floor ∧ t.rw.session = s.rw.session ∧ t.mem = s.mem ∧ t.pgh = s.pgh)

/-! ### Calendar, charger and reserve -/

/-- A completed second advances the calendar, with the summer-time commands that wait, and sets the flag of each alarm whose
unmasked fields match; the charger stops when full and resumes; a gauge test pauses it and sets USABLE, LIVE_OK and WAKE_OK from its
readings of 12 bits; VBAK's cutoff without VIN takes the backup domain's supply (R421 to R424, R426, R427, R430, R431, R433, R504).
In part the model's reading: logs 3, 31 and 65. -/
def Obligations.CalendarAndReserve : Prop :=
  (∀ s : State, s.rtc.alive = true → s.clock.xtalOk = true →
    let n := max s.now (s.rtc.secondAt + secondCycles s.rtc.adj s.rtc.period * 6144)
    let net := if n ≤ s.rtc.dstAt then s.rtc.dst else s.rtc.dst + s.rtc.dstNew
    ∃ t, exec .rtcTick s = .next t
    ∧ t.now = n ∧ t.rtc.secondAt = t.now
    ∧ t.rtc.cal = s.rtc.cal.second.step net ∧ t.rtc.dst = 0 ∧ t.rtc.dstNew = (if n ≤ s.rtc.dstAt then s.rtc.dstNew else 0)
    ∧ t.rtc.dstPending = (s.rtc.dstPending && decide (n ≤ s.rtc.dstAt))
    ∧ (net = 0 → s.rtc.cal.sec < 59 → s.rtc.cal.hour < 24 → t.rtc.cal = { s.rtc.cal with sec := s.rtc.cal.sec + 1 })
    ∧ (net = 0 → s.rtc.cal = { sec := 59, min := 59, hour := 23, day := 28, month := 2, year := 24, weekday := 3 } →
        t.rtc.cal = { sec := 0, min := 0, hour := 0, day := 29, month := 2, year := 24, weekday := 4 })
    ∧ (net = 0 → s.rtc.cal = { sec := 59, min := 59, hour := 23, day := 31, month := 12, year := 99, weekday := 4 } →
        t.rtc.cal = { sec := 0, min := 0, hour := 0, day := 1, month := 1, year := 0, weekday := 6 })
    ∧ t.rtc.alm1F = (s.rtc.alm1F || alarmMatches t.rtc.cal s.rtc.alm1 s.rtc.alm1D)
    ∧ t.rtc.alm2F = (s.rtc.alm2F || alarmMatches t.rtc.cal s.rtc.alm2 s.rtc.alm2D)
    ∧ t.rtc.period = (if s.rtc.period = 63 then 0 else s.rtc.period + 1)
    ∧ (s.rtc.period ≠ 63 → t.rtc.adj = s.rtc.adj ∧ t.rtc.temp = s.rtc.temp)
    ∧ (s.rtc.period = 63 → t.rtc.adj = adjOf s.rtc.comp t.rtc.temp)
    ∧ t.rtc.kept0 = s.rtc.kept0 ∧ t.rtc.kept1 = s.rtc.kept1 ∧ t.rtc.bak = s.rtc.bak)
  ∧ (∀ s : State, s.rtc.alive = false ∨ s.clock.xtalOk = false → exec .rtcTick s = .next s)
  ∧ (∀ s : State, s.rtc.alive = true → s.tree.vinValid = true → s.rtc.testing = none → s.rtc.deliveryAt = none →
    (s.rtc.gaugeAt = none → exec .gaugeTestStart s = .next s)
    ∧ ∀ at_, s.rtc.gaugeAt = some at_ →
      let n := max s.now (at_ + (if s.bakBin ≤ 1 then 86400 else 64) * 201326592)
      exec .gaugeTestStart s = .next (if s.bakBin = 15 then s
        else { s with now := n, rtc.testing := some n, rtc.gaugeAt := some n, rtc.charging := false }))
  ∧ (∀ (s : State) (at_ v0 v1 v20 : Nat), s.rtc.testing = some at_ → ∃ t, exec (.gaugeTestDone v0 v1 v20) s = .next t
    ∧ t.now = max s.now (at_ + usToSclk 20000) ∧ t.rtc.testing = none ∧ t.rtc.gVbak = min 4095 v0
    ∧ t.rtc.liveOk = decide (2000 ≤ t.rtc.usable) ∧ t.rtc.wakeOk = decide (12000 ≤ t.rtc.usable)
    ∧ (s.bakBin = 15 → t.rtc.usable = 0)
    ∧ (bakSuper s.bakBin = false → s.bakBin ≠ 15 → t.rtc.usable =
        if (1400 : Int) ≤ 2 * ↑(min 4095 v0) - 4 * ((↑(min 4095 v0) : Int) - ↑(min 4095 v1)) then 65535 else 0)
    ∧ (bakSuper s.bakBin = true → (2 * ↑(min 4095 v0) : Int) ≤ 1300 + 4 * ((↑(min 4095 v0) : Int) - ↑(min 4095 v1)) →
        t.rtc.usable = 0)
    ∧ t.tree = s.tree ∧ t.mem = s.mem ∧ t.pwr = s.pwr ∧ t.rtc.cal = s.rtc.cal)
  ∧ (∀ s : State, s.rtc.charging = true →
    exec .chargerFull s = .next { s with rtc.full := true, rtc.charging := s.chargerOn && s.nimh })
  ∧ (∀ s : State, s.rtc.full = true → s.chargerOn = true → s.nimh = false →
    exec .chargingResumes s = .next { s with rtc.full := false, rtc.charging := true })
  ∧ (∀ s : State, exec .vbakRestore s
    = .next { s with rtc.vbakConn := true, rtc.onBackup := s.rtc.alive && !s.tree.vinValid })
  ∧ (∀ s : State, s.tree.vinValid = true → exec .vbakCutoff s = .next { s with rtc.vbakConn := false })
  ∧ (∀ s : State, s.tree.vinValid = false → s.rtc.alive = true → ∃ t, exec .vbakCutoff s = .next t
    ∧ t.rtc.alive = false ∧ t.rtc.vbakConn = false ∧ t.pwr.st = .unpowered ∧ t.up.stage = .off ∧ t.mem = State.reset.mem
    ∧ t.rtc.kept0 = State.reset.rtc.kept0 ∧ t.seq.hedgeCause = 0
    ∧ (s.otp.op = none → t.otp.words = s.otp.words ∧ t.otp.thermo = s.otp.thermo))

/-- The ends of a final delivery and of a backup run: after 1.5 s, or on VBAK's low level, rail-down begins; a backup run ends 2 s
after pigeonhole 0 was done and the last letter, or 10 s after its start-up, or on VBAK's low level wherever its start-up stands
(R439, R440).
In part the model's reading: logs 3 and 50. -/
def Obligations.DeliveryAndRunEnd : Prop :=
  (∀ (s : State) (d : Nat), s.rtc.deliveryAt = some d →
    let n := max s.now (d + 49152 * 6144)
    (s.rtc.deliveryDone = true ∨ s.scan.scanning = true ∨ s.seq.hedge = true ∨ s.flt.dark = true →
      exec .deliveryTimeLimit s = .next { s with now := n })
    ∧ (s.rtc.deliveryDone = false → s.scan.scanning = false → s.seq.hedge = false → s.flt.dark = false → s.anyRail = true →
      ∃ t, exec .deliveryTimeLimit s = .next t ∧ t.now = n ∧ t.rtc.deliveryDone = true ∧ t.seq.after = .delivery
        ∧ t.seq.railStep ≠ 0 ∧ t.seq.rising = false ∧ t.mem = s.mem ∧ t.otp = s.otp)
    ∧ (s.rtc.deliveryDone = false → s.seq.hedge = false → s.flt.dark = false → s.anyRail = true →
      ∃ t, exec .vbakLow s = .next t ∧ t.now = s.now ∧ t.scan.scanning = false ∧ t.rtc.deliveryDone = true
        ∧ t.seq.after = .delivery ∧ t.seq.railStep ≠ 0 ∧ t.seq.rising = false ∧ s.memKept t
        ∧ t.otp = s.otp))
  ∧ (∀ s : State, s.rtc.backupRun = true → s.e0Runs = true → s.pwr.st ≠ .enterDormant → s.seq.hedge = false →
      s.flt.dark = false → s.scan.scanning = true →
    ((s.pgh_ 0).state = .done → ∃ t, exec .backupRunIdleEnd s = .next t
      ∧ t.now = max s.now (s.rtc.quietAt + 2 * 201326592) ∧ t.pwr.st = .enterDormant ∧ t.pwr.noWait = true
      ∧ t.scan = s.scan ∧ t.mem = s.mem ∧ t.seq = s.seq ∧ t.rtc = s.rtc)
    ∧ ((s.pgh_ 0).state ≠ .done → exec .backupRunIdleEnd s = .next s)
    ∧ (∀ d, s.rtc.runDoneAt = some d → ∃ t, exec .backupRunTimeEnd s = .next t
      ∧ t.now = max s.now (d + 10 * 201326592) ∧ t.pwr.st = .enterDormant ∧ t.pwr.noWait = true
      ∧ t.scan = s.scan ∧ t.mem = s.mem ∧ t.seq = s.seq ∧ t.rtc = s.rtc)
    ∧ (s.rtc.deliveryAt = none → s.seqIdle = true → ∃ t, exec .vbakLow s = .next t ∧ t.now = s.now
      ∧ t.pwr.st = .enterDormant ∧ t.pwr.noWait = true ∧ t.scan.scanning = false ∧ s.memKept t
      ∧ t.rtc = s.rtc))
  ∧ (∀ s : State, s.rtc.backupRun = true → s.e0Runs = false → s.pwr.st ≠ .enterDormant → s.seq.hedge = false →
      s.flt.dark = false → s.rtc.deliveryAt = none → s.rtc.resetN = false → s.rtc.resetDue = false → s.tree.vinValid = false →
      s.pwr.held = false → s.pwr.heldAlarm = 0 →
    ∃ t, exec .vbakLow s = .next t ∧ t.now = s.now ∧ t.pwr.st = .dormant ∧ t.up.stage = .off ∧ t.rtc.backupRun = false
      ∧ t.rtc.cal = s.rtc.cal ∧ t.seq.hedgeCause = s.seq.hedgeCause ∧ (s.otp.op = none → t.otp.words = s.otp.words))
  ∧ (∀ s : State, s.rtc.backupRun = false → s.rtc.deliveryAt = none → exec .backupRunIdleEnd s = .next s
      ∧ exec .backupRunTimeEnd s = .next s ∧ exec .deliveryTimeLimit s = .next s ∧ exec .vbakLow s = .next s)
end

