-- ==== Sys2Proof/Laws/Key.lean ====
section
/-! SUPPORT. The part of the state that no command may spoil: the queue, the sparse memories' canonical form (R88, R91, R97) and the cells of
the one-time-programmable memory, which only ever gain (R443, R449). `Key.Goes` says that the second keeps what the first had. -/

namespace Sys2Proof.Machine

/-- The fields in question. -/
structure Key where
  pending : List Instr
  pixels : SMap PixelWord
  ledger : SMap LedgerWord
  flips : SMap (BitVec 88)
  cells : SMap (BitVec 17)
  words : SMap OtpWord
  thermo : SMap Thermo

def State.key (s : State) : Key := ⟨s.pending, s.mem.pixels, s.mem.ledger, s.mem.flips, s.mem.ledgerFlip, s.otp.words, s.otp.thermo⟩

/-- A logical bit listed as reading 1. -/
def readsOne (m : SMap Thermo) (k : Nat) : Prop := ∃ x ∈ m, x.1 = k ∧ x.2.reads = true

/-- Every bit of every word that reads 1 still does. -/
def wordsKept (m n : SMap OtpWord) : Prop :=
  ∀ w i, (sget default m w).bits.getLsbD i = true → (sget default n w).bits.getLsbD i = true

/-- TARGET and CURRENT of a word agree unless it is ACTIVE (R80). -/
def pixelAgrees (w : PixelWord) : Prop := (pixelOf w).active = false → (pixelOf w).target = (pixelOf w).current

/-- Every listed word agrees. -/
def idleAgree (m : SMap PixelWord) : Prop := ∀ x ∈ m, pixelAgrees x.2

/-- The idle words agree, and no group that the flips to come meet has more than two bits flipped after them, so that no read is
corrected to another word (R91). -/
def Key.calm (a : Key) (f : List BitFlip) : Prop :=
  swf unknownWord a.pixels = true ∧ swf 0 a.flips = true ∧ idleAgree a.pixels
    ∧ ∀ g, (∃ x ∈ f, x.group = g) → bitCount (sget 0 a.flips g) + f.countP (fun x => x.group == g) ≤ 2

/-- b keeps what a had; f are the flips to come before, g those after. -/
structure Key.Goes (a : Key) (f g : List BitFlip) (b : Key) : Prop where
  queue : b.pending = a.pending
  pixels : swf unknownWord a.pixels = true → swf unknownWord b.pixels = true
  idle : a.calm f → b.calm g
  ledger : swf 0 a.ledger = true → swf 0 b.ledger = true
  flips : swf 0 a.flips = true → swf 0 b.flips = true
  cells : swf 0 a.cells = true → swf 0 b.cells = true
  words : swf default a.words = true → swf default b.words = true ∧ wordsKept a.words b.words
  thermo : swf Thermo.blank a.thermo = true → swf Thermo.blank b.thermo = true
  ones : ∀ k, readsOne a.thermo k → readsOne b.thermo k

variable {bf bg bh : List BitFlip}

@[simp] theorem Key.Goes.refl (a : Key) : a.Goes bf bf a := ⟨rfl, id, id, id, id, id, fun h => ⟨h, fun _ _ g => g⟩, id, fun _ g => g⟩

theorem Key.Goes.trans {a b c : Key} (h : a.Goes bf bg b) (g : b.Goes bg bh c) : a.Goes bf bh c :=
  ⟨g.queue.trans h.queue, fun x => g.pixels (h.pixels x), fun x => g.idle (h.idle x), fun x => g.ledger (h.ledger x),
    fun x => g.flips (h.flips x), fun x => g.cells (h.cells x), fun x => ⟨(g.words (h.words x).1).1, fun w i y => (g.words (h.words x).1).2 w i ((h.words x).2 w i y)⟩,
    fun x => g.thermo (h.thermo x), fun k x => g.ones k (h.ones k x)⟩

/-- Flips that do not come. -/
theorem Key.Goes.drop {f : List BitFlip} (a : Key) : a.Goes (f ++ bf) bf a :=
  ⟨rfl, id, fun c => ⟨c.1, c.2.1, c.2.2.1, fun g hg => by
    obtain ⟨x, hx, e⟩ := hg
    have := c.2.2.2 g ⟨x, List.mem_append_right _ hx, e⟩
    rw [List.countP_append] at this
    omega⟩, id, id, id, fun h => ⟨h, fun _ _ g => g⟩, id, fun _ g => g⟩

/-- From a state whose key is k. -/
theorem Key.Goes.of {k : Key} {t u : State} (h : t.key = k) (g : t.key.Goes bf bg u.key) : k.Goes bf bg u.key := h ▸ g

theorem Key.Goes.ite {k : Key} {c : Prop} [Decidable c] {s t : State} (h : k.Goes bf bg s.key) (g : k.Goes bf bg t.key) :
    k.Goes bf bg (if c then s else t).key := by
  split
  · exact h
  · exact g

@[simp] theorem key_mk (pending : List Instr) (now free : Nat) (strap : StrapState) (mem : MemState) (panel : PanelState)
    (drills : DrillsState) (scan : ScanState) (alm : AlmState) (pgh : PghState) (therm : ThermState) (ledger : LedgerState)
    (rw' : RwState) (clock : ClockState) (tree : TreeState) (seq : SeqState) (pwr : PwrState) (link : LinkState)
    (acc : AccessState) (rtc : RtcState) (otp : OtpState) (flt : FaultState) (up : UpState) :
    (State.mk pending now free strap mem panel drills scan alm pgh therm ledger rw' clock tree seq pwr link acc rtc otp flt
      up).key = ⟨pending, mem.pixels, mem.ledger, mem.flips, mem.ledgerFlip, otp.words, otp.thermo⟩ := rfl

@[simp] theorem key_eta (s : State) : Key.mk s.pending s.mem.pixels s.mem.ledger s.mem.flips s.mem.ledgerFlip s.otp.words s.otp.thermo = s.key := rfl

@[simp] theorem key_ite (c : Prop) [Decidable c] (a b : State) : (if c then a else b).key = if c then a.key else b.key := by
  split <;> rfl

theorem key_foldl {α : Type} (g : State → α → State) (h : ∀ t a, (g t a).key = t.key) (l : List α) (s : State) :
    (l.foldl g s).key = s.key := by
  induction l generalizing s with
  | nil => rfl
  | cons a l ih => simp only [List.foldl_cons]; rw [ih, h]

theorem goes_foldl {α : Type} (g : State → α → State) (h : ∀ (t : State) a, t.key.Goes bf bf (g t a).key) (l : List α) (s : State) :
    s.key.Goes bf bf (l.foldl g s).key := by
  induction l generalizing s with
  | nil => exact Key.Goes.refl _
  | cons a l ih => exact (h s a).trans (ih (g s a))

end Sys2Proof.Machine
end

