-- ==== Sys2Proof/Laws/Memory.lean ====
section
/-! SUPPORT. The sparse memories: every operation keeps the canonical form, a read after a write gives what was written, and
every other key reads as before. -/

namespace Sys2Proof.Machine

variable {α : Type} [DecidableEq α]

theorem swfFrom_mono (d : α) {b b' : Nat} (hb : b' ≤ b) : ∀ {m : SMap α}, swfFrom d b m = true → swfFrom d b' m = true
  | [], _ => rfl
  | (k, v) :: m, h => by
    simp only [swfFrom, Bool.and_eq_true, decide_eq_true_eq] at h ⊢
    exact ⟨⟨Nat.le_trans hb h.1.1, h.1.2⟩, h.2⟩

theorem swfFrom_scons (d : α) {b k : Nat} (v : α) {m : SMap α} (hk : b ≤ k) (h : swfFrom d (k + 1) m = true) :
    swfFrom d b (scons d k v m) = true := by
  unfold scons
  split
  · exact swfFrom_mono d (by omega) h
  · simp [swfFrom, *]

/-- A write keeps the canonical form. -/
theorem swfFrom_sset (d : α) (i : Nat) (x : α) : ∀ {b : Nat} {m : SMap α}, b ≤ i → swfFrom d b m = true →
    swfFrom d b (sset d m i x) = true
  | b, [], hb, _ => swfFrom_scons d x hb rfl
  | b, (k, v) :: m, hb, h => by
    simp only [swfFrom, Bool.and_eq_true, decide_eq_true_eq] at h
    simp only [sset]
    split
    · subst_vars; exact swfFrom_scons d x hb h.2
    · split
      · exact swfFrom_scons d x hb (by simp [swfFrom, h]; omega)
      · simp only [swfFrom, Bool.and_eq_true, decide_eq_true_eq]
        exact ⟨h.1, swfFrom_sset d i x (by omega) h.2⟩

theorem swf_sset (d : α) (m : SMap α) (i : Nat) (x : α) (h : swf d m = true) : swf d (sset d m i x) = true :=
  swfFrom_sset d i x (Nat.zero_le i) h

/-- Leaving entries out keeps the canonical form. -/
theorem swfFrom_filter (d : α) (p : Nat × α → Bool) : ∀ {b : Nat} {m : SMap α}, swfFrom d b m = true →
    swfFrom d b (m.filter p) = true
  | _, [], _ => rfl
  | b, (k, v) :: m, h => by
    simp only [swfFrom, Bool.and_eq_true, decide_eq_true_eq] at h
    rw [List.filter_cons]
    split
    · simp only [swfFrom, Bool.and_eq_true, decide_eq_true_eq]
      exact ⟨h.1, swfFrom_filter d p h.2⟩
    · exact swfFrom_mono d (by omega) (swfFrom_filter d p h.2)

theorem swf_filter (d : α) (p : Nat × α → Bool) (m : SMap α) (h : swf d m = true) : swf d (m.filter p) = true :=
  swfFrom_filter d p h

/-- Rewriting the listed entries keeps the canonical form. -/
theorem swfFrom_smap (d : α) (f : Nat → α → α) : ∀ {b : Nat} {m : SMap α}, swfFrom d b m = true →
    swfFrom d b (smap d f m) = true
  | _, [], _ => rfl
  | b, (k, v) :: m, h => by
    simp only [swfFrom, Bool.and_eq_true, decide_eq_true_eq] at h
    exact swfFrom_scons d (f k v) h.1.1 (swfFrom_smap d f h.2)

theorem swf_smap (d : α) (f : Nat → α → α) (m : SMap α) (h : swf d m = true) : swf d (smap d f m) = true :=
  swfFrom_smap d f h

/-- Keys that rise strictly from a bound. -/
def risingFrom : Nat → List Nat → Bool
  | _, [] => true
  | b, k :: ks => decide (b ≤ k) && risingFrom (k + 1) ks

theorem swfFrom_sapplyFuel (d : α) (f : Nat → α → α) : ∀ (n : Nat) {b : Nat} {m : SMap α} {ks : List Nat},
    swfFrom d b m = true → risingFrom b ks = true → swfFrom d b (sapplyFuel d f n m ks) = true
  | 0, _, _, _, h, _ => h
  | n + 1, _, m, [], h, _ => by cases m <;> exact h
  | n + 1, b, [], k :: ks, _, hk => by
    simp only [risingFrom, Bool.and_eq_true, decide_eq_true_eq] at hk
    exact swfFrom_scons d _ hk.1 (swfFrom_sapplyFuel d f n rfl hk.2)
  | n + 1, b, (j, v) :: m, k :: ks, h, hk => by
    simp only [risingFrom, Bool.and_eq_true, decide_eq_true_eq] at hk
    simp only [swfFrom, Bool.and_eq_true, decide_eq_true_eq] at h
    simp only [sapplyFuel]
    split
    · rename_i hj
      simp only [swfFrom, Bool.and_eq_true, decide_eq_true_eq]
      exact ⟨h.1, swfFrom_sapplyFuel d f n h.2 (by simp [risingFrom, hk]; omega)⟩
    · split
      · rename_i hjk
        subst hjk
        exact swfFrom_scons d _ hk.1 (swfFrom_sapplyFuel d f n h.2 hk.2)
      · exact swfFrom_scons d _ hk.1 (swfFrom_sapplyFuel d f n (by simp [swfFrom, h]; omega) hk.2)

/-- Rewriting the keys of a rising list keeps the canonical form. -/
theorem swf_sapply (d : α) (f : Nat → α → α) (m : SMap α) (ks : List Nat) (h : swf d m = true)
    (hk : risingFrom 0 ks = true) : swf d (sapply d f m ks) = true := swfFrom_sapplyFuel d f _ h hk

/-! ### What is listed after a write -/

theorem mem_scons {d : α} {k : Nat} {v : α} {m : SMap α} {x : Nat × α} (h : x ∈ scons d k v m) : x = (k, v) ∨ x ∈ m := by
  unfold scons at h
  split at h
  · exact .inr h
  · exact List.mem_cons.1 h

/-- An entry of a rewritten memory is the rewriting of one it listed. -/
theorem mem_smap {d : α} {f : Nat → α → α} : ∀ {m : SMap α} {x : Nat × α}, x ∈ smap d f m →
    ∃ y ∈ m, x = (y.1, f y.1 y.2)
  | [], _, h => by simp [smap] at h
  | (k, v) :: m, x, h => by
    rcases mem_scons h with rfl | h
    · exact ⟨(k, v), by simp, rfl⟩
    · obtain ⟨y, hy, e⟩ := mem_smap h
      exact ⟨y, List.mem_cons_of_mem _ hy, e⟩

/-- An entry after rewriting some keys was listed before, or is the rewriting of a listed or an unlisted value. -/
theorem mem_sapplyFuel {d : α} {f : Nat → α → α} : ∀ {n : Nat} {m : SMap α} {ks : List Nat} {x : Nat × α},
    x ∈ sapplyFuel d f n m ks → x ∈ m ∨ (∃ y ∈ m, x.2 = f x.1 y.2) ∨ x.2 = f x.1 d
  | 0, _, _, _, h => .inl h
  | n + 1, m, [], x, h => by cases m <;> exact .inl h
  | n + 1, [], k :: ks, x, h => by
    rcases mem_scons h with rfl | h
    · exact .inr (.inr rfl)
    · rcases mem_sapplyFuel h with h | ⟨y, hy, _⟩ | h
      · simp at h
      · simp at hy
      · exact .inr (.inr h)
  | n + 1, (j, v) :: m, k :: ks, x, h => by
    simp only [sapplyFuel] at h
    split at h
    · rcases List.mem_cons.1 h with rfl | h
      · exact .inl (by simp)
      · rcases mem_sapplyFuel h with h | ⟨y, hy, e⟩ | h
        · exact .inl (List.mem_cons_of_mem _ h)
        · exact .inr (.inl ⟨y, List.mem_cons_of_mem _ hy, e⟩)
        · exact .inr (.inr h)
    · split at h
      · rcases mem_scons h with rfl | h
        · exact .inr (.inl ⟨(j, v), by simp, rfl⟩)
        · rcases mem_sapplyFuel h with h | ⟨y, hy, e⟩ | h
          · exact .inl (List.mem_cons_of_mem _ h)
          · exact .inr (.inl ⟨y, List.mem_cons_of_mem _ hy, e⟩)
          · exact .inr (.inr h)
      · rcases mem_scons h with rfl | h
        · exact .inr (.inr rfl)
        · exact mem_sapplyFuel h

/-! ### Reading after writing -/

omit [DecidableEq α] in
theorem sget_below (d : α) {i : Nat} {m : SMap α} (h : ∀ x ∈ m, i < x.1) : sget d m i = d := by
  cases m with
  | nil => rfl
  | cons a m =>
    have := h a (by simp)
    simp [sget, this, Nat.ne_of_lt this]

theorem swfFrom_lt (d : α) {b : Nat} : ∀ {m : SMap α}, swfFrom d b m = true → ∀ x ∈ m, b ≤ x.1
  | [], _, x, hx => by simp at hx
  | (k, v) :: m, h, x, hx => by
    simp only [swfFrom, Bool.and_eq_true, decide_eq_true_eq] at h
    rcases List.mem_cons.1 hx with rfl | hx
    · exact h.1.1
    · exact Nat.le_trans (by omega) (swfFrom_lt d h.2 x hx)

theorem sget_scons_self (d : α) {k : Nat} (v : α) {m : SMap α} (h : swfFrom d (k + 1) m = true) :
    sget d (scons d k v m) k = v := by
  unfold scons
  split
  · rename_i hv; subst hv
    exact sget_below _ (fun x hx => by have := swfFrom_lt _ h x hx; omega)
  · simp [sget]

theorem sget_scons_other (d : α) {k j : Nat} (v : α) {m : SMap α} (hj : j ≠ k) (h : j < k → sget d m j = d) :
    sget d (scons d k v m) j = sget d m j := by
  unfold scons
  split
  · rfl
  · simp only [sget, if_neg hj]
    split
    · exact (h (by assumption)).symm
    · rfl

/-- A read of the key written gives what was written. -/
theorem sget_sset_self (d : α) (i : Nat) (x : α) : ∀ {b : Nat} {m : SMap α}, swfFrom d b m = true →
    sget d (sset d m i x) i = x
  | _, [], _ => sget_scons_self d x rfl
  | b, (k, v) :: m, h => by
    simp only [swfFrom, Bool.and_eq_true, decide_eq_true_eq] at h
    simp only [sset]
    split
    · subst_vars; exact sget_scons_self d x h.2
    · split
      · exact sget_scons_self d x (by simp [swfFrom, h]; omega)
      · rename_i h1 h2
        simp only [sget, if_neg h1, if_neg h2]
        exact sget_sset_self d i x h.2

/-- Every other key reads as before. -/
theorem sget_sset_other (d : α) (i j : Nat) (x : α) (hj : j ≠ i) : ∀ {b : Nat} {m : SMap α}, swfFrom d b m = true →
    sget d (sset d m i x) j = sget d m j
  | _, [], _ => sget_scons_other d x hj (fun _ => rfl)
  | b, (k, v) :: m, h => by
    simp only [swfFrom, Bool.and_eq_true, decide_eq_true_eq] at h
    simp only [sset]
    split
    · rename_i hik
      subst hik
      have e : sget d ((i, v) :: m) j = sget d m j := by
        simp only [sget, if_neg hj]
        split
        · exact (sget_below d (fun y hy => by have := swfFrom_lt d h.2 y hy; omega)).symm
        · rfl
      rw [e]
      exact sget_scons_other d x hj (fun _ => sget_below d (fun y hy => by have := swfFrom_lt d h.2 y hy; omega))
    · split
      · refine sget_scons_other d x hj (fun hl => ?_)
        refine sget_below d (fun y hy => ?_)
        rcases List.mem_cons.1 hy with rfl | hy
        · simp; omega
        · have := swfFrom_lt d h.2 y hy; omega
      · simp only [sget]
        split
        · rfl
        · split
          · rfl
          · exact sget_sset_other d i j x hj h.2

/-- A listed entry of a rewritten memory reads as the rewriting of what it read. -/
theorem sget_smap (d : α) (f : Nat → α → α) (j : Nat) (hd : f j d = d) : ∀ {b : Nat} {m : SMap α},
    swfFrom d b m = true → sget d (smap d f m) j = f j (sget d m j)
  | _, [], _ => by simp [smap, sget, hd]
  | b, (k, v) :: m, h => by
    simp only [swfFrom, Bool.and_eq_true, decide_eq_true_eq] at h
    have hm : swfFrom d (k + 1) (smap d f m) = true := swfFrom_smap d f h.2
    simp only [smap, sget]
    split
    · subst_vars; exact sget_scons_self d _ hm
    · rename_i hne
      rw [sget_scons_other d _ hne (fun _ => sget_below d (fun y hy => by have := swfFrom_lt d hm y hy; omega))]
      split
      · rw [sget_below d (fun y hy => by have := swfFrom_lt d hm y hy; omega), hd]
      · exact sget_smap d f j hd h.2

/-- A listed entry of a canonical map is what its key reads as. -/
theorem sget_mem (d : α) {x : Nat × α} [DecidableEq α] : ∀ {b : Nat} {m : SMap α}, swfFrom d b m = true → x ∈ m → sget d m x.1 = x.2 := by
  intro b m
  induction m generalizing b with
  | nil => intro _ h; cases h
  | cons a m ih =>
    intro w h
    obtain ⟨k, v⟩ := a
    simp only [swfFrom, Bool.and_eq_true, decide_eq_true_eq] at w
    rcases List.mem_cons.1 h with h | h
    · subst h; simp [sget]
    · have := swfFrom_lt d w.2 x h
      simp only [sget]
      rw [if_neg (by omega), if_neg (by omega)]
      exact ih w.2 h

/-- A read is the unlisted value or that of a listed entry. -/
theorem sget_cases (d : α) (m : SMap α) (k : Nat) : sget d m k = d ∨ ∃ x ∈ m, x.1 = k ∧ sget d m k = x.2 := by
  induction m with
  | nil => exact .inl rfl
  | cons a m ih =>
    obtain ⟨j, v⟩ := a
    simp only [sget]
    split
    · rename_i e; exact .inr ⟨(j, v), by simp, e.symm, rfl⟩
    · split
      · exact .inl rfl
      · rcases ih with h | ⟨x, hx, h⟩
        · exact .inl h
        · exact .inr ⟨x, List.mem_cons_of_mem _ hx, h⟩

/-- A write of a listed value is read back. -/
theorem sget_sset_ne {α : Type} [DecidableEq α] (d : α) (i : Nat) (x : α) (hx : x ≠ d) : ∀ m : SMap α, sget d (sset d m i x) i = x := by
  intro m
  induction m with
  | nil => simp [sset, scons, hx, sget]
  | cons a m ih =>
    obtain ⟨k, v⟩ := a
    simp only [sset]
    split
    · simp [scons, hx, sget]
    · split
      · simp [scons, hx, sget]
      · simp only [sget]
        rw [if_neg (by assumption), if_neg (by assumption)]
        exact ih

/-- And leaves every other key alone. -/
theorem sget_sset_ne_other {α : Type} [DecidableEq α] (d : α) (i j : Nat) (x : α) (hx : x ≠ d) (hj : j ≠ i) :
    ∀ m : SMap α, sget d (sset d m i x) j = sget d m j := by
  intro m
  induction m with
  | nil => simp [sset, scons, hx, sget, hj]
  | cons a m ih =>
    obtain ⟨k, v⟩ := a
    simp only [sset]
    split
    · rename_i e; subst e; simp [scons, hx, sget, hj]
    · split
      · simp only [scons, hx, if_false, sget, hj]
        split
        · rename_i h; rw [if_neg (by omega)]; rw [if_pos (by omega)]
        · rfl
      · simp only [sget]
        rw [ih]

end Sys2Proof.Machine
end

