-- ==== Sys2Proof/Laws/Secded.lean ====
section
/-! SUPPORT. What a read of a protected word finds: the code of R91 is linear, so a group as written reads good, with one bit
flipped it is corrected and with two it is lost; a ledger word as written passes its parity check and with one bit flipped fails
it (R97). -/

namespace Sys2Proof.Machine

theorem placesFold_xor {w : Nat} (x y : BitVec w) (l : List Nat) : ∀ a b : BitVec 7,
    l.foldl (fun a i => if (x ^^^ y).getLsbD i then a ^^^ BitVec.ofNat 7 (codePlace i) else a) (a ^^^ b)
      = l.foldl (fun a i => if x.getLsbD i then a ^^^ BitVec.ofNat 7 (codePlace i) else a) a
        ^^^ l.foldl (fun a i => if y.getLsbD i then a ^^^ BitVec.ofNat 7 (codePlace i) else a) b := by
  induction l with
  | nil => intro a b; rfl
  | cons i l ih =>
    intro a b
    rw [List.foldl_cons, List.foldl_cons, List.foldl_cons, ← ih]
    congr 1
    rw [BitVec.getLsbD_xor]
    generalize BitVec.ofNat 7 (codePlace i) = c
    cases x.getLsbD i <;> cases y.getLsbD i
    · simp
    · simp [BitVec.xor_assoc]
    · have h : a ^^^ c ^^^ b = a ^^^ b ^^^ c := by ac_rfl
      simp [h]
    · have h : a ^^^ c ^^^ (b ^^^ c) = a ^^^ b ^^^ (c ^^^ c) := by ac_rfl
      simp [h]

/-- The syndrome is linear. -/
theorem placesTo_xor {w : Nat} (x y : BitVec w) (n : Nat) : placesTo (x ^^^ y) n = placesTo x n ^^^ placesTo y n := by
  have h := placesFold_xor x y (List.range n) 0 0
  simpa [placesTo] using h

theorem oddFold_xor {w : Nat} (x y : BitVec w) (l : List Nat) : ∀ a b : Bool,
    l.foldl (fun a i => a ^^ (x ^^^ y).getLsbD i) (a ^^ b)
      = (l.foldl (fun a i => a ^^ x.getLsbD i) a ^^ l.foldl (fun a i => a ^^ y.getLsbD i) b) := by
  induction l with
  | nil => intro a b; rfl
  | cons i l ih =>
    intro a b
    rw [List.foldl_cons, List.foldl_cons, List.foldl_cons, ← ih]
    congr 1
    rw [BitVec.getLsbD_xor]
    cases a <;> cases b <;> cases x.getLsbD i <;> cases y.getLsbD i <;> rfl

/-- Parity is linear. -/
theorem oddTo_xor {w : Nat} (x y : BitVec w) (n : Nat) : oddTo (x ^^^ y) n = (oddTo x n ^^ oddTo y n) := by
  have h := oddFold_xor x y (List.range n) false false
  simpa [oddTo] using h

/-- The syndrome looks at the bits below n alone. -/
theorem placesTo_congr {v w : Nat} (x : BitVec v) (y : BitVec w) (n : Nat) (h : ∀ i, i < n → x.getLsbD i = y.getLsbD i) :
    placesTo x n = placesTo y n := by
  unfold placesTo
  refine List.foldl_ext _ _ _ (fun a i hi => ?_)
  rw [h i (List.mem_range.1 hi)]

/-- So does parity. -/
theorem oddTo_congr {v w : Nat} (x : BitVec v) (y : BitVec w) (n : Nat) (h : ∀ i, i < n → x.getLsbD i = y.getLsbD i) :
    oddTo x n = oddTo y n := by
  unfold oddTo
  refine List.foldl_ext _ _ _ (fun a i hi => ?_)
  rw [h i (List.mem_range.1 hi)]

theorem oddTo_succ {w : Nat} (x : BitVec w) (n : Nat) : oddTo x (n + 1) = (oddTo x n ^^ x.getLsbD n) := by
  simp [oddTo, List.range_succ]

/-- Check bits have a syndrome of their own value. -/
theorem places_check (p : BitVec 7) : placesTo (p.setWidth 88 <<< 80) 87 = p := by
  revert p
  decide +kernel

/-- The parity bit is no place of the syndrome. -/
theorem top_off (i : Nat) (h : i < 87) : (1#88 <<< 87).getLsbD i = false := by
  rw [BitVec.getLsbD_shiftLeft]
  simp [h]

/-- A group as written has syndrome 0. -/
theorem encodeGroup_places (d : BitVec 80) : placesTo (encodeGroup d) 87 = 0 := by
  have hw : placesTo (encodeGroup d) 87 = placesTo (d.setWidth 88 ^^^ (placesTo d 80).setWidth 88 <<< 80) 87 := by
    refine placesTo_congr _ _ _ (fun i hi => ?_)
    simp only [encodeGroup]
    have hj : (d.setWidth 88 ||| (placesTo d 80).setWidth 88 <<< 80).getLsbD i
        = (d.setWidth 88 ^^^ (placesTo d 80).setWidth 88 <<< 80).getLsbD i := by
      by_cases h80 : i < 80
      · simp [h80]
      · simp [BitVec.getLsbD_of_ge d i (by omega)]
    split
    · rw [BitVec.getLsbD_or, top_off i hi, Bool.or_false, hj]
    · exact hj
  have hd : placesTo (d.setWidth 88) 87 = placesTo d 80 := by
    have h0 : ∀ n, 80 ≤ n → n ≤ 87 → placesTo (d.setWidth 88) n = placesTo d 80 := by
      intro n h1 h2
      induction n, h1 using Nat.le_induction with
      | base => exact placesTo_congr _ _ _ (fun i hi => by simp; omega)
      | succ n hn ih =>
        rw [← ih (by omega)]
        have : (d.setWidth 88).getLsbD n = false := by simp [BitVec.getLsbD_of_ge d n hn]
        rw [placesTo, List.range_succ, List.foldl_append, List.foldl_cons, List.foldl_nil, this]
        rfl
    exact h0 87 (by omega) (by omega)
  rw [hw, placesTo_xor, hd, places_check, BitVec.xor_self]
  rfl

/-- A group as written has even parity. -/
theorem encodeGroup_odd (d : BitVec 80) : oddTo (encodeGroup d) 88 = false := by
  rw [oddTo_succ]
  have hb : ∀ x : BitVec 88, oddTo (x ||| 1#88 <<< 87) 87 = oddTo x 87 := fun x =>
    oddTo_congr _ _ _ (fun i hi => by
      rw [BitVec.getLsbD_or, top_off i hi, Bool.or_false])
  unfold encodeGroup
  by_cases h : oddTo (d.setWidth 88 ||| (placesTo d 80).setWidth 88 <<< 80) 87 = true
  · rw [if_pos h, hb, h]
    simp
  · rw [if_neg h]
    simp only [Bool.not_eq_true] at h
    rw [h]
    simp

/-- Flipped bits alone decide what a read of a group finds. -/
theorem classOf_flips (d : BitVec 80) (f : BitVec 88) : classOf (encodeGroup d ^^^ f) = classOf f := by
  unfold classOf
  rw [placesTo_xor, oddTo_xor, encodeGroup_places, encodeGroup_odd]
  simp

/-- A group as written reads good (R91). -/
theorem classOf_written (d : BitVec 80) : classOf (encodeGroup d) = .good := by
  have h := classOf_flips d 0#88
  rw [BitVec.xor_zero] at h
  rw [h]
  decide +kernel

/-- One flipped bit, whichever, is corrected (R91). -/
theorem classOf_one (d : BitVec 80) (i : Fin 88) : classOf (encodeGroup d ^^^ 1#88 <<< i.val) = .corrected := by
  rw [classOf_flips]
  revert i
  decide +kernel

theorem flip_places : ∀ i : Fin 88, placesTo (1#88 <<< i.val) 87 = if i.val = 87 then 0 else BitVec.ofNat 7 (codePlace i.val) := by
  decide +kernel

theorem flip_odd : ∀ i : Fin 88, oddTo (1#88 <<< i.val) 88 = true := by decide +kernel

theorem flip_distinct : ∀ i j : Fin 88, i ≠ j →
    (if i.val = 87 then 0 else BitVec.ofNat 7 (codePlace i.val)) ≠ (if j.val = 87 then 0#7 else BitVec.ofNat 7 (codePlace j.val)) := by
  decide +kernel

/-- Two flipped bits, whichever, are an uncorrectable error (R91). -/
theorem classOf_two (d : BitVec 80) (i j : Fin 88) (h : i ≠ j) :
    classOf (encodeGroup d ^^^ (1#88 <<< i.val ^^^ 1#88 <<< j.val)) = .lost := by
  rw [classOf_flips]
  unfold classOf
  rw [placesTo_xor, oddTo_xor, flip_places, flip_places, flip_odd, flip_odd]
  have hz := flip_distinct i j h
  simp only [Bool.xor_self, Bool.false_and, Bool.false_eq_true, if_false]
  rw [if_neg]
  intro hx
  exact hz (BitVec.xor_eq_zero_iff.1 hx)

/-- A ledger word as written passes its parity check (R97). -/
theorem ledgerStored_even (w : LedgerWord) : oddTo (ledgerStored w) 17 = false := by
  rw [oddTo_succ]
  have hb : ∀ x : BitVec 17, oddTo (x ||| 0x10000#17) 16 = oddTo x 16 := fun x =>
    oddTo_congr _ _ _ (fun i hi => by
      have : (0x10000#17).getLsbD i = false := by
        revert i
        decide
      simp [this])
  have hc : oddTo (w.setWidth 17) 16 = oddTo w 16 := oddTo_congr _ _ _ (fun i hi => by simp [show i < 17 by omega])
  unfold ledgerStored
  by_cases h : oddTo w 16 = true
  · rw [if_pos h, hb, hc, h]
    simp
  · simp only [Bool.not_eq_true] at h
    rw [if_neg (by simp [h])]
    simp [hc, h]

/-- With one bit flipped it fails (R97). -/
theorem ledgerStored_flip (w : LedgerWord) (i : Fin 17) : oddTo (ledgerStored w ^^^ 1#17 <<< i.val) 17 = true := by
  have h : ∀ i : Fin 17, oddTo (1#17 <<< i.val) 17 = true := by decide +kernel
  rw [oddTo_xor, ledgerStored_even, h]
  rfl

end Sys2Proof.Machine
end

