-- ==== Sys2Proof/Laws/Flips.lean ====
section
/-! SUPPORT. A group with at most two bits flipped reads as its words or as lost, so that flips which leave no group with more change
no word that a read delivers (R91). -/

namespace Sys2Proof.Machine

/-! ### Counts of set bits -/

theorem countP_flip (w : BitVec 88) (i : Nat) (n : Nat) (hn : n ≤ 88) :
    (List.range n).countP (fun k => (w ^^^ 1#88 <<< i).getLsbD k)
      = if i < n then (if w.getLsbD i then (List.range n).countP (fun k => w.getLsbD k) - 1
          else (List.range n).countP (fun k => w.getLsbD k) + 1)
        else (List.range n).countP (fun k => w.getLsbD k) := by
  induction n with
  | zero => simp
  | succ n ih =>
    have ih := ih (by omega)
    rw [List.range_succ, List.countP_append, List.countP_append, ih]
    have hb : (w ^^^ 1#88 <<< i).getLsbD n = (w.getLsbD n ^^ decide (n = i)) := by
      rw [BitVec.getLsbD_xor, BitVec.getLsbD_shiftLeft, BitVec.getLsbD_one]
      congr 1
      by_cases h : n = i
      · simp [h]; omega
      · by_cases g : n < i
        · simp [g, h]
        · simp [g, h]; omega
    simp only [List.countP_cons, List.countP_nil, Nat.zero_add, hb]
    by_cases h : n = i
    · subst h
      cases hw : w.getLsbD n <;> simp
    · by_cases g : i < n
      · have hp : w.getLsbD i = true → 0 < (List.range n).countP (fun k => w.getLsbD k) := fun hw =>
          List.countP_pos_iff.2 ⟨i, List.mem_range.2 g, hw⟩
        simp only [h, g, show i < n + 1 by omega, if_true, decide_false, Bool.xor_false]
        cases hw : w.getLsbD i
        · simp only [Bool.false_eq_true, if_false]; omega
        · have := hp hw
          simp only [if_true]; omega
      · simp [h, g, show ¬ i < n + 1 by omega]

/-- A flip moves the count by one. -/
theorem bitCount_flip (w : BitVec 88) (i : Nat) (hi : i < 88) :
    bitCount (w ^^^ 1#88 <<< i) = if w.getLsbD i then bitCount w - 1 else bitCount w + 1 := by
  have := countP_flip w i 88 (Nat.le_refl _)
  simpa [bitCount, hi] using this

theorem bitCount_zero {w : BitVec 88} (h : bitCount w = 0) : w = 0 := by
  apply BitVec.eq_of_getLsbD_eq
  intro i hi
  have := List.countP_eq_zero.1 h i (List.mem_range.2 hi)
  simpa using this

/-- Words with at most two bits set. -/
theorem bitCount_low {w : BitVec 88} (h : bitCount w ≤ 2) :
    w = 0 ∨ (∃ i : Fin 88, w = 1#88 <<< i.val) ∨ ∃ i j : Fin 88, i ≠ j ∧ w = 1#88 <<< i.val ^^^ 1#88 <<< j.val := by
  have set : ∀ v : BitVec 88, v = 0 ∨ ∃ i : Fin 88, v.getLsbD i.val = true := by
    intro v
    by_cases hv : bitCount v = 0
    · exact .inl (bitCount_zero hv)
    · obtain ⟨i, hi, hb⟩ := List.countP_pos_iff.1 (Nat.pos_of_ne_zero hv)
      exact .inr ⟨⟨i, List.mem_range.1 hi⟩, hb⟩
  rcases set w with h0 | ⟨i, hi⟩
  · exact .inl h0
  refine .inr ?_
  have h1 := bitCount_flip w i i.isLt
  rw [hi, if_pos rfl] at h1
  have back : ∀ (u v : BitVec 88), u ^^^ v = 0 → u = v := fun u v e => BitVec.xor_eq_zero_iff.1 e
  rcases set (w ^^^ 1#88 <<< i.val) with h0 | ⟨j, hj⟩
  · exact .inl ⟨i, back _ _ h0⟩
  refine .inr ⟨i, j, ?_, ?_⟩
  · rintro rfl
    rw [BitVec.getLsbD_xor, hi] at hj
    simp at hj
  · have h2 := bitCount_flip (w ^^^ 1#88 <<< i.val) j j.isLt
    rw [hj, if_pos rfl] at h2
    have h3 := bitCount_zero (w := w ^^^ 1#88 <<< i.val ^^^ 1#88 <<< j.val) (by omega)
    rw [BitVec.xor_assoc] at h3
    exact back _ _ h3

/-! ### Reads of a group -/

theorem encodeGroup_data (d : BitVec 80) : (encodeGroup d).setWidth 80 = d := by
  apply BitVec.eq_of_getLsbD_eq
  intro i hi
  unfold encodeGroup
  dsimp only
  split <;> simp [hi, show i < 88 by omega, show i < 87 by omega]

theorem corrected_one : ∀ i : Fin 88,
    firstTo 87 (fun k => BitVec.ofNat 7 (codePlace k) == (if i.val = 87 then 0 else BitVec.ofNat 7 (codePlace i.val)))
      = if i.val = 87 then none else some i.val := by decide +kernel

/-- One flipped bit, whichever, is found (R91). -/
theorem correctedWord_one (d : BitVec 80) (i : Fin 88) : correctedWord (encodeGroup d ^^^ 1#88 <<< i.val) = encodeGroup d := by
  unfold correctedWord
  dsimp only
  rw [placesTo_xor, encodeGroup_places, flip_places, show ∀ x : BitVec 7, (0 : BitVec 7) ^^^ x = x from fun x => BitVec.zero_xor, corrected_one]
  by_cases h : i.val = 87
  · simp [h, BitVec.xor_assoc]
  · simp [h, BitVec.xor_assoc]

/-- What a read delivers with at most two bits flipped. -/
theorem read_low (d : BitVec 80) {f : BitVec 88} (h : bitCount f ≤ 2) :
    (classOf (encodeGroup d ^^^ f) = .good ∧ encodeGroup d ^^^ f = encodeGroup d)
      ∨ (classOf (encodeGroup d ^^^ f) = .corrected ∧ correctedWord (encodeGroup d ^^^ f) = encodeGroup d)
      ∨ classOf (encodeGroup d ^^^ f) = .lost := by
  rcases bitCount_low h with rfl | ⟨i, rfl⟩ | ⟨i, j, hij, rfl⟩
  · refine .inl ?_
    rw [show encodeGroup d ^^^ (0 : BitVec 88) = encodeGroup d from BitVec.xor_zero]
    exact ⟨classOf_written d, rfl⟩
  · exact .inr (.inl ⟨classOf_one d i, correctedWord_one d i⟩)
  · exact .inr (.inr (classOf_two d i j hij))

/-! ### Groups in the frame store -/

/-- Writing what a key reads as changes nothing. -/
theorem sset_sget {α : Type} [DecidableEq α] (d : α) (k : Nat) : ∀ {b : Nat} {m : SMap α}, swfFrom d b m = true → sset d m k (sget d m k) = m
  | _, [], _ => by simp [sget, sset, scons]
  | _, (j, v) :: m, h => by
    simp only [swfFrom, Bool.and_eq_true, decide_eq_true_eq] at h
    simp only [sset, sget]
    by_cases e : k = j
    · subst e; simp [scons, h.1.2]
    · by_cases g : k < j
      · simp [e, g, scons]
      · simp [e, g, sset_sget d k h.2]

/-- A lane of four. -/
theorem lane_of (a b c d : BitVec 20) :
    let w : BitVec 80 := a.setWidth 80 <<< (20 * 0) ||| b.setWidth 80 <<< (20 * 1) ||| c.setWidth 80 <<< (20 * 2) ||| d.setWidth 80 <<< (20 * 3)
    (w >>> (20 * 0)).setWidth 20 = a ∧ (w >>> (20 * 1)).setWidth 20 = b ∧ (w >>> (20 * 2)).setWidth 20 = c
      ∧ (w >>> (20 * 3)).setWidth 20 = d := by
  have off : ∀ (x : BitVec 20) (i : Nat), 20 ≤ i → x.getLsbD i = false := fun x i h => BitVec.getLsbD_of_ge x i h
  refine ⟨?_, ?_, ?_, ?_⟩ <;> apply BitVec.eq_of_getLsbD_eq <;> intro i hi <;>
    simp only [BitVec.getLsbD_setWidth, BitVec.getLsbD_ushiftRight, BitVec.getLsbD_or, BitVec.getLsbD_shiftLeft, hi, decide_true, Bool.true_and]
  · simp [show i < 80 by omega, show i < 20 by omega, show i < 40 by omega, show i < 60 by omega]
  · simp [show 20 + i < 80 by omega, show ¬ 20 + i < 20 by omega, show 20 + i < 40 by omega, show 20 + i < 60 by omega, show i < 80 by omega, off a _ (show 20 ≤ 20 + i by omega)]
  · simp [show 40 + i < 80 by omega, show ¬ 40 + i < 20 by omega, show ¬ 40 + i < 40 by omega, show 40 + i < 60 by omega, off a _ (show 20 ≤ 40 + i by omega), off b _ (show 20 ≤ 20 + i by omega), show i < 80 by omega, show 40 + i - 20 = 20 + i by omega]
  · simp [show 60 + i < 80 by omega, show ¬ 60 + i < 20 by omega, show ¬ 60 + i < 40 by omega, show ¬ 60 + i < 60 by omega, off a _ (show 20 ≤ 60 + i by omega), off b _ (show 20 ≤ 40 + i by omega), off c _ (show 20 ≤ 20 + i by omega), show i < 80 by omega, show 60 + i - 20 = 40 + i by omega, show 60 + i - 40 = 20 + i by omega]

/-- A group rewritten with its own data is as it was. -/
theorem putGroup_same (s : State) (g : Nat) (h : swf unknownWord s.mem.pixels = true) : s.putGroup g (s.groupData g) = s := by
  have hl := lane_of (s.pixel (g / 768) (g % 768 * 4 + 0)) (s.pixel (g / 768) (g % 768 * 4 + 1)) (s.pixel (g / 768) (g % 768 * 4 + 2))
    (s.pixel (g / 768) (g % 768 * 4 + 3))
  have hm : ∀ k, k < 4 → sset unknownWord s.mem.pixels (pixelKey (g / 768) (g % 768 * 4 + k))
      ((s.groupData g >>> (20 * k)).setWidth 20) = s.mem.pixels := by
    intro k hk
    have e : (s.groupData g >>> (20 * k)).setWidth 20 = sget unknownWord s.mem.pixels (pixelKey (g / 768) (g % 768 * 4 + k)) := by
      obtain ⟨h0, h1, h2, h3⟩ := hl
      have : k = 0 ∨ k = 1 ∨ k = 2 ∨ k = 3 := by omega
      rcases this with rfl | rfl | rfl | rfl
      · exact h0
      · exact h1
      · exact h2
      · exact h3
    rw [e]
    exact sset_sget _ _ h
  unfold State.putGroup
  simp only [show List.range 4 = [0, 1, 2, 3] from rfl, List.foldl_cons, List.foldl_nil]
  rw [hm 0 (by omega), hm 1 (by omega), hm 2 (by omega), hm 3 (by omega)]

/-- A group whose stored bits differ from its words' code in at most two keeps its words. -/
theorem storeGroup_low (s : State) (g : Nat) {f : BitVec 88} (hp : swf unknownWord s.mem.pixels = true) (h : bitCount f ≤ 2) :
    s.storeGroup g (encodeGroup (s.groupData g) ^^^ f) = { s with mem.flips := sset 0 s.mem.flips g f } := by
  have hd : encodeGroup (s.groupData g) ^^^ f ^^^ encodeGroup (s.groupData g) = f := by
    rw [BitVec.xor_comm (encodeGroup _) f, BitVec.xor_assoc, BitVec.xor_self, BitVec.xor_zero]
  unfold State.storeGroup
  rcases read_low (s.groupData g) h with ⟨hc, hw⟩ | ⟨hc, hw⟩ | hc
  · rw [hc]
    dsimp only
    have e : s.putGroup g ((encodeGroup (s.groupData g) ^^^ f).setWidth 80) = s := by
      rw [hw, encodeGroup_data]
      exact putGroup_same s g hp
    rw [e, hd]
  · rw [hc]
    dsimp only
    rw [hw, encodeGroup_data, putGroup_same s g hp, hd]
  · rw [hc]
    dsimp only
    rw [hd]

end Sys2Proof.Machine
end

