-- ==== Sys2Proof/Laws/KeyFrame.lean ====
section
/-! SUPPORT. The operations that touch neither the frame store, the ledger nor the one-time-programmable cells: one lemma
each, that the key after it is the key before. -/

namespace Sys2Proof.Machine

@[simp] theorem abandonEntry_key : ∀ x0, (State.abandonEntry x0).key = x0.key := by
  intros
  simp [State.abandonEntry]

@[simp] theorem attnArises_key : ∀ x0 x1, (State.attnArises x0 x1).key = x0.key := by
  intros
  simp [State.attnArises]

@[simp] theorem hwSet_key : ∀ x0 x1 x2, (State.hwSet x0 x1 x2).key = x0.key := by
  intros
  simp [State.hwSet]

@[simp] theorem flagRw_key : ∀ x0 x1, (State.flagRw x0 x1).key = x0.key := by
  intros
  simp [State.flagRw]

@[simp] theorem abandonRecord_key : ∀ x0, (State.abandonRecord x0).key = x0.key := by
  intros
  simp [State.abandonRecord]

@[simp] theorem mapDrills_key : ∀ x0 x1, (State.mapDrills x0 x1).key = x0.key := by
  intros
  simp [State.mapDrills]

@[simp] theorem abandonTests_key : ∀ x0, (State.abandonTests x0).key = x0.key := by
  intros
  simp [State.abandonTests]

@[simp] theorem freeStaging_key : ∀ x0, (State.freeStaging x0).key = x0.key := by
  intros
  simp [State.freeStaging]

@[simp] theorem abortLoad_key : ∀ x0, (State.abortLoad x0).key = x0.key := by
  intros
  simp [State.abortLoad]

@[simp] theorem draw_key : ∀ x0, (State.draw x0).2.key = x0.key := by
  intros
  simp [State.draw]

@[simp] theorem allocate_key : ∀ x0 x1, (State.allocate x0 x1).2.key = x0.key := by
  intros
  simp [State.allocate]

@[simp] theorem setPgh_key : ∀ x0 x1 x2, (State.setPgh x0 x1 x2).key = x0.key := by
  intros
  simp [State.setPgh]

@[simp] theorem modPgh_key : ∀ x0 x1 x2, (State.modPgh x0 x1 x2).key = x0.key := by
  intros
  simp [State.modPgh]

@[simp] theorem storePayload_key : ∀ x0 x1, (State.storePayload x0 x1).2.key = x0.key := by
  intros
  unfold State.storePayload
  (repeat' split) <;> simp

@[simp] theorem drawTicket_key : ∀ x0, (State.drawTicket x0).2.key = x0.key := by
  intros
  simp [State.drawTicket]

@[simp] theorem acceptUpdate_key : ∀ x0 x1 x2, (State.acceptUpdate x0 x1 x2).key = x0.key := by
  intros
  simp [State.acceptUpdate]

@[simp] theorem addCause_key : ∀ x0 x1, (State.addCause x0 x1).key = x0.key := by
  intros
  simp [State.addCause]

@[simp] theorem addCharge_key : ∀ x0 x1, (State.addCharge x0 x1).key = x0.key := by
  intros
  unfold State.addCharge
  exact key_foldl _ (fun _ _ => by simp) _ _

@[simp] theorem ageWaiting_key : ∀ x0 x1, (State.ageWaiting x0 x1).key = x0.key := by
  intros
  simp [State.ageWaiting, key_foldl]

@[simp] theorem alarmCauses_key : ∀ x0 x1, (State.alarmCauses x0 x1).key = x0.key := by
  intros
  simp [State.alarmCauses]

@[simp] theorem sendReply_key : ∀ x0 x1 x2 x3 x4 x5, (State.sendReply x0 x1 x2 x3 x4 x5).key = x0.key := by
  intros
  simp [State.sendReply]

@[simp] theorem keepReply_key : ∀ x0 x1 x2 x3 x4 x5, (State.keepReply x0 x1 x2 x3 x4 x5).key = x0.key := by
  intros
  unfold State.keepReply
  (repeat' split) <;> simp

@[simp] theorem answer_key : ∀ x0 x1 x2 x3 x4 x5 x6 x7, (State.answer x0 x1 x2 x3 x4 x5 x6 x7).key = x0.key := by
  intros
  simp [State.answer]

@[simp] theorem applyTrims_key : ∀ x0, (State.applyTrims x0).key = x0.key := by
  intros
  simp [State.applyTrims]

@[simp] theorem arbitrate_key : ∀ x0 x1, (State.arbitrate x0 x1).key = x0.key := by
  intros
  simp [State.arbitrate]

@[simp] theorem countRace_key : ∀ x0 x1 x2, (State.countRace x0 x1 x2).key = x0.key := by
  intros
  simp [State.countRace]

@[simp] theorem heldEvent_key : ∀ x0 x1, (State.heldEvent x0 x1).key = x0.key := by
  intros
  unfold State.heldEvent
  (repeat' split) <;> simp

@[simp] theorem beginReturn_key : ∀ x0 x1, (State.beginReturn x0 x1).key = x0.key := by
  intros
  simp [State.beginReturn]

@[simp] theorem wakeEvent_key : ∀ x0 x1, (State.wakeEvent x0 x1).key = x0.key := by
  intros
  unfold State.wakeEvent
  (repeat' split) <;> simp

@[simp] theorem attend_key : ∀ x0, (State.attend x0).key = x0.key := by
  intros
  simp [State.attend]

@[simp] theorem modAux_key : ∀ x0 x1 x2, (State.modAux x0 x1 x2).key = x0.key := by
  intros
  simp [State.modAux]

@[simp] theorem reach_key : ∀ x0 x1, (State.reach x0 x1).key = x0.key := by
  intros
  simp [State.reach]

@[simp] theorem auxDown_key : ∀ x0 x1, (State.auxDown x0 x1).key = x0.key := by
  intros
  unfold State.auxDown
  (repeat' split) <;> simp

@[simp] theorem auxGood_key : ∀ x0 x1, (State.auxGood x0 x1).key = x0.key := by
  intros
  unfold State.auxGood
  (repeat' split) <;> simp

@[simp] theorem auxStart_key : ∀ x0 x1, (State.auxStart x0 x1).key = x0.key := by
  intros
  simp [State.auxStart]

@[simp] theorem auxStop_key : ∀ x0 x1 x2, (State.auxStop x0 x1 x2).key = x0.key := by
  intros
  simp [State.auxStop]

@[simp] theorem backupAlive_key : ∀ x0 x1, (State.backupAlive x0 x1).key = x0.key := by
  intros
  simp [State.backupAlive]

@[simp] theorem before_key : ∀ x0, (State.before x0).key = x0.key := by
  intros
  simp [State.before]

@[simp] theorem beginOp_key : ∀ x0 x1, (State.beginOp x0 x1).key = x0.key := by
  intros
  simp [State.beginOp]

@[simp] theorem beginAsk_key : ∀ x0 x1, (State.beginAsk x0 x1).key = x0.key := by
  intros
  unfold State.beginAsk
  (repeat' split) <;> simp

@[simp] theorem beginCheck_key : ∀ x0 x1 x2, (State.beginCheck x0 x1 x2).key = x0.key := by
  intros
  simp [State.beginCheck]

@[simp] theorem typesetFor_key : ∀ x0 x1, (State.typesetFor x0 x1).key = x0.key := by
  intros
  simp [State.typesetFor]

@[simp] theorem typeset_key : ∀ x0, (State.typeset x0).key = x0.key := by
  intros
  simp [State.typeset]

@[simp] theorem lightsOff_key : ∀ x0, (State.lightsOff x0).key = x0.key := by
  intros
  simp [State.lightsOff]

@[simp] theorem modLsw_key : ∀ x0 x1 x2, (State.modLsw x0 x1 x2).key = x0.key := by
  intros
  simp [State.modLsw]

@[simp] theorem lswFollow_key : ∀ x0 x1, (State.lswFollow x0 x1).key = x0.key := by
  intros
  simp [State.lswFollow]

@[simp] theorem dropLsw_key : ∀ x0 x1, (State.dropLsw x0 x1).key = x0.key := by
  intros
  simp [State.dropLsw]

@[simp] theorem dropAux_key : ∀ x0 x1 x2, (State.dropAux x0 x1 x2).key = x0.key := by
  intros
  simp [State.dropAux]

@[simp] theorem dropItems_key : ∀ x0 x1 x2, (State.dropItems x0 x1 x2).key = x0.key := by
  intros
  simp [State.dropItems, key_foldl]

@[simp] theorem setEnable_key : ∀ x0 x1 x2, (State.setEnable x0 x1 x2).key = x0.key := by
  intros
  simp [State.setEnable]

@[simp] theorem vcomRampUp_key : ∀ x0, (State.vcomRampUp x0).key = x0.key := by
  intros
  simp [State.vcomRampUp]

@[simp] theorem startVcomStep_key : ∀ x0, (State.startVcomStep x0).key = x0.key := by
  intros
  simp [State.startVcomStep]

@[simp] theorem startUpStep_key : ∀ x0 x1, (State.startUpStep x0 x1).key = x0.key := by
  intros
  simp [State.startUpStep]

@[simp] theorem nextUp_key : ∀ x0 x1, (State.nextUp x0 x1).key = x0.key := by
  intros
  unfold State.nextUp
  (repeat' split) <;> simp

@[simp] theorem showPhase_key : ∀ x0 x1, (State.showPhase x0 x1).key = x0.key := by
  intros
  simp [State.showPhase]

@[simp] theorem beginRailUp_key : ∀ x0, (State.beginRailUp x0).key = x0.key := by
  intros
  simp [State.beginRailUp]

@[simp] theorem deliveryUp_key : ∀ x0, (State.deliveryUp x0).key = x0.key := by
  intros
  simp [State.deliveryUp]

@[simp] theorem beginDelivery_key : ∀ x0, (State.beginDelivery x0).key = x0.key := by
  intros
  simp [State.beginDelivery]

@[simp] theorem mapPgh_key : ∀ x0 x1, (State.mapPgh x0 x1).key = x0.key := by
  intros
  simp [State.mapPgh]

@[simp] theorem withdraw_key : ∀ x0 x1, (State.withdraw x0 x1).key = x0.key := by
  intros
  simp [State.withdraw]

@[simp] theorem beginEntry_key : ∀ x0 x1, (State.beginEntry x0 x1).key = x0.key := by
  intros
  simp [State.beginEntry]

@[simp] theorem beginFrame_key : ∀ x0, (State.beginFrame x0).key = x0.key := by
  intros
  simp [State.beginFrame]

@[simp] theorem beginGauge_key : ∀ x0, (State.beginGauge x0).key = x0.key := by
  intros
  simp [State.beginGauge]

@[simp] theorem beginRecheck_key : ∀ x0, (State.beginRecheck x0).key = x0.key := by
  intros
  unfold State.beginRecheck
  (repeat' split) <;> simp

@[simp] theorem beginRound_key : ∀ x0 x1, (State.beginRound x0 x1).key = x0.key := by
  intros
  simp [State.beginRound]

@[simp] theorem clearStores_key : ∀ x0 x1, (State.clearStores x0 x1).key = x0.key := by
  intros
  simp [State.clearStores]

@[simp] theorem modDrill_key : ∀ x0 x1 x2, (State.modDrill x0 x1 x2).key = x0.key := by
  intros
  simp [State.modDrill]

@[simp] theorem beginTest_key : ∀ x0 x1 x2 x3, (State.beginTest x0 x1 x2 x3).key = x0.key := by
  intros
  simp [State.beginTest]

@[simp] theorem freeWindows_key : ∀ x0 x1, (State.freeWindows x0 x1).key = x0.key := by
  intros
  simp [State.freeWindows]

@[simp] theorem reachDone_key : ∀ x0 x1, (State.reachDone x0 x1).key = x0.key := by
  intros
  simp [State.reachDone]

@[simp] theorem putWindow_key : ∀ x0 x1 x2, (State.putWindow x0 x1 x2).key = x0.key := by
  intros
  simp [State.putWindow]

@[simp] theorem placeCancel_key : ∀ x0 x1, (State.placeCancel x0 x1).key = x0.key := by
  intros
  unfold State.placeCancel
  (repeat' split) <;> simp

@[simp] theorem settleKept_key : ∀ x0, (State.settleKept x0).key = x0.key := by
  intros
  simp [State.settleKept]

@[simp] theorem cancelPgh_key : ∀ x0 x1, (State.cancelPgh x0 x1).key = x0.key := by
  intros
  unfold State.cancelPgh
  dsimp only
  (repeat' split) <;> simp [key_foldl]

@[simp] theorem changeRate_key : ∀ x0, (State.changeRate x0).key = x0.key := by
  intros
  unfold State.changeRate
  (repeat' split) <;> simp

@[simp] theorem chargeFollow_key : ∀ x0, (State.chargeFollow x0).key = x0.key := by
  intros
  simp [State.chargeFollow]

@[simp] theorem chargerFull_key : ∀ x0, (State.chargerFull x0).key = x0.key := by
  intros
  simp [State.chargerFull]

@[simp] theorem chargingResumes_key : ∀ x0, (State.chargingResumes x0).key = x0.key := by
  intros
  simp [State.chargingResumes]

@[simp] theorem clearBak_key : ∀ x0 x1, (State.clearBak x0 x1).key = x0.key := by
  intros
  simp [State.clearBak]

@[simp] theorem ledFollow_key : ∀ x0 x1, (State.ledFollow x0 x1).key = x0.key := by
  intros
  simp [State.ledFollow]

@[simp] theorem clearLedLatch_key : ∀ x0 x1 x2, (State.clearLedLatch x0 x1 x2).key = x0.key := by
  intros
  simp [State.clearLedLatch, key_foldl]

@[simp] theorem clearBits_key : ∀ x0 x1 x2, (State.clearBits x0 x1 x2).key = x0.key := by
  intros
  unfold State.clearBits
  (repeat' split) <;> simp

@[simp] theorem clearDefer_key : ∀ x0, (State.clearDefer x0).key = x0.key := by
  intros
  simp [State.clearDefer]

@[simp] theorem closeLoad_key : ∀ x0, (State.closeLoad x0).key = x0.key := by
  intros
  simp [State.closeLoad]

@[simp] theorem markComplete_key : ∀ x0, (State.markComplete x0).key = x0.key := by
  intros
  simp [State.markComplete]

@[simp] theorem freeHidden_key : ∀ x0, (State.freeHidden x0).key = x0.key := by
  intros
  simp [State.freeHidden, key_foldl]

@[simp] theorem markLost_key : ∀ x0, (State.markLost x0).key = x0.key := by
  intros
  simp [State.markLost]

@[simp] theorem placeCancels_key : ∀ x0, (State.placeCancels x0).key = x0.key := by
  intros
  simp [State.placeCancels, key_foldl]

@[simp] theorem complete_key : ∀ x0, (State.complete x0).key = x0.key := by
  intros
  simp [State.complete, key_foldl]

@[simp] theorem firstRequest_key : ∀ x0, (State.firstRequest x0).key = x0.key := by
  intros
  simp [State.firstRequest]

@[simp] theorem completed_key : ∀ x0, (State.completed x0).key = x0.key := by
  intros
  simp [State.completed]

@[simp] theorem copyMatch_key : ∀ x0, (State.copyMatch x0).key = x0.key := by
  intros
  simp [State.copyMatch]

@[simp] theorem countHeld_key : ∀ x0 x1, (State.countHeld x0 x1).key = x0.key := by
  intros
  simp [State.countHeld]

@[simp] theorem countMended_key : ∀ x0 x1, (State.countMended x0 x1).key = x0.key := by
  intros
  simp [State.countMended]

@[simp] theorem forgetReplies_key : ∀ x0, (State.forgetReplies x0).key = x0.key := by
  intros
  simp [State.forgetReplies]

@[simp] theorem cutShort_key : ∀ x0 x1, (State.cutShort x0 x1).key = x0.key := by
  intros
  simp [State.cutShort]

@[simp] theorem darkTail_key : ∀ x0, (State.darkTail x0).key = x0.key := by
  intros
  simp [State.darkTail]

@[simp] theorem giveSlots_key : ∀ x0 x1, (State.giveSlots x0 x1).key = x0.key := by
  intros
  simp [State.giveSlots]

@[simp] theorem doGrow_key : ∀ x0, (State.doGrow x0).key = x0.key := by
  intros
  simp [State.doGrow]

@[simp] theorem handSlot_key : ∀ x0 x1 x2, (State.handSlot x0 x1 x2).key = x0.key := by
  intros
  simp [State.handSlot]

@[simp] theorem doSwap_key : ∀ x0, (State.doSwap x0).key = x0.key := by
  intros
  unfold State.doSwap
  (repeat' split) <;> simp

@[simp] theorem drainBoundary_key : ∀ x0, (State.drainBoundary x0).key = x0.key := by
  intros
  simp [State.drainBoundary]

@[simp] theorem dropReply_key : ∀ x0, (State.dropReply x0).key = x0.key := by
  intros
  unfold State.dropReply
  (repeat' split) <;> simp

@[simp] theorem startDrop_key : ∀ x0 x1, (State.startDrop x0 x1).key = x0.key := by
  intros
  simp [State.startDrop]

@[simp] theorem dropStep_key : ∀ x0 x1, (State.dropStep x0 x1).key = x0.key := by
  intros
  simp [State.dropStep]

@[simp] theorem dstLand_key : ∀ x0 x1, (State.dstLand x0 x1).key = x0.key := by
  intros
  simp [State.dstLand]

@[simp] theorem easeChanged_key : ∀ x0, (State.easeChanged x0).key = x0.key := by
  intros
  simp [State.easeChanged]

@[simp] theorem sendFrame_key : ∀ x0 x1, (State.sendFrame x0 x1).key = x0.key := by
  intros
  simp [State.sendFrame]

@[simp] theorem refreshStatus_key : ∀ x0, (State.refreshStatus x0).key = x0.key := by
  intros
  simp [State.refreshStatus]

@[simp] theorem rejected_key : ∀ x0 x1, (State.rejected x0 x1).key = x0.key := by
  intros
  simp [State.rejected]

@[simp] theorem markSession_key : ∀ x0 x1, (State.markSession x0 x1).1.key = x0.key := by
  intros
  unfold State.markSession
  (repeat' split) <;> simp

@[simp] theorem verified_key : ∀ x0 x1, (State.verified x0 x1).1.key = x0.key := by
  intros
  simp [State.verified]

@[simp] theorem endCheck_key : ∀ x0 x1 x2 x3, (State.endCheck x0 x1 x2 x3).key = x0.key := by
  intros
  unfold State.endCheck
  dsimp only
  (repeat' split) <;> simp [key_foldl]

@[simp] theorem endKeptWrite_key : ∀ x0, (State.endKeptWrite x0).key = x0.key := by
  intros
  unfold State.endKeptWrite
  (repeat' split) <;> simp

@[simp] theorem endRecheck_key : ∀ x0, (State.endRecheck x0).key = x0.key := by
  intros
  unfold State.endRecheck
  (repeat' split) <;> simp

@[simp] theorem markState_key : ∀ x0, (State.markState x0).key = x0.key := by
  intros
  simp [State.markState]

@[simp] theorem endReturn_key : ∀ x0, (State.endReturn x0).key = x0.key := by
  intros
  simp [State.endReturn]

@[simp] theorem fillHidden_key : ∀ x0 x1, (State.fillHidden x0 x1).key = x0.key := by
  intros
  unfold State.fillHidden
  dsimp only
  (repeat' split) <;> simp [key_foldl]

@[simp] theorem fillAll_key : ∀ x0, (State.fillAll x0).key = x0.key := by
  intros
  simp [State.fillAll, key_foldl]

@[simp] theorem fillZero_key : ∀ x0 x1, (State.fillZero x0 x1).key = x0.key := by
  intros
  simp [State.fillZero]

@[simp] theorem findBands_key : ∀ x0, (State.findBands x0).key = x0.key := by
  intros
  simp [State.findBands]

@[simp] theorem firstRender_key : ∀ x0, (State.firstRender x0).key = x0.key := by
  intros
  simp [State.firstRender]

@[simp] theorem flagAlarms_key : ∀ x0 x1, (State.flagAlarms x0 x1).key = x0.key := by
  intros
  simp [State.flagAlarms]

@[simp] theorem formEnergy_key : ∀ x0, (State.formEnergy x0).key = x0.key := by
  intros
  simp [State.formEnergy]

@[simp] theorem formPower_key : ∀ x0, (State.formPower x0).key = x0.key := by
  intros
  simp [State.formPower]

@[simp] theorem latchCharge_key : ∀ x0, (State.latchCharge x0).key = x0.key := by
  intros
  simp [State.latchCharge]

@[simp] theorem frameEnergy_key : ∀ x0, (State.frameEnergy x0).key = x0.key := by
  intros
  simp [State.frameEnergy]

@[simp] theorem freeGrids_key : ∀ x0, (State.freeGrids x0).key = x0.key := by
  intros
  simp [State.freeGrids]

@[simp] theorem freePort_key : ∀ x0, (State.freePort x0).key = x0.key := by
  intros
  simp [State.freePort]

@[simp] theorem letterStart_key : ∀ x0, (State.letterStart x0).key = x0.key := by
  intros
  simp [State.letterStart]

@[simp] theorem gap_key : ∀ x0, (State.gap x0).key = x0.key := by
  intros
  simp [State.gap]

@[simp] theorem gaugeDone_key : ∀ x0 x1 x2 x3, (State.gaugeDone x0 x1 x2 x3).key = x0.key := by
  intros
  unfold State.gaugeDone
  (repeat' split) <;> simp

@[simp] theorem gaugeStart_key : ∀ x0, (State.gaugeStart x0).key = x0.key := by
  intros
  unfold State.gaugeStart
  (repeat' split) <;> simp

@[simp] theorem giveBanks_key : ∀ x0 x1, (State.giveBanks x0 x1).key = x0.key := by
  intros
  simp [State.giveBanks]

@[simp] theorem graceOver_key : ∀ x0 x1, (State.graceOver x0 x1).key = x0.key := by
  intros
  unfold State.graceOver
  dsimp only
  (repeat' split) <;> simp [key_foldl]

@[simp] theorem grant_key : ∀ x0 x1, (State.grant x0 x1).key = x0.key := by
  intros
  unfold State.grant
  (repeat' split) <;> simp

@[simp] theorem headlandBegin_key : ∀ x0, (State.headlandBegin x0).key = x0.key := by
  intros
  simp [State.headlandBegin]

@[simp] theorem hedgeAtOnce_key : ∀ x0, (State.hedgeAtOnce x0).key = x0.key := by
  intros
  simp [State.hedgeAtOnce]

@[simp] theorem hedgeDue_key : ∀ x0, (State.hedgeDue x0).key = x0.key := by
  intros
  simp [State.hedgeDue]

@[simp] theorem hedgeTail_key : ∀ x0, (State.hedgeTail x0).key = x0.key := by
  intros
  simp [State.hedgeTail]

@[simp] theorem helloLetter_key : ∀ x0 x1, (State.helloLetter x0 x1).key = x0.key := by
  intros
  simp [State.helloLetter]

@[simp] theorem holds_key : ∀ x0 x1, (State.holds x0 x1).key = x0.key := by
  intros
  simp [State.holds]

@[simp] theorem takeRecord_key : ∀ x0 x1, (State.takeRecord x0 x1).key = x0.key := by
  intros
  simp [State.takeRecord]

@[simp] theorem hunt_key : ∀ x0 x1, (State.hunt x0 x1).key = x1.key := by
  intro n s
  induction n generalizing s with
  | zero => rfl
  | succ n ih =>
    unfold State.hunt
    dsimp only
    split
    · rfl
    · split <;> simp
    · (repeat' split) <;> simp [ih]

@[simp] theorem keepCodes_key : ∀ x0, (State.keepCodes x0).key = x0.key := by
  intros
  simp [State.keepCodes]

@[simp] theorem keptWritten_key : ∀ x0, (State.keptWritten x0).key = x0.key := by
  intros
  simp [State.keptWritten]

@[simp] theorem landLed_key : ∀ x0 x1 x2, (State.landLed x0 x1 x2).key = x0.key := by
  intros
  simp [State.landLed]

@[simp] theorem landLswEn_key : ∀ x0 x1 x2, (State.landLswEn x0 x1 x2).key = x0.key := by
  intros
  simp [State.landLswEn]

@[simp] theorem landTrim_key : ∀ x0 x1 x2, (State.landTrim x0 x1 x2).key = x0.key := by
  intros
  simp [State.landTrim]

@[simp] theorem lastDouble_key : ∀ x0 x1, (State.lastDouble x0 x1).key = x0.key := by
  intros
  unfold State.lastDouble
  (repeat' split) <;> simp

@[simp] theorem linkUp_key : ∀ x0, (State.linkUp x0).key = x0.key := by
  intros
  simp [State.linkUp]

@[simp] theorem loadRom_key : ∀ x0, (State.loadRom x0).key = x0.key := by
  intros
  simp [State.loadRom]

@[simp] theorem loadStores_key : ∀ x0 x1, (State.loadStores x0 x1).key = x0.key := by
  intros
  simp [State.loadStores]

@[simp] theorem locked_key : ∀ x0, (State.locked x0).key = x0.key := by
  intros
  simp [State.locked]

@[simp] theorem logBands_key : ∀ x0, (State.logBands x0).key = x0.key := by
  intros
  simp [State.logBands]

@[simp] theorem loseSweep_key : ∀ x0 x1, (State.loseSweep x0 x1).key = x0.key := by
  intros
  simp [State.loseSweep]

@[simp] theorem mapPlots_key : ∀ x0 x1, (State.mapPlots x0 x1).key = x0.key := by
  intros
  simp [State.mapPlots]

@[simp] theorem markAlmLost_key : ∀ x0, (State.markAlmLost x0).key = x0.key := by
  intros
  simp [State.markAlmLost]

@[simp] theorem markCancelHit_key : ∀ x0 x1 x2, (State.markCancelHit x0 x1 x2).key = x0.key := by
  intros
  simp [State.markCancelHit]

@[simp] theorem markPreempted_key : ∀ x0 x1 x2, (State.markPreempted x0 x1 x2).key = x0.key := by
  intros
  simp [State.markPreempted]

@[simp] theorem newPeriod_key : ∀ x0, (State.newPeriod x0).key = x0.key := by
  intros
  simp [State.newPeriod]

@[simp] theorem vcomRampDown_key : ∀ x0 x1, (State.vcomRampDown x0 x1).key = x0.key := by
  intros
  simp [State.vcomRampDown]

@[simp] theorem nextDown_key : ∀ x0 x1, (State.nextDown x0 x1).1.key = x0.key := by
  intros
  unfold State.nextDown
  (repeat' split) <;> simp

@[simp] theorem notRelocked_key : ∀ x0, (State.notRelocked x0).key = x0.key := by
  intros
  simp [State.notRelocked]

@[simp] theorem openLoad_key : ∀ x0, (State.openLoad x0).key = x0.key := by
  intros
  simp [State.openLoad]

@[simp] theorem openingAtDelivery_key : ∀ x0, (State.openingAtDelivery x0).key = x0.key := by
  intros
  simp [State.openingAtDelivery]

@[simp] theorem passed_key : ∀ x0 x1, (State.passed x0 x1).key = x0.key := by
  intros
  simp [State.passed]

@[simp] theorem releasePgh_key : ∀ x0 x1, (State.releasePgh x0 x1).key = x0.key := by
  intros
  simp [State.releasePgh]

@[simp] theorem pghAct_key : ∀ x0 x1 x2, (State.pghAct x0 x1 x2).key = x0.key := by
  intros
  simp [State.pghAct]

@[simp] theorem pghActs_key : ∀ x0 x1 x2, (State.pghActs x0 x1 x2).key = x0.key := by
  intros
  simp [State.pghActs, key_foldl]

@[simp] theorem placePreempt_key : ∀ x0 x1 x2, (State.placePreempt x0 x1 x2).key = x0.key := by
  intros
  unfold State.placePreempt
  (repeat' split) <;> simp

@[simp] theorem planUpEnd_key : ∀ x0, (State.planUpEnd x0).key = x0.key := by
  intros
  simp [State.planUpEnd]

@[simp] theorem portBytes_key : ∀ x0 x1, (State.portBytes x0 x1).key = x0.key := by
  intros
  simp [State.portBytes]

@[simp] theorem portGap_key : ∀ x0, (State.portGap x0).key = x0.key := by
  intros
  simp [State.portGap]

@[simp] theorem takeItem_key : ∀ x0 x1 x2, (State.takeItem x0 x1 x2).key = x0.key := by
  intros
  unfold State.takeItem
  (repeat' split) <;> simp

@[simp] theorem portTakes_key : ∀ x0 x1, (State.portTakes x0 x1).key = x0.key := by
  intros
  unfold State.portTakes
  (repeat' split) <;> simp [key_foldl]

@[simp] theorem post_key : ∀ x0 x1 x2 x3, (State.post x0 x1 x2 x3).key = x0.key := by
  intros
  simp [State.post]

@[simp] theorem raiseAux_key : ∀ x0 x1, (State.raiseAux x0 x1).key = x0.key := by
  intros
  simp [State.raiseAux]

@[simp] theorem raiseLsw_key : ∀ x0 x1, (State.raiseLsw x0 x1).key = x0.key := by
  intros
  simp [State.raiseLsw]

@[simp] theorem reachHold_key : ∀ x0, (State.reachHold x0).key = x0.key := by
  intros
  simp [State.reachHold]

@[simp] theorem reactBoundary_key : ∀ x0, (State.reactBoundary x0).key = x0.key := by
  intros
  unfold State.reactBoundary
  (repeat' split) <;> simp

@[simp] theorem recheckEnds_key : ∀ x0, (State.recheckEnds x0).key = x0.key := by
  intros
  simp [State.recheckEnds]

@[simp] theorem reclip_key : ∀ x0, (State.reclip x0).key = x0.key := by
  intros
  simp [State.reclip]

@[simp] theorem stickyWrite_key : ∀ x0 x1 x2, (State.stickyWrite x0 x1 x2).key = x0.key := by
  intros
  simp [State.stickyWrite]

@[simp] theorem setSticky_key : ∀ x0 x1, (State.setSticky x0 x1).key = x0.key := by
  intros
  simp [State.setSticky]

@[simp] theorem redetect_key : ∀ x0 x1 x2, (State.redetect x0 x1 x2).key = x0.key := by
  intros
  simp [State.redetect]

@[simp] theorem refStep_key : ∀ x0, (State.refStep x0).key = x0.key := by
  intros
  unfold State.refStep
  (repeat' split) <;> simp

@[simp] theorem rehold_key : ∀ x0 x1, (State.rehold x0 x1).key = x0.key := by
  intros
  unfold State.rehold
  (repeat' split) <;> simp

@[simp] theorem relockFailed_key : ∀ x0, (State.relockFailed x0).key = x0.key := by
  intros
  simp [State.relockFailed]

@[simp] theorem relocked_key : ∀ x0, (State.relocked x0).key = x0.key := by
  intros
  simp [State.relocked]

@[simp] theorem rendered_key : ∀ x0 x1, (State.rendered x0 x1).key = x0.key := by
  intros
  simp [State.rendered]

@[simp] theorem renderEnds_key : ∀ x0, (State.renderEnds x0).key = x0.key := by
  intros
  unfold State.renderEnds
  (repeat' split) <;> simp

@[simp] theorem repairAlm_key : ∀ x0, (State.repairAlm x0).key = x0.key := by
  intros
  simp [State.repairAlm]

@[simp] theorem repeatLetter_key : ∀ x0 x1, (State.repeatLetter x0 x1).key = x0.key := by
  intros
  unfold State.repeatLetter
  (repeat' split) <;> simp

@[simp] theorem request_key : ∀ x0 x1, (State.request x0 x1).1.key = x0.key := by
  intros
  unfold State.request
  (repeat' split) <;> simp

@[simp] theorem requestFalls_key : ∀ x0, (State.requestFalls x0).key = x0.key := by
  intros
  unfold State.requestFalls
  (repeat' split) <;> simp

@[simp] theorem requestTest_key : ∀ x0 x1, (State.requestTest x0 x1).key = x0.key := by
  intros
  simp [State.requestTest]

@[simp] theorem restartTests_key : ∀ x0, (State.restartTests x0).key = x0.key := by
  intros
  simp [State.restartTests, key_foldl]

@[simp] theorem retire_key : ∀ x0 x1, (State.retire x0 x1).key = x0.key := by
  intros
  unfold State.retire
  (repeat' split) <;> simp

@[simp] theorem rotate_key : ∀ x0, (State.rotate x0).key = x0.key := by
  intros
  unfold State.rotate
  dsimp only
  (repeat' split) <;> simp [key_foldl]

@[simp] theorem rowMissed_key : ∀ x0 x1, (State.rowMissed x0 x1).key = x0.key := by
  intros
  simp [State.rowMissed]

@[simp] theorem scanIfUp_key : ∀ x0, (State.scanIfUp x0).key = x0.key := by
  intros
  simp [State.scanIfUp]

@[simp] theorem scanLetter_key : ∀ x0 x1, (State.scanLetter x0 x1).key = x0.key := by
  intros
  simp [State.scanLetter]

@[simp] theorem sealCounted_key : ∀ x0, (State.sealCounted x0).key = x0.key := by
  intros
  simp [State.sealCounted]

@[simp] theorem senseFactory_key : ∀ x0 x1, (State.senseFactory x0 x1).key = x0.key := by
  intros
  simp [State.senseFactory]

@[simp] theorem servedTo_key : ∀ x0 x1, (State.servedTo x0 x1).key = x0.key := by
  intros
  simp [State.servedTo]

@[simp] theorem signatureDone_key : ∀ x0, (State.signatureDone x0).key = x0.key := by
  intros
  unfold State.signatureDone
  (repeat' split) <;> simp

@[simp] theorem stageLetter_key : ∀ x0 x1 x2, (State.stageLetter x0 x1 x2).1.key = x0.key := by
  intros
  unfold State.stageLetter
  (repeat' split) <;> simp

@[simp] theorem staleNow_key : ∀ x0, (State.staleNow x0).key = x0.key := by
  intros
  simp [State.staleNow]

@[simp] theorem startModel_key : ∀ x0, (State.startModel x0).key = x0.key := by
  intros
  simp [State.startModel]

@[simp] theorem stepPlots_key : ∀ x0 x1 x2, (State.stepPlots x0 x1 x2).key = x0.key := by
  intros
  simp [State.stepPlots]

@[simp] theorem supFirst_key : ∀ x0 x1 x2, (State.supFirst x0 x1 x2).key = x0.key := by
  intros
  unfold State.supFirst
  (repeat' split) <;> simp

@[simp] theorem takeBudget_key : ∀ x0, (State.takeBudget x0).key = x0.key := by
  intros
  simp [State.takeBudget]

@[simp] theorem takeGuarded_key : ∀ x0 x1 x2 x3 x4, (State.takeGuarded x0 x1 x2 x3 x4).key = x0.key := by
  intros
  simp [State.takeGuarded]

@[simp] theorem takeStraps_key : ∀ x0, (State.takeStraps x0).key = x0.key := by
  intros
  simp [State.takeStraps]

@[simp] theorem takeWords_key : ∀ x0, (State.takeWords x0).key = x0.key := by
  intros
  simp [State.takeWords]

@[simp] theorem tick_key : ∀ x0, (State.tick x0).key = x0.key := by
  intros
  simp [State.tick]

@[simp] theorem touch_key : ∀ x0 x1, (State.touch x0 x1).key = x0.key := by
  intros
  unfold State.touch
  (repeat' split) <;> simp

@[simp] theorem tryRelock_key : ∀ x0, (State.tryRelock x0).key = x0.key := by
  intros
  simp [State.tryRelock]

@[simp] theorem tryTimeZero_key : ∀ x0, (State.tryTimeZero x0).key = x0.key := by
  intros
  simp [State.tryTimeZero]

@[simp] theorem updateLetter_key : ∀ x0 x1 x2, (State.updateLetter x0 x1 x2).1.key = x0.key := by
  intros
  unfold State.updateLetter
  dsimp only
  (repeat' split) <;> simp [key_foldl]

@[simp] theorem upset_key : ∀ x0 x1, (State.upset x0 x1).key = x0.key := by
  intros
  unfold State.upset
  (repeat' split) <;> simp

@[simp] theorem validationEnd_key : ∀ x0, (State.validationEnd x0).key = x0.key := by
  intros
  simp [State.validationEnd]

@[simp] theorem vbakRestore_key : ∀ x0, (State.vbakRestore x0).key = x0.key := by
  intros
  simp [State.vbakRestore]

@[simp] theorem vcomBoundary_key : ∀ x0, (State.vcomBoundary x0).key = x0.key := by
  intros
  simp [State.vcomBoundary]

@[simp] theorem vcomFloat_key : ∀ x0, (State.vcomFloat x0).key = x0.key := by
  intros
  simp [State.vcomFloat]

@[simp] theorem vcomRampDone_key : ∀ x0, (State.vcomRampDone x0).key = x0.key := by
  intros
  simp [State.vcomRampDone]

@[simp] theorem vcomUpEnd_key : ∀ x0, (State.vcomUpEnd x0).key = x0.key := by
  intros
  unfold State.vcomUpEnd
  dsimp only
  (repeat' split) <;> simp [key_foldl]

@[simp] theorem vcomZero_key : ∀ x0, (State.vcomZero x0).key = x0.key := by
  intros
  simp [State.vcomZero]

@[simp] theorem wakeDomain_key : ∀ x0 x1, (State.wakeDomain x0 x1).key = x0.key := by
  intros
  simp [State.wakeDomain]

@[simp] theorem whyLetter_key : ∀ x0 x1, (State.whyLetter x0 x1).key = x0.key := by
  intros
  simp [State.whyLetter]

@[simp] theorem withdrawDue_key : ∀ x0, (State.withdrawDue x0).key = x0.key := by
  intros
  simp [State.withdrawDue]

@[simp] theorem writeCharge_key : ∀ x0 x1, (State.writeCharge x0 x1).key = x0.key := by
  intros
  simp [State.writeCharge]

@[simp] theorem writeKey_key : ∀ x0 x1, (State.writeKey x0 x1).key = x0.key := by
  intros
  simp [State.writeKey]

@[simp] theorem writePwr_key : ∀ x0 x1, (State.writePwr x0 x1).key = x0.key := by
  intros
  simp [State.writePwr]

@[simp] theorem writeTest_key : ∀ x0 x1 x2 x3, (State.writeTest x0 x1 x2 x3).key = x0.key := by
  intros
  simp [State.writeTest]

@[simp] theorem xtalStarts_key : ∀ x0, (State.xtalStarts x0).key = x0.key := by
  intros
  simp [State.xtalStarts]

@[simp] theorem zeroDone_key : ∀ x0, (State.zeroDone x0).key = x0.key := by
  intros
  unfold State.zeroDone
  dsimp only
  (repeat' split) <;> simp [key_foldl]

end Sys2Proof.Machine
end

