-- ==== Sys2Proof/Laws/KeyStores.lean ====
section
/-! SUPPORT. The operations that write the frame store, the ledger or the one-time-programmable cells, and what each keeps. -/

namespace Sys2Proof.Machine

variable {bf : List BitFlip}

theorem risingFrom_mono {b b' : Nat} (h : b' ≤ b) : ∀ {l : List Nat}, risingFrom b l = true → risingFrom b' l = true
  | [], _ => rfl
  | k :: l, g => by
    simp only [risingFrom, Bool.and_eq_true, decide_eq_true_eq] at g ⊢
    exact ⟨Nat.le_trans h g.1, g.2⟩

/-- A list rises from b when it is strictly sorted and bounded below. -/
theorem risingFrom_of_pairwise {b : Nat} : ∀ {l : List Nat}, l.Pairwise (· < ·) → (∀ k ∈ l, b ≤ k) → risingFrom b l = true
  | [], _, _ => rfl
  | k :: l, h, g => by
    simp only [risingFrom, Bool.and_eq_true, decide_eq_true_eq]
    rw [List.pairwise_cons] at h
    exact ⟨g k (by simp), risingFrom_of_pairwise h.2 (fun j hj => h.1 j hj)⟩

theorem rising_of_pairwise {l : List Nat} (h : l.Pairwise (· < ·)) : risingFrom 0 l = true :=
  risingFrom_of_pairwise h (fun _ _ => Nat.zero_le _)

theorem Rect.keys_sorted (r : Rect) : r.keys.Pairwise (· < ·) := by
  unfold Rect.keys
  rw [List.pairwise_flatMap]
  constructor
  · intro y _
    rw [List.pairwise_map]
    exact List.Pairwise.imp (fun h => by unfold pixelKey; omega) List.pairwise_lt_range
  · refine List.Pairwise.imp (fun {a b} h x hx y hy => ?_) List.pairwise_lt_range
    simp only [List.mem_map, List.mem_range, pixelKey] at hx hy
    obtain ⟨c, hc, rfl⟩ := hx
    obtain ⟨d, _, rfl⟩ := hy
    have : (a + 1) * 3072 ≤ b * 3072 := Nat.mul_le_mul_right _ h
    rw [Nat.add_mul, Nat.add_mul]
    omega

theorem State.mainReset_rest (s : State) : s.mainReset.key = ⟨s.cutOp.key.pending, [], [], [], [], s.cutOp.key.words, s.cutOp.key.thermo⟩ := rfl
theorem State.powerOff_rest (s : State) : s.powerOff.key = ⟨s.cutOp.key.pending, [], [], [], [], s.cutOp.key.words, s.cutOp.key.thermo⟩ := rfl

/-- Emptied stores are canonical; the cells stay. -/
theorem Key.Goes.emptied (a : Key) : a.Goes bf bf ⟨a.pending, [], [], [], [], a.words, a.thermo⟩ :=
  ⟨rfl, fun _ => rfl, fun h => ⟨rfl, rfl, fun _ h => by simp at h, fun g hg => by
    have e : bitCount 0#88 = 0 := by decide
    have := h.2.2.2 g hg
    show bitCount (sget 0 ([] : SMap (BitVec 88)) g) + _ ≤ 2
    rw [show sget 0 ([] : SMap (BitVec 88)) g = 0#88 from rfl, e]
    omega⟩, fun _ => rfl, fun _ => rfl, fun _ => rfl, fun h => ⟨h, fun _ _ g => g⟩, id, fun _ g => g⟩

theorem Key.Goes.newPixels {a b : Key} (h : swf unknownWord a.pixels = true → swf unknownWord b.pixels = true)
    (g : idleAgree a.pixels → idleAgree b.pixels) (h0 : b.pending = a.pending) (h1 : b.ledger = a.ledger) (h2 : b.words = a.words)
    (h3 : b.thermo = a.thermo) (h4 : b.flips = a.flips) (h5 : b.cells = a.cells) : a.Goes bf bf b := by
  obtain ⟨q, p, l, x, y, w, t⟩ := b
  simp only at h0 h1 h2 h3 h4 h5
  subst h0 h1 h2 h3 h4 h5
  exact ⟨rfl, h, fun c => ⟨h c.1, c.2.1, g c.2.2.1, c.2.2.2⟩, id, id, id, fun h => ⟨h, fun _ _ g => g⟩, id, fun _ g => g⟩

theorem Key.Goes.newLedger {a b : Key} (h : swf 0 a.ledger = true → swf 0 b.ledger = true)
    (i : swf 0 a.cells = true → swf 0 b.cells = true)
    (h0 : b.pending = a.pending) (h1 : b.pixels = a.pixels) (h2 : b.words = a.words) (h3 : b.thermo = a.thermo) (h4 : b.flips = a.flips) :
    a.Goes bf bf b := by
  obtain ⟨q, p, l, x, y, w, t⟩ := b
  simp only at h0 h1 h2 h3 h4
  subst h0 h1 h2 h3 h4
  exact ⟨rfl, id, id, h, id, i, fun h => ⟨h, fun _ _ g => g⟩, id, fun _ g => g⟩

/-- Groups written: none of them has a bit flipped. -/
theorem Key.Goes.fewerFlips (a : Key) (p : Nat × BitVec 88 → Bool) : a.Goes bf bf { a with flips := a.flips.filter p } := by
  refine ⟨rfl, id, fun c => ⟨c.1, swf_filter _ _ _ c.2.1, c.2.2.1, fun g hg => Nat.le_trans (Nat.add_le_add_right ?_ _) (c.2.2.2 g hg)⟩, id,
    swf_filter _ _ _, id, fun h => ⟨h, fun _ _ g => g⟩, id, fun _ g => g⟩
  rcases sget_cases 0 (a.flips.filter p) g with e | ⟨x, hx, rfl, e⟩
  · show bitCount (sget 0 (a.flips.filter p) g) ≤ _
    rw [e, show bitCount (0 : BitVec 88) = 0 by decide]
    exact Nat.zero_le _
  · show bitCount (sget 0 (a.flips.filter p) x.1) ≤ _
    rw [e, sget_mem 0 c.2.1 (List.mem_filter.1 hx).1]

/-! ### One-time-programmable cells -/

theorem setBit_keeps {n : Nat} (w : BitVec n) (b i : Nat) (h : w.getLsbD i = true) : (setBit w b true).getLsbD i = true := by
  simp [setBit, h]

/-- Pulses only add ones to a word (R443, R445). -/
theorem pulseWord_keeps (x : OtpWord) (d : BitVec 39) (e : OtpEnd) (i : Nat) (h : x.bits.getLsbD i = true) :
    (pulseWord x d e).bits.getLsbD i = true := by
  unfold pulseWord
  dsimp only
  generalize List.filter _ _ = q
  generalize List.range q.length = l
  induction l generalizing x with
  | nil => exact h
  | cons a l ih =>
    rw [List.foldl_cons]
    refine ih _ ?_
    split
    · exact setBit_keeps _ _ _ h
    · split
      · split <;> exact h
      · exact h

theorem wordsKept_sset (m : SMap OtpWord) (w : Nat) (x : OtpWord) (h : swf default m = true)
    (g : ∀ i, (sget default m w).bits.getLsbD i = true → x.bits.getLsbD i = true) :
    wordsKept m (sset default m w x) := by
  intro v i hv
  by_cases e : v = w
  · subst e
    rw [sget_sset_self _ _ _ h]
    exact g i hv
  · rw [sget_sset_other _ _ _ _ e h]
    exact hv

/-- A pulsed copy that counts still counts. -/
theorem put_reads (t : Thermo) (n : CopyName) (x : OtpBit) (h : otpBitCounts (t.copy n) ≤ otpBitCounts x)
    (g : t.reads = true) : (t.put n x).reads = true := by
  unfold Thermo.reads at *
  simp only [decide_eq_true_eq] at *
  cases n <;> simp only [Thermo.put, Thermo.copy] at * <;> omega

theorem blank_reads : Thermo.blank.reads = false := by decide

/-- A write that keeps what its key read keeps every logical bit that reads 1. -/
theorem readsOne_sset (i : Nat) (x : Thermo) : ∀ {m : SMap Thermo},
    ((sget Thermo.blank m i).reads = true → x.reads = true) → ∀ k, readsOne m k → readsOne (sset Thermo.blank m i x) k
  | [], _, k, ⟨y, hy, _⟩ => by simp at hy
  | (j, v) :: m, g, k, h => by
    have sc : ∀ (n : SMap Thermo), readsOne n k → readsOne (scons Thermo.blank i x n) k := by
      intro n ⟨y, hy, hk⟩
      unfold scons
      split
      · exact ⟨y, hy, hk⟩
      · exact ⟨y, List.mem_cons_of_mem _ hy, hk⟩
    simp only [sset]
    split
    · rename_i e
      subst e
      obtain ⟨y, hy, hk, hr⟩ := h
      rcases List.mem_cons.1 hy with rfl | hy
      · have hx : x.reads = true := g (by simpa [sget] using hr)
        unfold scons
        split
        · rename_i hb; rw [hb, blank_reads] at hx; cases hx
        · exact ⟨(i, x), by simp, hk, hx⟩
      · exact sc m ⟨y, hy, hk, hr⟩
    · split
      · exact sc _ h
      · rename_i e1 e2
        obtain ⟨y, hy, hk, hr⟩ := h
        rcases List.mem_cons.1 hy with rfl | hy
        · exact ⟨_, by simp, hk, hr⟩
        · obtain ⟨z, hz, hzk⟩ := readsOne_sset i x (m := m)
            (fun q => g (by simpa only [sget, if_neg e1, if_neg e2] using q)) k ⟨y, hy, hk, hr⟩
          exact ⟨z, List.mem_cons_of_mem _ hz, hzk⟩

/-- Pulses on copies keep the canonical form and every logical bit that reads 1 (R443, R449). -/
theorem pulseCopies_keeps (m : SMap Thermo) (l : List Copy) (e : OtpEnd) :
    (swf Thermo.blank m = true → swf Thermo.blank (pulseCopies m l e) = true) ∧
    ∀ k, readsOne m k → readsOne (pulseCopies m l e) k := by
  unfold pulseCopies
  dsimp only
  generalize List.range _ = r
  induction r generalizing m with
  | nil => exact ⟨id, fun _ h => h⟩
  | cons a r ih =>
    rw [List.foldl_cons]
    split
    · exact ih m
    · rename_i x hx
      refine ⟨fun h => (ih _).1 (swf_sset _ _ _ _ h), fun k h => (ih _).2 k (readsOne_sset _ _ (fun g => ?_) k h)⟩
      refine put_reads _ _ _ ?_ g
      generalize (sget Thermo.blank m x.1).copy x.2 = o
      unfold pulsed
      cases o <;> (repeat' split) <;> simp_all [otpBitCounts]

theorem pulseOp_goes : ∀ (x0 : State) x1, x0.key.Goes bf bf (State.pulseOp x0 x1).key := by
  intro s e
  unfold State.pulseOp
  split
  · exact Key.Goes.refl _
  · refine ⟨rfl, id, id, id, id, id, fun h => ⟨swf_sset _ _ _ _ h, wordsKept_sset _ _ _ h (fun i g => pulseWord_keeps _ _ _ _ g)⟩, id,
      fun _ g => g⟩
  · exact ⟨rfl, id, id, id, id, id, fun h => ⟨h, fun _ _ g => g⟩, (pulseCopies_keeps _ _ _).1, (pulseCopies_keeps _ _ _).2⟩

theorem cutOp_goes : ∀ (x0 : State), x0.key.Goes bf bf (State.cutOp x0).key := by
  intro s
  unfold State.cutOp
  split
  · exact Key.Goes.refl _
  · exact pulseOp_goes s.draw.2 _

theorem meet_goes (s : State) (n : Nat) (d : State → State) (h : ∀ t : State, t.key.Goes bf bf (d t).key) :
    s.key.Goes bf bf (s.meet n d).key := by
  unfold State.meet
  split
  · exact h s
  · exact Key.Goes.refl _

theorem mainReset_goes : ∀ (x0 : State), x0.key.Goes bf bf (State.mainReset x0).key := by
  intro s
  rw [State.mainReset_rest]
  exact (cutOp_goes s).trans (Key.Goes.emptied _)

theorem powerOff_goes : ∀ (x0 : State), x0.key.Goes bf bf (State.powerOff x0).key := by
  intro s
  rw [State.powerOff_rest]
  exact (cutOp_goes s).trans (Key.Goes.emptied _)

/-! ### Frame store and ledger -/

/-- A word reads back the fields it was formed from. -/
theorem pixelOf_pixelWord (p : Pixel) : pixelOf (pixelWord p) =
    { target := p.target % 32, current := p.current % 32, step := p.step % 32, mode := p.mode % 4, age := p.age % 4
      active := p.active } := by
  have ha : (if p.active = true then 1 else 0 : Nat) < 2 := by split <;> omega
  unfold pixelOf pixelWord
  simp only [BitVec.toNat_ofNat, Nat.shiftRight_eq_div_pow]
  rw [Nat.mod_eq_of_lt (by omega)]
  simp only [Pixel.mk.injEq]
  refine ⟨by omega, by omega, by omega, by omega, by omega, ?_⟩
  rw [Nat.testBit_zero]
  cases p.active <;> simp <;> omega

/-- A word formed from ACTIVE fields, or from a TARGET and a CURRENT that agree, agrees. -/
theorem pixelWord_agrees {p : Pixel} (h : p.active = true ∨ p.target = p.current) : pixelAgrees (pixelWord p) := by
  intro ha
  rw [pixelOf_pixelWord] at *
  rcases h with h | h
  · simp [h] at ha
  · simp [h]

theorem unknownWord_agrees : pixelAgrees unknownWord := by
  unfold pixelAgrees
  decide

/-- A pixel that an aging visit or the pass after HOLD meets. -/
theorem aged_agrees {w : PixelWord} (h : pixelAgrees w) (n : Nat) : pixelAgrees (pixelWord (pixelAge n (pixelOf w))) := by
  apply pixelWord_agrees
  unfold pixelAge
  cases ha : (pixelOf w).active
  · right
    have := h ha
    dsimp only
    repeat' split
    all_goals simp_all
  · left
    simp [ha]

theorem holdAged_agrees {w : PixelWord} (h : pixelAgrees w) (k : Nat) :
    pixelAgrees (pixelWord (pixelHoldAge k (pixelOf w))) := by
  apply pixelWord_agrees
  unfold pixelHoldAge
  cases ha : (pixelOf w).active
  · right
    simpa [ha] using h ha
  · left
    simp [ha]

/-- A pixel that a start meets. -/
theorem started_agrees {w : PixelWord} (h : pixelAgrees w) (restate lost : Bool) (pick : Pixel → Option (Nat × Nat)) :
    pixelAgrees (startPixel restate lost pick w) := by
  unfold startPixel
  dsimp only
  split
  · split
    · exact unknownWord_agrees
    · exact h
  · repeat' split
    · exact unknownWord_agrees
    · exact pixelWord_agrees (.inl rfl)
    · exact h
    · exact pixelWord_agrees (.inr rfl)
    · exact pixelWord_agrees (.inl rfl)

theorem idleAgree_smap {m : SMap PixelWord} {f : Nat → PixelWord → PixelWord} (h : idleAgree m)
    (g : ∀ k w, pixelAgrees w → pixelAgrees (f k w)) : idleAgree (smap unknownWord f m) := by
  intro x hx
  obtain ⟨y, hy, rfl⟩ := mem_smap hx
  exact g _ _ (h y hy)

theorem idleAgree_sapply {m : SMap PixelWord} {f : Nat → PixelWord → PixelWord} {ks : List Nat} (h : idleAgree m)
    (g : ∀ k w, pixelAgrees w → pixelAgrees (f k w)) : idleAgree (sapply unknownWord f m ks) := by
  intro x hx
  rcases mem_sapplyFuel hx with hx | ⟨y, hy, e⟩ | e
  · exact h x hx
  · rw [e]; exact g _ _ (h y hy)
  · rw [e]; exact g _ _ unknownWord_agrees

/-- A pixel as the scan leaves it. -/
theorem scanned_agrees (s : State) (row : Nat) (lost : List Nat) (col : Nat) {w : PixelWord} (h : pixelAgrees w) :
    pixelAgrees (s.scanPixel row lost col w).after := by
  unfold State.scanPixel
  dsimp only
  split
  · exact h
  · split
    · exact unknownWord_agrees
    split
    · exact h
    · rename_i hn
      have ha : (pixelOf w).active = true := Decidable.not_not.1 hn
      split
      · exact pixelWord_agrees (.inr rfl)
      · have next : ((s.pixelStep row col (pixelOf w)).next).active = true ∨
            ((s.pixelStep row col (pixelOf w)).next).target = ((s.pixelStep row col (pixelOf w)).next).current := by
          unfold State.pixelStep
          dsimp only
          repeat' split
          all_goals first | exact .inl ha | exact .inr rfl
        apply pixelWord_agrees
        unfold State.pixelWrite
        repeat' split
        · exact next
        · exact .inr rfl
        · exact .inl rfl
        · exact next

/-! ### Flipped bits (R91, R97) -/

/-- Writes of a list keep the canonical form. -/
theorem swf_foldl_sset {α β : Type} [DecidableEq α] (d : α) (g : SMap α → β → SMap α) (h : ∀ m x, swf d m = true → swf d (g m x) = true)
    (l : List β) (m : SMap α) (hm : swf d m = true) : swf d (l.foldl g m) = true := by
  induction l generalizing m with
  | nil => exact hm
  | cons a l ih => exact ih _ (h _ _ hm)

theorem putGroup_pixels (s : State) (g : Nat) (d : BitVec 80) (h : swf unknownWord s.mem.pixels = true) :
    swf unknownWord (s.putGroup g d).mem.pixels = true :=
  swf_foldl_sset _ _ (fun _ _ hm => swf_sset _ _ _ _ hm) _ _ h

/-- What `storeGroup` leaves alone, whatever is stored. -/
theorem storeGroup_rest (s : State) (g : Nat) (w : BitVec 88) :
    (s.storeGroup g w).key = { s.key with pixels := (s.storeGroup g w).mem.pixels, flips := (s.storeGroup g w).mem.flips }
      ∧ (swf unknownWord s.mem.pixels = true → swf unknownWord (s.storeGroup g w).mem.pixels = true)
      ∧ (swf 0 s.mem.flips = true → swf 0 (s.storeGroup g w).mem.flips = true) := by
  unfold State.storeGroup
  dsimp only
  split
  · exact ⟨rfl, putGroup_pixels s g _, fun h => swf_sset _ _ _ _ h⟩
  · exact ⟨rfl, putGroup_pixels s g _, fun h => swf_sset _ _ _ _ h⟩
  · exact ⟨rfl, id, fun h => swf_sset _ _ _ _ h⟩

/-- A store that leaves `calm` to be shown. -/
theorem storeGroup_goes {bg : List BitFlip} (s : State) (g : Nat) (w : BitVec 88)
    (h : s.key.calm bf → (s.storeGroup g w).key.calm bg) : s.key.Goes bf bg (s.storeGroup g w).key := by
  obtain ⟨e, hp, hf⟩ := storeGroup_rest s g w
  refine ⟨?_, hp, h, ?_, hf, ?_, ?_, ?_, ?_⟩ <;> rw [e]
  · exact id
  · exact id
  · exact fun h => ⟨h, fun _ _ g => g⟩
  · exact id
  · exact fun _ h => h

/-- One flipped bit. -/
theorem flipBit_goes (s : State) (x : BitFlip) :
    s.key.Goes (x :: bf) bf (s.storeGroup x.group (s.groupStored x.group ^^^ (1#88 <<< x.bit.val))).key := by
  refine storeGroup_goes s _ _ (fun c => ?_)
  obtain ⟨cp, cf, ci, cl⟩ := c
  simp only [State.key] at cp cf ci cl
  have hx := cl x.group ⟨x, by simp, rfl⟩
  have hw : s.groupStored x.group ^^^ (1#88 <<< x.bit.val)
      = encodeGroup (s.groupData x.group) ^^^ (sget 0 s.mem.flips x.group ^^^ 1#88 <<< x.bit.val) := by
    unfold State.groupStored
    rw [BitVec.xor_assoc]
  have hb : bitCount (sget 0 s.mem.flips x.group ^^^ 1#88 <<< x.bit.val) ≤ bitCount (sget 0 s.mem.flips x.group) + 1 := by
    rw [bitCount_flip _ _ x.bit.isLt]
    split <;> omega
  rw [List.countP_cons_of_pos (by simp)] at hx
  rw [hw, storeGroup_low s _ cp (by omega)]
  refine ⟨cp, swf_sset _ _ _ _ cf, ci, fun g hg => ?_⟩
  show bitCount (sget 0 (sset 0 s.mem.flips x.group _) g) + _ ≤ 2
  by_cases e : g = x.group
  · subst e
    rw [sget_sset_self _ _ _ cf]
    omega
  · rw [sget_sset_other _ _ _ _ e cf]
    obtain ⟨y, hy, hyg⟩ := hg
    have := cl g ⟨y, List.mem_cons_of_mem _ hy, hyg⟩
    rw [List.countP_cons_of_neg (by simpa using fun h => e h.symm)] at this
    exact this

/-- Flipped bits. -/
theorem flipBits_goes : ∀ (x0 : State) x1, x0.key.Goes (x1 ++ bf) bf (State.flipBits x0 x1).key := by
  intro s l
  induction l generalizing s with
  | nil => exact Key.Goes.refl _
  | cons x l ih => exact (flipBit_goes s x).trans (ih _)

/-- The injected FS_DOUBLE's free group is lost, and reads as no word. -/
theorem flipFree_goes : ∀ (x0 : State), x0.key.Goes [] [] (State.flipFree x0).key := by
  intro s
  unfold State.flipFree
  refine storeGroup_goes (s := { s.draw.2 with free := s.draw.2.free + 1 }) _ _ (fun c => ?_)
  exact (congrArg (fun u : State => u.key.calm []) (storeGroup_low _ _ c.1 (by decide))).mpr
    ⟨c.1, swf_sset _ _ _ _ c.2.1, c.2.2.1, fun g hg => by obtain ⟨x, hx, _⟩ := hg; cases hx⟩

theorem flipFreeCell_goes : ∀ (x0 : State), x0.key.Goes bf bf (State.flipFreeCell x0).key := by
  intro s
  exact Key.Goes.newLedger id (fun h => swf_sset _ _ _ _ h) rfl rfl rfl rfl rfl

theorem flipCells_goes : ∀ (x0 : State) x1, x0.key.Goes bf bf (State.flipCells x0 x1).key := by
  intro s l
  exact Key.Goes.newLedger id (fun h => swf_foldl_sset _ _ (fun _ _ hm => swf_sset _ _ _ _ hm) _ _ h) rfl rfl rfl rfl rfl

theorem rewritten_goes : ∀ (x0 : State) x1, x0.key.Goes bf bf (State.rewritten x0 x1).key := by
  intro s q
  exact Key.Goes.fewerFlips s.key _

theorem freshCells_goes : ∀ (x0 : State) x1, x0.key.Goes bf bf (State.freshCells x0 x1).key := by
  intro s q
  exact Key.Goes.newLedger (fun h => swf_foldl_sset _ _ (fun _ _ hm => swf_sset _ _ _ _ hm) _ _ h) (fun h => swf_filter _ _ _ h)
    rfl rfl rfl rfl rfl

theorem mend_goes : ∀ (x0 : State) x1, x0.key.Goes bf bf (State.mend x0 x1).key := by
  intro s q
  exact rewritten_goes (s.countMended q) _

/-- A visit of the aging pass. -/
theorem visit_agrees (a : AgeVisit) {w : PixelWord} (h : pixelAgrees w) : pixelAgrees (pixelWord (a.apply (pixelOf w))) := by
  unfold AgeVisit.apply
  split
  · exact holdAged_agrees h _
  · exact aged_agrees h _

theorem visitRows_goes : ∀ (x0 : State) x1 x2, x0.key.Goes bf bf (State.visitRows x0 x1 x2).key := by
  intro s q a
  refine Key.Goes.trans (mend_goes s (fun g => q (g / 768) && s.groupIdle g))
    (Key.Goes.newPixels (swf_smap _ _ _) (fun h => idleAgree_smap h (fun k w hw => ?_)) rfl rfl rfl rfl rfl rfl)
  split
  · exact visit_agrees a hw
  · exact hw

end Sys2Proof.Machine
end

