-- ==== Sys2Proof/Laws/KeyGoes.lean ====
section
/-! SUPPORT. Every operation that touches the frame store, the ledger or the one-time-programmable cells keeps what they
had: one lemma each. -/

namespace Sys2Proof.Machine

variable {bf : List BitFlip}

theorem scrubRows_goes : ∀ (x0 : State) x1, x0.key.Goes bf bf (State.scrubRows x0 x1).key := by
  intros
  unfold State.scrubRows
  try dsimp only
  repeat' first
    | with_reducible exact Key.Goes.refl _
    | simp only [key_mk, key_eta]
    | with_reducible refine Key.Goes.trans ?_ (mend_goes ..)
    | split
    | simp

theorem releaseAge_goes : ∀ (x0 : State) x1, x0.key.Goes bf bf (State.releaseAge x0 x1).key := by
  intro s q
  unfold State.releaseAge
  split
  · rename_i a e
    exact visitRows_goes s (fun r => a.rows.contains r && q r) a
  · exact Key.Goes.refl _

theorem release_goes : ∀ (x0 : State) x1, x0.key.Goes bf bf (State.release x0 x1).key := by
  intro s q
  unfold State.release
  extract_lets s1
  have h1 : s.key.Goes bf bf s1.key := mend_goes s _
  refine h1.trans (Key.Goes.of ?_ (releaseAge_goes _ _))
  rfl

theorem releaseRows_goes : ∀ (x0 : State), x0.key.Goes bf bf (State.releaseRows x0).key := by
  intro s
  unfold State.releaseRows
  exact release_goes s _

theorem stopScan_goes : ∀ (x0 : State), x0.key.Goes bf bf (State.stopScan x0).key := by
  intros
  unfold State.stopScan
  try dsimp only
  repeat' first
    | with_reducible exact Key.Goes.refl _
    | simp only [key_mk, key_eta]
    | with_reducible refine Key.Goes.trans ?_ (releaseRows_goes ..)
    | split
    | simp

theorem abruptStop_goes : ∀ (x0 : State), x0.key.Goes bf bf (State.abruptStop x0).key := by
  intros
  unfold State.abruptStop
  try dsimp only
  repeat' first
    | with_reducible exact Key.Goes.refl _
    | simp only [key_mk, key_eta]
    | with_reducible refine Key.Goes.trans ?_ (stopScan_goes ..)
    | split
    | simp

theorem enterStartup_goes : ∀ (x0 : State), x0.key.Goes bf bf (State.enterStartup x0).key := by
  intros
  unfold State.enterStartup
  try dsimp only
  repeat' first
    | with_reducible exact Key.Goes.refl _
    | simp only [key_mk, key_eta]
    | with_reducible refine Key.Goes.trans ?_ (mainReset_goes ..)
    | split
    | simp

theorem enterReset_goes : ∀ (x0 : State), x0.key.Goes bf bf (State.enterReset x0).key := by
  intros
  unfold State.enterReset
  try dsimp only
  repeat' first
    | with_reducible exact Key.Goes.refl _
    | simp only [key_mk, key_eta]
    | with_reducible refine Key.Goes.trans ?_ (enterStartup_goes ..)
    | with_reducible refine Key.Goes.trans ?_ (mainReset_goes ..)
    | split
    | simp

theorem resetTail_goes : ∀ (x0 : State), x0.key.Goes bf bf (State.resetTail x0).key := by
  intros
  unfold State.resetTail
  try dsimp only
  repeat' first
    | with_reducible exact Key.Goes.refl _
    | simp only [key_mk, key_eta]
    | with_reducible refine Key.Goes.trans ?_ (enterReset_goes ..)
    | split
    | simp

theorem enterBackupRun_goes : ∀ (x0 : State), x0.key.Goes bf bf (State.enterBackupRun x0).key := by
  intros
  unfold State.enterBackupRun
  try dsimp only
  repeat' first
    | with_reducible exact Key.Goes.refl _
    | simp only [key_mk, key_eta]
    | with_reducible refine Key.Goes.trans ?_ (enterStartup_goes ..)
    | split
    | simp

theorem alarmStart_goes : ∀ (x0 : State) x1, x0.key.Goes bf bf (State.alarmStart x0 x1).key := by
  intros
  unfold State.alarmStart
  try dsimp only
  repeat' first
    | with_reducible exact Key.Goes.refl _
    | simp only [key_mk, key_eta]
    | with_reducible refine Key.Goes.trans ?_ (enterStartup_goes ..)
    | with_reducible refine Key.Goes.trans ?_ (enterBackupRun_goes ..)
    | split
    | simp

theorem enterDormant_goes : ∀ (x0 : State), x0.key.Goes bf bf (State.enterDormant x0).key := by
  intros
  unfold State.enterDormant
  try dsimp only
  repeat' first
    | with_reducible exact Key.Goes.refl _
    | simp only [key_mk, key_eta]
    | with_reducible refine Key.Goes.trans ?_ (enterReset_goes ..)
    | with_reducible refine Key.Goes.trans ?_ (enterStartup_goes ..)
    | with_reducible refine Key.Goes.trans ?_ (mainReset_goes ..)
    | with_reducible refine Key.Goes.trans ?_ (alarmStart_goes ..)
    | split
    | simp

theorem planEnd_goes : ∀ (x0 : State), x0.key.Goes bf bf (State.planEnd x0).key := by
  intros
  unfold State.planEnd
  try dsimp only
  repeat' first
    | with_reducible exact Key.Goes.refl _
    | simp only [key_mk, key_eta]
    | with_reducible refine Key.Goes.trans ?_ (enterDormant_goes ..)
    | split
    | simp

theorem runSteps_goes : ∀ (x0 : State) x1 x2, x0.key.Goes bf bf (State.runSteps x0 x1 x2).key := by
  intro s l
  induction l generalizing s with
  | nil => intro k; exact planEnd_goes s
  | cons x l ih =>
    intro k
    unfold State.runSteps
    dsimp only
    (repeat' split) <;> first
      | (simp; done)
      | exact ih s _
      | (refine Key.Goes.trans ?_ (ih _ _); simp)

theorem runPlan_goes : ∀ (x0 : State) x1 x2, x0.key.Goes bf bf (State.runPlan x0 x1 x2).key := by
  intros
  unfold State.runPlan
  try dsimp only
  repeat' first
    | with_reducible exact Key.Goes.refl _
    | simp only [key_mk, key_eta]
    | with_reducible refine Key.Goes.trans ?_ (runSteps_goes ..)
    | split
    | simp

theorem planDormantDrop_goes : ∀ (x0 : State), x0.key.Goes bf bf (State.planDormantDrop x0).key := by
  intros
  unfold State.planDormantDrop
  try dsimp only
  repeat' first
    | with_reducible exact Key.Goes.refl _
    | simp only [key_mk, key_eta]
    | with_reducible refine Key.Goes.trans ?_ (runPlan_goes ..)
    | split
    | simp

theorem dormantTail_goes : ∀ (x0 : State), x0.key.Goes bf bf (State.dormantTail x0).key := by
  intros
  unfold State.dormantTail
  try dsimp only
  repeat' first
    | with_reducible exact Key.Goes.refl _
    | simp only [key_mk, key_eta]
    | with_reducible refine Key.Goes.trans ?_ (planDormantDrop_goes ..)
    | split
    | simp

theorem planHoldDrop_goes : ∀ (x0 : State), x0.key.Goes bf bf (State.planHoldDrop x0).key := by
  intros
  unfold State.planHoldDrop
  try dsimp only
  repeat' first
    | with_reducible exact Key.Goes.refl _
    | simp only [key_mk, key_eta]
    | with_reducible refine Key.Goes.trans ?_ (runPlan_goes ..)
    | with_reducible refine Key.Goes.trans ?_ (goes_foldl _ (fun _ _ => ?_) _ _)
    | split
    | simp

theorem railDownEnd_goes : ∀ (x0 : State) x1, x0.key.Goes bf bf (State.railDownEnd x0 x1).key := by
  intro s ran
  unfold State.railDownEnd
  extract_lets len s1 _ s2 s3
  have h : s3.key = s.key := by simp [s3, s2, s1]
  clear_value s3
  split
  · simp [h]
  · rw [← h]; exact planHoldDrop_goes s3
  · rw [← h]; exact dormantTail_goes s3
  · rw [← h]; exact dormantTail_goes s3
  · split <;> simp [h]
  · simp [h]
  · simp [h]
  · rw [← h]; exact resetTail_goes s3

theorem downFrom_goes : ∀ (x0 : State) x1, x0.key.Goes bf bf (State.downFrom x0 x1).key := by
  intros
  unfold State.downFrom
  try dsimp only
  repeat' first
    | with_reducible exact Key.Goes.refl _
    | simp only [key_mk, key_eta]
    | with_reducible refine Key.Goes.trans ?_ (railDownEnd_goes ..)
    | split
    | simp

theorem beginRailDown_goes : ∀ (x0 : State) x1, x0.key.Goes bf bf (State.beginRailDown x0 x1).key := by
  intros
  unfold State.beginRailDown
  try dsimp only
  repeat' first
    | with_reducible exact Key.Goes.refl _
    | simp only [key_mk, key_eta]
    | with_reducible refine Key.Goes.trans ?_ (downFrom_goes ..)
    | split
    | simp

theorem commitHold_goes : ∀ (x0 : State), x0.key.Goes bf bf (State.commitHold x0).key := by
  intros
  unfold State.commitHold
  try dsimp only
  repeat' first
    | with_reducible exact Key.Goes.refl _
    | simp only [key_mk, key_eta]
    | with_reducible refine Key.Goes.trans ?_ (beginRailDown_goes ..)
    | split
    | simp

theorem commitDormant_goes : ∀ (x0 : State), x0.key.Goes bf bf (State.commitDormant x0).key := by
  intros
  unfold State.commitDormant
  try dsimp only
  repeat' first
    | with_reducible exact Key.Goes.refl _
    | simp only [key_mk, key_eta]
    | with_reducible refine Key.Goes.trans ?_ (beginRailDown_goes ..)
    | with_reducible refine Key.Goes.trans ?_ (dormantTail_goes ..)
    | split
    | simp

theorem reactStop_goes : ∀ (x0 : State) x1, x0.key.Goes bf bf (State.reactStop x0 x1).key := by
  intro s r
  unfold State.reactStop
  extract_lets put
  have hp : ∀ t x, (put t x).key = t.key := fun _ _ => rfl
  have hh : ∀ (t : State) x, t.key.Goes bf bf (State.commitHold (put t x)).key := fun t x => by
    have := commitHold_goes (bf := bf) (put t x)
    rwa [hp] at this
  have hd : ∀ (t : State) x, t.key.Goes bf bf (State.commitDormant (put t x)).key := fun t x => by
    have := commitDormant_goes (bf := bf) (put t x)
    rwa [hp] at this
  clear_value put
  split
  · simp [hp]
  · repeat' split
    · simp [hp]
    · simp [hp]
    · exact hh _ _
  · repeat' split
    · simp [hp]
    · simp [hp]
    · exact hd _ _
  · split
    · simp [hp]
    · split
      · simp [hp]
      · have ha := abruptStop_goes (bf := bf) s
        split
        · refine ha.trans ?_
          have := beginRailDown_goes (bf := bf) (put s.abruptStop .railDown) .reaction
          rwa [hp] at this
        · rw [hp]
          exact ha

theorem goDark_goes : ∀ (x0 : State), x0.key.Goes bf bf (State.goDark x0).key := by
  intros
  unfold State.goDark
  try dsimp only
  repeat' first
    | with_reducible exact Key.Goes.refl _
    | simp only [key_mk, key_eta]
    | with_reducible refine Key.Goes.trans ?_ (beginRailDown_goes ..)
    | with_reducible refine Key.Goes.trans ?_ (abruptStop_goes ..)
    | split
    | simp

theorem beginReaction_goes : ∀ (x0 : State) x1 x2 x3, x0.key.Goes bf bf (State.beginReaction x0 x1 x2 x3).key := by
  intros
  unfold State.beginReaction
  try dsimp only
  repeat' first
    | with_reducible exact Key.Goes.refl _
    | simp only [key_mk, key_eta]
    | with_reducible refine Key.Goes.trans ?_ (reactStop_goes ..)
    | with_reducible refine Key.Goes.trans ?_ (goDark_goes ..)
    | split
    | simp

theorem reactDelivery_goes : ∀ (x0 : State) x1 x2, x0.key.Goes bf bf (State.reactDelivery x0 x1 x2).key := by
  intros
  unfold State.reactDelivery
  try dsimp only
  repeat' first
    | with_reducible exact Key.Goes.refl _
    | simp only [key_mk, key_eta]
    | with_reducible refine Key.Goes.trans ?_ (beginRailDown_goes ..)
    | with_reducible refine Key.Goes.trans ?_ (abruptStop_goes ..)
    | split
    | simp

theorem duringReaction_goes : ∀ (x0 : State) x1 x2 x3, x0.key.Goes bf bf (State.duringReaction x0 x1 x2 x3).key := by
  intros
  unfold State.duringReaction
  try dsimp only
  repeat' first
    | with_reducible exact Key.Goes.refl _
    | simp only [key_mk, key_eta]
    | with_reducible refine Key.Goes.trans ?_ (beginReaction_goes ..)
    | with_reducible refine Key.Goes.trans ?_ (reactStop_goes ..)
    | split
    | simp

theorem react_goes : ∀ (x0 : State) x1 x2, x0.key.Goes bf bf (State.react x0 x1 x2).key := by
  intros
  unfold State.react
  try dsimp only
  repeat' first
    | with_reducible exact Key.Goes.refl _
    | simp only [key_mk, key_eta]
    | with_reducible refine Key.Goes.trans ?_ (beginReaction_goes ..)
    | with_reducible refine Key.Goes.trans ?_ (reactDelivery_goes ..)
    | with_reducible refine Key.Goes.trans ?_ (goDark_goes ..)
    | with_reducible refine Key.Goes.trans ?_ (duringReaction_goes ..)
    | split
    | simp

theorem raiseAs_goes : ∀ (x0 : State) x1 x2, x0.key.Goes bf bf (State.raiseAs x0 x1 x2).key := by
  intros
  unfold State.raiseAs
  try dsimp only
  repeat' first
    | with_reducible exact Key.Goes.refl _
    | simp only [key_mk, key_eta]
    | with_reducible refine Key.Goes.trans ?_ (react_goes ..)
    | split
    | simp

theorem raise_goes : ∀ (x0 : State) x1, x0.key.Goes bf bf (State.raise x0 x1).key := by
  intros
  unfold State.raise
  try dsimp only
  repeat' first
    | with_reducible exact Key.Goes.refl _
    | simp only [key_mk, key_eta]
    | with_reducible refine Key.Goes.trans ?_ (raiseAs_goes ..)
    | split
    | simp

theorem voteField_goes : ∀ (x0 : State) x1 x2, x0.key.Goes bf bf (State.voteField x0 x1 x2).key := by
  intros
  unfold State.voteField
  try dsimp only
  repeat' first
    | with_reducible exact Key.Goes.refl _
    | simp only [key_mk, key_eta]
    | with_reducible refine Key.Goes.trans ?_ (raise_goes ..)
    | split
    | simp

theorem voteRailSet_goes : ∀ (x0 : State), x0.key.Goes bf bf (State.voteRailSet x0).key := by
  intros
  unfold State.voteRailSet
  try dsimp only
  repeat' first
    | with_reducible exact Key.Goes.refl _
    | simp only [key_mk, key_eta]
    | with_reducible refine Key.Goes.trans ?_ (voteField_goes ..)
    | split
    | simp

theorem voteSeqPlan_goes : ∀ (x0 : State), x0.key.Goes bf bf (State.voteSeqPlan x0).key := by
  intros
  unfold State.voteSeqPlan
  try dsimp only
  repeat' first
    | with_reducible exact Key.Goes.refl _
    | simp only [key_mk, key_eta]
    | with_reducible refine Key.Goes.trans ?_ (voteField_goes ..)
    | split
    | simp

theorem voteLc_goes : ∀ (x0 : State), x0.key.Goes bf bf (State.voteLc x0).key := by
  intros
  unfold State.voteLc
  try dsimp only
  repeat' first
    | with_reducible exact Key.Goes.refl _
    | simp only [key_mk, key_eta]
    | with_reducible refine Key.Goes.trans ?_ (voteField_goes ..)
    | split
    | simp

theorem afterRead_goes : ∀ (x0 : State) x1, x0.key.Goes bf bf (State.afterRead x0 x1).key := by
  intro s r
  unfold State.afterRead
  split
  · exact voteRailSet_goes s
  · exact voteSeqPlan_goes s
  · exact voteLc_goes s
  · exact voteLc_goes s
  all_goals simp

theorem readAt_goes : ∀ (x0 : State) x1, x0.key.Goes bf bf (State.readAt x0 x1).2.key := by
  intros
  unfold State.readAt
  try dsimp only
  repeat' first
    | with_reducible exact Key.Goes.refl _
    | simp only [key_mk, key_eta]
    | with_reducible refine Key.Goes.trans ?_ (afterRead_goes ..)
    | split
    | simp

theorem alarmEffect_goes : ∀ (x0 : State) x1, x0.key.Goes bf bf (State.alarmEffect x0 x1).key := by
  intros
  unfold State.alarmEffect
  try dsimp only
  repeat' first
    | with_reducible exact Key.Goes.refl _
    | simp only [key_mk, key_eta]
    | with_reducible refine Key.Goes.trans ?_ (alarmStart_goes ..)
    | split
    | simp

theorem rtcTick_goes : ∀ (x0 : State), x0.key.Goes bf bf (State.rtcTick x0).key := by
  intros
  unfold State.rtcTick
  try dsimp only
  repeat' first
    | with_reducible exact Key.Goes.refl _
    | simp only [key_mk, key_eta]
    | with_reducible refine Key.Goes.trans ?_ (alarmEffect_goes ..)
    | split
    | simp

theorem tickFirst_goes : ∀ (x0 : State), x0.key.Goes bf bf (State.tickFirst x0).key := by
  intros
  unfold State.tickFirst
  try dsimp only
  repeat' first
    | with_reducible exact Key.Goes.refl _
    | simp only [key_mk, key_eta]
    | with_reducible refine Key.Goes.trans ?_ (rtcTick_goes ..)
    | split
    | simp

theorem rtcOp_goes : ∀ (x0 : State) x1, x0.key.Goes bf bf (State.rtcOp x0 x1).key := by
  intros
  unfold State.rtcOp
  try dsimp only
  repeat' first
    | with_reducible exact Key.Goes.refl _
    | simp only [key_mk, key_eta]
    | with_reducible refine Key.Goes.trans ?_ (tickFirst_goes ..)
    | split
    | simp

theorem act_goes : ∀ (x0 : State) x1 x2, x0.key.Goes bf bf (State.act x0 x1 x2).key := by
  intros
  unfold State.act
  try dsimp only
  repeat' first
    | with_reducible exact Key.Goes.refl _
    | simp only [key_mk, key_eta]
    | with_reducible refine Key.Goes.trans ?_ (rtcOp_goes ..)
    | split
    | simp

theorem intUvFired_goes : ∀ (x0 : State) x1, x0.key.Goes bf bf (State.intUvFired x0 x1).key := by
  intros
  unfold State.intUvFired
  try dsimp only
  repeat' first
    | with_reducible exact Key.Goes.refl _
    | simp only [key_mk, key_eta]
    | with_reducible refine Key.Goes.trans ?_ (raise_goes ..)
    | split
    | simp

theorem auxUvFired_goes : ∀ (x0 : State) x1, x0.key.Goes bf bf (State.auxUvFired x0 x1).key := by
  intros
  unfold State.auxUvFired
  try dsimp only
  repeat' first
    | with_reducible exact Key.Goes.refl _
    | simp only [key_mk, key_eta]
    | with_reducible refine Key.Goes.trans ?_ (raise_goes ..)
    | split
    | simp

theorem hedgeStop_goes : ∀ (x0 : State), x0.key.Goes bf bf (State.hedgeStop x0).key := by
  intros
  unfold State.hedgeStop
  try dsimp only
  repeat' first
    | with_reducible exact Key.Goes.refl _
    | simp only [key_mk, key_eta]
    | with_reducible refine Key.Goes.trans ?_ (stopScan_goes ..)
    | with_reducible refine Key.Goes.trans ?_ (abruptStop_goes ..)
    | split
    | simp

theorem takeover_goes : ∀ (x0 : State) x1, x0.key.Goes bf bf (State.takeover x0 x1).key := by
  intros
  unfold State.takeover
  try dsimp only
  repeat' first
    | with_reducible exact Key.Goes.refl _
    | simp only [key_mk, key_eta]
    | with_reducible refine Key.Goes.trans ?_ (hedgeStop_goes ..)
    | with_reducible refine Key.Goes.trans ?_ (beginRailDown_goes ..)
    | split
    | simp

theorem railUvFired_goes : ∀ (x0 : State) x1 x2, x0.key.Goes bf bf (State.railUvFired x0 x1 x2).key := by
  intros
  unfold State.railUvFired
  try dsimp only
  repeat' first
    | with_reducible exact Key.Goes.refl _
    | simp only [key_mk, key_eta]
    | with_reducible refine Key.Goes.trans ?_ (raise_goes ..)
    | split
    | simp

theorem gateFired_goes : ∀ (x0 : State) x1, x0.key.Goes bf bf (State.gateFired x0 x1).key := by
  intros
  unfold State.gateFired
  try dsimp only
  repeat' first
    | with_reducible exact Key.Goes.refl _
    | simp only [key_mk, key_eta]
    | with_reducible refine Key.Goes.trans ?_ (raise_goes ..)
    | split
    | simp

theorem vcomFired_goes : ∀ (x0 : State) x1, x0.key.Goes bf bf (State.vcomFired x0 x1).key := by
  intros
  unfold State.vcomFired
  try dsimp only
  repeat' first
    | with_reducible exact Key.Goes.refl _
    | simp only [key_mk, key_eta]
    | with_reducible refine Key.Goes.trans ?_ (raise_goes ..)
    | split
    | simp

theorem pgTimeout_goes : ∀ (x0 : State), x0.key.Goes bf bf (State.pgTimeout x0).key := by
  intros
  unfold State.pgTimeout
  try dsimp only
  repeat' first
    | with_reducible exact Key.Goes.refl _
    | simp only [key_mk, key_eta]
    | with_reducible refine Key.Goes.trans ?_ (beginRailDown_goes ..)
    | with_reducible refine Key.Goes.trans ?_ (raise_goes ..)
    | split
    | simp

theorem loneEnd_goes : ∀ (x0 : State), x0.key.Goes bf bf (State.loneEnd x0).key := by
  intros
  unfold State.loneEnd
  try dsimp only
  repeat' first
    | with_reducible exact Key.Goes.refl _
    | simp only [key_mk, key_eta]
    | with_reducible refine Key.Goes.trans ?_ (railDownEnd_goes ..)
    | split
    | simp

theorem endDrop_goes : ∀ (x0 : State) x1, x0.key.Goes bf bf (State.endDrop x0 x1).key := by
  intros
  unfold State.endDrop
  try dsimp only
  repeat' first
    | with_reducible exact Key.Goes.refl _
    | simp only [key_mk, key_eta]
    | with_reducible refine Key.Goes.trans ?_ (downFrom_goes ..)
    | with_reducible refine Key.Goes.trans ?_ (loneEnd_goes ..)
    | split
    | simp

theorem dischOver_goes : ∀ (x0 : State), x0.key.Goes bf bf (State.dischOver x0).key := by
  intros
  unfold State.dischOver
  try dsimp only
  repeat' first
    | with_reducible exact Key.Goes.refl _
    | simp only [key_mk, key_eta]
    | with_reducible refine Key.Goes.trans ?_ (endDrop_goes ..)
    | with_reducible refine Key.Goes.trans ?_ (raise_goes ..)
    | split
    | simp

theorem railOcFired_goes : ∀ (x0 : State) x1 x2, x0.key.Goes bf bf (State.railOcFired x0 x1 x2).key := by
  intros
  unfold State.railOcFired
  try dsimp only
  repeat' first
    | with_reducible exact Key.Goes.refl _
    | simp only [key_mk, key_eta]
    | with_reducible refine Key.Goes.trans ?_ (raise_goes ..)
    | split
    | simp

theorem raiseLevel_goes : ∀ (x0 : State) x1 x2, x0.key.Goes bf bf (State.raiseLevel x0 x1 x2).key := by
  intros
  unfold State.raiseLevel
  try dsimp only
  repeat' first
    | with_reducible exact Key.Goes.refl _
    | simp only [key_mk, key_eta]
    | with_reducible refine Key.Goes.trans ?_ (raise_goes ..)
    | split
    | simp

theorem timeLost_goes : ∀ (x0 : State), x0.key.Goes bf bf (State.timeLost x0).key := by
  intros
  unfold State.timeLost
  try dsimp only
  repeat' first
    | with_reducible exact Key.Goes.refl _
    | simp only [key_mk, key_eta]
    | with_reducible refine Key.Goes.trans ?_ (raise_goes ..)
    | split
    | simp

theorem railOvFired_goes : ∀ (x0 : State) x1 x2, x0.key.Goes bf bf (State.railOvFired x0 x1 x2).key := by
  intros
  unfold State.railOvFired
  try dsimp only
  repeat' first
    | with_reducible exact Key.Goes.refl _
    | simp only [key_mk, key_eta]
    | with_reducible refine Key.Goes.trans ?_ (raise_goes ..)
    | split
    | simp

theorem readTrips_goes : ∀ (x0 : State), x0.key.Goes bf bf (State.readTrips x0).key := by
  intro s
  exact (((voteRailSet_goes s).trans (voteSeqPlan_goes _)).trans (voteLc_goes _)).trans (voteField_goes _ _ _)

theorem planNext_goes : ∀ (x0 : State), x0.key.Goes bf bf (State.planNext x0).key := by
  intros
  unfold State.planNext
  try dsimp only
  repeat' first
    | with_reducible exact Key.Goes.refl _
    | simp only [key_mk, key_eta]
    | with_reducible refine Key.Goes.trans ?_ (runSteps_goes ..)
    | split
    | simp

theorem auxPgTimeout_goes : ∀ (x0 : State), x0.key.Goes bf bf (State.auxPgTimeout x0).key := by
  intros
  unfold State.auxPgTimeout
  try dsimp only
  repeat' first
    | with_reducible exact Key.Goes.refl _
    | simp only [key_mk, key_eta]
    | with_reducible refine Key.Goes.trans ?_ (planNext_goes ..)
    | with_reducible refine Key.Goes.trans ?_ (raise_goes ..)
    | split
    | simp

theorem ledShortFired_goes : ∀ (x0 : State) x1, x0.key.Goes bf bf (State.ledShortFired x0 x1).key := by
  intros
  unfold State.ledShortFired
  try dsimp only
  repeat' first
    | with_reducible exact Key.Goes.refl _
    | simp only [key_mk, key_eta]
    | with_reducible refine Key.Goes.trans ?_ (raise_goes ..)
    | split
    | simp

theorem ledOpenFired_goes : ∀ (x0 : State) x1, x0.key.Goes bf bf (State.ledOpenFired x0 x1).key := by
  intros
  unfold State.ledOpenFired
  try dsimp only
  repeat' first
    | with_reducible exact Key.Goes.refl _
    | simp only [key_mk, key_eta]
    | with_reducible refine Key.Goes.trans ?_ (raise_goes ..)
    | split
    | simp

theorem beginHeal_goes : ∀ (x0 : State), x0.key.Goes bf bf (State.beginHeal x0).key := by
  intros
  unfold State.beginHeal
  try dsimp only
  repeat' first
    | with_reducible exact Key.Goes.refl _
    | simp only [key_mk, key_eta]
    | with_reducible refine Key.Goes.trans ?_ (raise_goes ..)
    | split
    | simp

theorem otpNext_goes : ∀ (x0 : State), x0.key.Goes bf bf (State.otpNext x0).key := by
  intros
  unfold State.otpNext
  try dsimp only
  repeat' first
    | with_reducible exact Key.Goes.refl _
    | simp only [key_mk, key_eta]
    | with_reducible refine Key.Goes.trans ?_ (beginHeal_goes ..)
    | split
    | simp

theorem otpDone_goes : ∀ (x0 : State) x1, x0.key.Goes bf bf (State.otpDone x0 x1).key := by
  intros
  unfold State.otpDone
  try dsimp only
  repeat' first
    | with_reducible exact Key.Goes.refl _
    | simp only [key_mk, key_eta]
    | with_reducible refine Key.Goes.trans ?_ (pulseOp_goes ..)
    | with_reducible refine Key.Goes.trans ?_ (otpNext_goes ..)
    | split
    | simp

theorem stopPulses_goes : ∀ (x0 : State), x0.key.Goes bf bf (State.stopPulses x0).key := by
  intros
  unfold State.stopPulses
  try dsimp only
  repeat' first
    | with_reducible exact Key.Goes.refl _
    | simp only [key_mk, key_eta]
    | with_reducible refine Key.Goes.trans ?_ (otpDone_goes ..)
    | split
    | simp

theorem lockLost_goes : ∀ (x0 : State), x0.key.Goes bf bf (State.lockLost x0).key := by
  intros
  unfold State.lockLost
  try dsimp only
  repeat' first
    | with_reducible exact Key.Goes.refl _
    | simp only [key_mk, key_eta]
    | with_reducible refine Key.Goes.trans ?_ (stopPulses_goes ..)
    | with_reducible refine Key.Goes.trans ?_ (takeover_goes ..)
    | with_reducible refine Key.Goes.trans ?_ (raise_goes ..)
    | split
    | simp

theorem raiseAll_goes : ∀ (x0 : State) x1, x0.key.Goes bf bf (State.raiseAll x0 x1).key := by
  intros
  unfold State.raiseAll
  try dsimp only
  repeat' first
    | with_reducible exact Key.Goes.refl _
    | simp only [key_mk, key_eta]
    | with_reducible refine Key.Goes.trans ?_ (raise_goes ..)
    | with_reducible refine Key.Goes.trans ?_ (goes_foldl _ (fun _ _ => ?_) _ _)
    | split
    | simp

theorem backToWait_goes : ∀ (x0 : State), x0.key.Goes bf bf (State.backToWait x0).key := by
  intros
  unfold State.backToWait
  try dsimp only
  repeat' first
    | with_reducible exact Key.Goes.refl _
    | simp only [key_mk, key_eta]
    | with_reducible refine Key.Goes.trans ?_ (mainReset_goes ..)
    | split
    | simp

theorem xtalLost_goes : ∀ (x0 : State) x1, x0.key.Goes bf bf (State.xtalLost x0 x1).key := by
  intros
  unfold State.xtalLost
  try dsimp only
  repeat' first
    | with_reducible exact Key.Goes.refl _
    | simp only [key_mk, key_eta]
    | with_reducible refine Key.Goes.trans ?_ (takeover_goes ..)
    | with_reducible refine Key.Goes.trans ?_ (raiseAll_goes ..)
    | with_reducible refine Key.Goes.trans ?_ (backToWait_goes ..)
    | split
    | simp

theorem auxOvFired_goes : ∀ (x0 : State) x1 x2, x0.key.Goes bf bf (State.auxOvFired x0 x1 x2).key := by
  intros
  unfold State.auxOvFired
  try dsimp only
  repeat' first
    | with_reducible exact Key.Goes.refl _
    | simp only [key_mk, key_eta]
    | with_reducible refine Key.Goes.trans ?_ (raise_goes ..)
    | split
    | simp

theorem dropNext_goes : ∀ (x0 : State) x1, x0.key.Goes bf bf (State.dropNext x0 x1).key := by
  intros
  unfold State.dropNext
  try dsimp only
  repeat' first
    | with_reducible exact Key.Goes.refl _
    | simp only [key_mk, key_eta]
    | with_reducible refine Key.Goes.trans ?_ (planNext_goes ..)
    | split
    | simp

theorem auxOcFired_goes : ∀ (x0 : State) x1, x0.key.Goes bf bf (State.auxOcFired x0 x1).key := by
  intros
  unfold State.auxOcFired
  try dsimp only
  repeat' first
    | with_reducible exact Key.Goes.refl _
    | simp only [key_mk, key_eta]
    | with_reducible refine Key.Goes.trans ?_ (dropNext_goes ..)
    | with_reducible refine Key.Goes.trans ?_ (raise_goes ..)
    | split
    | simp

theorem present_goes : ∀ (x0 : State) x1, x0.key.Goes [] [] (State.present x0 x1).key := by
  intro s n
  unfold State.present
  repeat' with_reducible first
    | apply Key.Goes.ite
    | apply railUvFired_goes
    | apply railOvFired_goes
    | apply railOcFired_goes
    | apply pgTimeout_goes
    | apply dischOver_goes
    | apply raise_goes
    | apply intUvFired_goes
    | apply auxOcFired_goes
    | apply auxOvFired_goes
    | apply auxUvFired_goes
    | apply auxPgTimeout_goes
    | apply ledShortFired_goes
    | apply ledOpenFired_goes
    | apply gateFired_goes
    | apply vcomFired_goes
    | apply lockLost_goes
    | apply xtalLost_goes
    | apply takeover_goes
    | apply timeLost_goes
    | apply raiseAs_goes
    | apply readTrips_goes
    | apply flipFree_goes
    | apply flipFreeCell_goes
    | apply raiseLevel_goes
    | (have := raiseLevel_goes (bf := []) (s.supFirst 8 1) n s.tree.vinOv; simpa using this)
    | apply Key.Goes.refl
  all_goals
    refine Key.Goes.of ?_ (raise_goes _ _)
    rfl

theorem inject_goes : ∀ (x0 : State) x1 x2, x0.key.Goes [] [] (State.inject x0 x1 x2).key := by
  intros
  unfold State.inject
  try dsimp only
  repeat' first
    | with_reducible exact Key.Goes.refl _
    | simp only [key_mk, key_eta]
    | with_reducible refine Key.Goes.trans ?_ (present_goes ..)
    | split
    | simp

theorem writeInj_goes : ∀ (x0 : State) x1, x0.key.Goes [] [] (State.writeInj x0 x1).key := by
  intros
  unfold State.writeInj
  try dsimp only
  repeat' first
    | with_reducible exact Key.Goes.refl _
    | simp only [key_mk, key_eta]
    | with_reducible refine Key.Goes.trans ?_ (inject_goes ..)
    | split
    | simp

theorem landAuxEn_goes : ∀ (x0 : State) x1 x2, x0.key.Goes bf bf (State.landAuxEn x0 x1 x2).key := by
  intros
  unfold State.landAuxEn
  try dsimp only
  repeat' first
    | with_reducible exact Key.Goes.refl _
    | simp only [key_mk, key_eta]
    | with_reducible refine Key.Goes.trans ?_ (planNext_goes ..)
    | split
    | simp

theorem putHouse_goes : ∀ (x0 : State) x1 x2, x0.key.Goes [] [] (State.putHouse x0 x1 x2).key := by
  intros
  unfold State.putHouse
  try dsimp only
  repeat' first
    | with_reducible exact Key.Goes.refl _
    | simp only [key_mk, key_eta]
    | with_reducible refine Key.Goes.trans ?_ (writeInj_goes ..)
    | with_reducible refine Key.Goes.trans ?_ (landAuxEn_goes ..)
    | split
    | simp

theorem commitLoad_goes : ∀ (x0 : State), x0.key.Goes bf bf (State.commitLoad x0).key := by
  intros
  unfold State.commitLoad
  try dsimp only
  repeat' first
    | with_reducible exact Key.Goes.refl _
    | simp only [key_mk, key_eta]
    | with_reducible refine Key.Goes.trans ?_ (otpNext_goes ..)
    | split
    | simp

theorem almOperate_goes : ∀ (x0 : State) x1, x0.key.Goes bf bf (State.almOperate x0 x1).key := by
  intro s op
  unfold State.almOperate
  extract_lets _ s1
  have h : s1.key = s.key := by simp [s1]
  clear_value s1
  (repeat' split) <;> first | simp [h] | (rw [← h]; exact commitLoad_goes s1)

theorem putCore_goes : ∀ (x0 : State) x1 x2, x0.key.Goes bf bf (State.putCore x0 x1 x2).key := by
  intros
  unfold State.putCore
  try dsimp only
  repeat' first
    | with_reducible exact Key.Goes.refl _
    | simp only [key_mk, key_eta]
    | with_reducible refine Key.Goes.trans ?_ (almOperate_goes ..)
    | split
    | simp

theorem putField_goes : ∀ (x0 : State) x1 x2 x3, x0.key.Goes [] [] (State.putField x0 x1 x2 x3).key := by
  intros
  unfold State.putField
  try dsimp only
  repeat' first
    | with_reducible exact Key.Goes.refl _
    | simp only [key_mk, key_eta]
    | with_reducible refine Key.Goes.trans ?_ (putHouse_goes ..)
    | with_reducible refine Key.Goes.trans ?_ (putCore_goes ..)
    | split
    | simp

theorem landOne_goes : ∀ (x0 : State) x1 x2 x3 x4, x0.key.Goes [] [] (State.landOne x0 x1 x2 x3 x4).key := by
  intros
  unfold State.landOne
  try dsimp only
  repeat' first
    | with_reducible exact Key.Goes.refl _
    | simp only [key_mk, key_eta]
    | with_reducible refine Key.Goes.trans ?_ (act_goes ..)
    | with_reducible refine Key.Goes.trans ?_ (putField_goes ..)
    | split
    | simp

theorem land_goes : ∀ (x0 : State) x1 x2 x3, x0.key.Goes [] [] (State.land x0 x1 x2 x3).key := by
  intros
  unfold State.land
  try dsimp only
  repeat' first
    | with_reducible exact Key.Goes.refl _
    | simp only [key_mk, key_eta]
    | with_reducible refine Key.Goes.trans ?_ (landOne_goes ..)
    | with_reducible refine Key.Goes.trans ?_ (goes_foldl _ (fun _ _ => ?_) _ _)
    | split
    | simp

theorem writeStep_goes : ∀ (x0 : State) x1 x2 x3, x0.key.Goes [] [] (State.writeStep x0 x1 x2 x3).key := by
  intros
  unfold State.writeStep
  try dsimp only
  repeat' first
    | with_reducible exact Key.Goes.refl _
    | simp only [key_mk, key_eta]
    | with_reducible refine Key.Goes.trans ?_ (land_goes ..)
    | split
    | simp

theorem accessTo_goes : ∀ (x0 : State) x1 x2 x3 x4, x0.key.Goes [] [] (State.accessTo x0 x1 x2 x3 x4).1.key := by
  intros
  unfold State.accessTo
  try dsimp only
  repeat' first
    | with_reducible exact Key.Goes.refl _
    | simp only [key_mk, key_eta]
    | with_reducible refine Key.Goes.trans ?_ (readAt_goes ..)
    | with_reducible refine Key.Goes.trans ?_ (writeStep_goes ..)
    | split
    | simp

theorem access_goes : ∀ (x0 : State) x1, x0.key.Goes [] [] (State.access x0 x1).1.key := by
  intros
  unfold State.access
  try dsimp only
  repeat' first
    | with_reducible exact Key.Goes.refl _
    | simp only [key_mk, key_eta]
    | with_reducible refine Key.Goes.trans ?_ (accessTo_goes ..)
    | split
    | simp

theorem actOn_goes : ∀ (x0 : State) x1, x0.key.Goes bf bf (State.actOn x0 x1).key := by
  intros
  unfold State.actOn
  try dsimp only
  repeat' first
    | with_reducible exact Key.Goes.refl _
    | simp only [key_mk, key_eta]
    | with_reducible refine Key.Goes.trans ?_ (downFrom_goes ..)
    | with_reducible refine Key.Goes.trans ?_ (abruptStop_goes ..)
    | with_reducible refine Key.Goes.trans ?_ (goes_foldl _ (fun _ _ => ?_) _ _)
    | split
    | simp

theorem agePass_goes : ∀ (x0 : State), x0.key.Goes bf bf (State.agePass x0).key := by
  intros
  unfold State.agePass
  try dsimp only
  repeat' first
    | with_reducible exact Key.Goes.refl _
    | simp only [key_mk, key_eta]
    | with_reducible refine Key.Goes.trans ?_ (visitRows_goes ..)
    | split
    | simp

theorem scrubPass_goes : ∀ (x0 : State), x0.key.Goes bf bf (State.scrubPass x0).key := by
  intro s
  unfold State.scrubPass
  split
  · exact mend_goes s _
  · exact Key.Goes.refl _

theorem ageTick_goes : ∀ (x0 : State), x0.key.Goes bf bf (State.ageTick x0).key := by
  intro s
  unfold State.ageTick
  extract_lets held s1 s2 m
  have h1 : s.key.Goes bf bf s1.key := by
    unfold s1
    split
    · exact Key.Goes.refl _
    · exact scrubPass_goes s
  have h2 : s1.key.Goes bf bf s2.key := by
    unfold s2
    split
    · exact Key.Goes.refl _
    · exact agePass_goes s1
  simpa [m] using h1.trans h2

theorem agingTick_goes : ∀ (x0 : State) x1, x0.key.Goes (x1 ++ bf) bf (State.agingTick x0 x1).key := by
  intro s l
  unfold State.agingTick
  split
  · rename_i t _
    split
    · have := (flipBits_goes (bf := bf) (s.reach t) l).trans (ageTick_goes (bf := bf) ((s.reach t).flipBits l))
      simpa using this
    · exact Key.Goes.drop _
  · exact Key.Goes.drop _

theorem planHoldReturn_goes : ∀ (x0 : State), x0.key.Goes bf bf (State.planHoldReturn x0).key := by
  intros
  unfold State.planHoldReturn
  try dsimp only
  repeat' first
    | with_reducible exact Key.Goes.refl _
    | simp only [key_mk, key_eta]
    | with_reducible refine Key.Goes.trans ?_ (runPlan_goes ..)
    | split
    | simp

theorem reactUp_goes : ∀ (x0 : State) x1, x0.key.Goes bf bf (State.reactUp x0 x1).key := by
  intros
  unfold State.reactUp
  try dsimp only
  repeat' first
    | with_reducible exact Key.Goes.refl _
    | simp only [key_mk, key_eta]
    | with_reducible refine Key.Goes.trans ?_ (planHoldReturn_goes ..)
    | split
    | simp

theorem tryReactUp_goes : ∀ (x0 : State), x0.key.Goes bf bf (State.tryReactUp x0).key := by
  intros
  unfold State.tryReactUp
  try dsimp only
  repeat' first
    | with_reducible exact Key.Goes.refl _
    | simp only [key_mk, key_eta]
    | with_reducible refine Key.Goes.trans ?_ (reactUp_goes ..)
    | split
    | simp

theorem atDecision_goes : ∀ (x0 : State) x1, x0.key.Goes bf bf (State.atDecision x0 x1).key := by
  intros
  unfold State.atDecision
  try dsimp only
  repeat' first
    | with_reducible exact Key.Goes.refl _
    | simp only [key_mk, key_eta]
    | with_reducible refine Key.Goes.trans ?_ (goDark_goes ..)
    | with_reducible refine Key.Goes.trans ?_ (tryReactUp_goes ..)
    | split
    | simp

theorem auxArmed_goes : ∀ (x0 : State) x1, x0.key.Goes bf bf (State.auxArmed x0 x1).key := by
  intro s n
  unfold State.auxArmed
  dsimp only
  split
  · refine Key.Goes.trans ?_ (meet_goes _ _ _ (fun t => auxUvFired_goes t 0))
    refine Key.Goes.trans ?_ (meet_goes _ _ _ (fun t => auxOvFired_goes t 0 true))
    refine Key.Goes.trans ?_ (meet_goes _ _ _ (fun t => auxOcFired_goes t 0))
    simp
  · simp


theorem dropsEnd_goes : ∀ (x0 : State), x0.key.Goes bf bf (State.dropsEnd x0).key := by
  intros
  unfold State.dropsEnd
  try dsimp only
  repeat' first
    | with_reducible exact Key.Goes.refl _
    | simp only [key_mk, key_eta]
    | with_reducible refine Key.Goes.trans ?_ (enterReset_goes ..)
    | with_reducible refine Key.Goes.trans ?_ (enterDormant_goes ..)
    | split
    | simp

theorem auxRampEnd_goes : ∀ (x0 : State) x1, x0.key.Goes bf bf (State.auxRampEnd x0 x1).key := by
  intro s0 n
  unfold State.auxRampEnd
  extract_lets s ends s1
  have h : s0.key.Goes bf bf s.key := by
    unfold s
    split
    · exact Key.Goes.refl _
    · simp
  have h1 : s1.key = s.key := by simp [s1]
  clear_value s1 s
  rw [← h1] at h
  repeat' split
  all_goals first
    | exact h
    | exact h.trans (dropsEnd_goes s1)
    | exact h.trans (dropNext_goes s1 _)

theorem enterUnwaited_goes : ∀ (x0 : State), x0.key.Goes bf bf (State.enterUnwaited x0).key := by
  intros
  unfold State.enterUnwaited
  try dsimp only
  repeat' first
    | with_reducible exact Key.Goes.refl _
    | simp only [key_mk, key_eta]
    | with_reducible refine Key.Goes.trans ?_ (commitDormant_goes ..)
    | split
    | simp

theorem backupIdleEnd_goes : ∀ (x0 : State), x0.key.Goes bf bf (State.backupIdleEnd x0).key := by
  intros
  unfold State.backupIdleEnd
  try dsimp only
  repeat' first
    | with_reducible exact Key.Goes.refl _
    | simp only [key_mk, key_eta]
    | with_reducible refine Key.Goes.trans ?_ (enterUnwaited_goes ..)
    | split
    | simp

theorem backupTimeEnd_goes : ∀ (x0 : State), x0.key.Goes bf bf (State.backupTimeEnd x0).key := by
  intros
  unfold State.backupTimeEnd
  try dsimp only
  repeat' first
    | with_reducible exact Key.Goes.refl _
    | simp only [key_mk, key_eta]
    | with_reducible refine Key.Goes.trans ?_ (enterUnwaited_goes ..)
    | split
    | simp

theorem beginResetOrder_goes : ∀ (x0 : State), x0.key.Goes bf bf (State.beginResetOrder x0).key := by
  intros
  unfold State.beginResetOrder
  try dsimp only
  repeat' first
    | with_reducible exact Key.Goes.refl _
    | simp only [key_mk, key_eta]
    | with_reducible refine Key.Goes.trans ?_ (hedgeStop_goes ..)
    | with_reducible refine Key.Goes.trans ?_ (beginRailDown_goes ..)
    | split
    | simp

theorem raiseShortfall_goes : ∀ (x0 : State), x0.key.Goes bf bf (State.raiseShortfall x0).key := by
  intros
  unfold State.raiseShortfall
  try dsimp only
  repeat' first
    | with_reducible exact Key.Goes.refl _
    | simp only [key_mk, key_eta]
    | with_reducible refine Key.Goes.trans ?_ (raiseLevel_goes ..)
    | split
    | simp

theorem drillBoundary_goes : ∀ (x0 : State), x0.key.Goes bf bf (State.drillBoundary x0).key := by
  intro s
  unfold State.drillBoundary
  extract_lets dead s1 s2 s3 s4
  have h1 : s1.key = s.key := key_foldl _ (fun _ _ => by simp) _ _
  have h3 : s3.key = s.key := by simp [s3, s2, h1]
  have h4 : s4.key = s.key := by simp [s4, h3]
  clear_value s4 s3 s2 s1
  (repeat' split) <;> first | simp [h3, h4] | (rw [← h4]; exact raiseShortfall_goes s4)

theorem residualChecks_goes : ∀ (x0 : State), x0.key.Goes bf bf (State.residualChecks x0).key := by
  intros
  unfold State.residualChecks
  try dsimp only
  repeat' first
    | with_reducible exact Key.Goes.refl _
    | simp only [key_mk, key_eta]
    | with_reducible refine Key.Goes.trans ?_ (raiseAll_goes ..)
    | split
    | simp

theorem readbackBoundary_goes : ∀ (x0 : State), x0.key.Goes bf bf (State.readbackBoundary x0).key := by
  intros
  unfold State.readbackBoundary
  try dsimp only
  repeat' first
    | with_reducible exact Key.Goes.refl _
    | simp only [key_mk, key_eta]
    | with_reducible refine Key.Goes.trans ?_ (raise_goes ..)
    | split
    | simp

theorem endFrame_goes : ∀ (x0 : State), x0.key.Goes bf bf (State.endFrame x0).key := by
  intros
  unfold State.endFrame
  try dsimp only
  repeat' first
    | with_reducible exact Key.Goes.refl _
    | simp only [key_mk, key_eta]
    | with_reducible refine Key.Goes.trans ?_ (residualChecks_goes ..)
    | with_reducible refine Key.Goes.trans ?_ (readbackBoundary_goes ..)
    | split
    | simp

theorem betweenFrames_goes : ∀ (x0 : State), x0.key.Goes bf bf (State.betweenFrames x0).key := by
  intros
  unfold State.betweenFrames
  try dsimp only
  repeat' first
    | with_reducible exact Key.Goes.refl _
    | simp only [key_mk, key_eta]
    | with_reducible refine Key.Goes.trans ?_ (drillBoundary_goes ..)
    | with_reducible refine Key.Goes.trans ?_ (endFrame_goes ..)
    | split
    | simp

theorem reactRecorded_goes : ∀ (x0 : State), x0.key.Goes bf bf (State.reactRecorded x0).key := by
  intros
  unfold State.reactRecorded
  try dsimp only
  repeat' first
    | with_reducible exact Key.Goes.refl _
    | simp only [key_mk, key_eta]
    | with_reducible refine Key.Goes.trans ?_ (react_goes ..)
    | with_reducible refine Key.Goes.trans ?_ (goes_foldl _ (fun _ _ => ?_) _ _)
    | split
    | simp

theorem booted_goes : ∀ (x0 : State), x0.key.Goes bf bf (State.booted x0).key := by
  intros
  unfold State.booted
  try dsimp only
  repeat' first
    | with_reducible exact Key.Goes.refl _
    | simp only [key_mk, key_eta]
    | with_reducible refine Key.Goes.trans ?_ (reactRecorded_goes ..)
    | split
    | simp

theorem deliveryDown_goes : ∀ (x0 : State), x0.key.Goes bf bf (State.deliveryDown x0).key := by
  intros
  unfold State.deliveryDown
  try dsimp only
  repeat' first
    | with_reducible exact Key.Goes.refl _
    | simp only [key_mk, key_eta]
    | with_reducible refine Key.Goes.trans ?_ (beginRailDown_goes ..)
    | split
    | simp

theorem checkConditions_goes : ∀ (x0 : State) x1, x0.key.Goes bf bf (State.checkConditions x0 x1).key := by
  intro s b
  unfold State.checkConditions
  extract_lets _ _ _ _ _ _ _ _ _ _ _ _ _ _ _ _ _ _ _ _ _ s1 s2 s3
  have h2 : s2.key = s.key := by
    have h1 : s1.key = s.key := rfl
    clear_value s1
    unfold s2
    split
    · rw [easeChanged_key, h1]
    · exact h1
  have h3 : s2.key.Goes bf bf s3.key := raiseAll_goes s2 _
  clear_value s3 s2 s1
  rw [h2] at h3
  simpa using h3

theorem thermStep_goes : ∀ (x0 : State) x1, x0.key.Goes bf bf (State.thermStep x0 x1).key := by
  intros
  unfold State.thermStep
  try dsimp only
  repeat' first
    | with_reducible exact Key.Goes.refl _
    | simp only [key_mk, key_eta]
    | with_reducible refine Key.Goes.trans ?_ (checkConditions_goes ..)
    | split
    | simp

theorem stopStep_goes : ∀ (x0 : State), x0.key.Goes bf bf (State.stopStep x0).key := by
  intros
  unfold State.stopStep
  try dsimp only
  repeat' first
    | with_reducible exact Key.Goes.refl _
    | simp only [key_mk, key_eta]
    | with_reducible refine Key.Goes.trans ?_ (thermStep_goes ..)
    | split
    | simp

theorem orderlyStop_goes : ∀ (x0 : State), x0.key.Goes bf bf (State.orderlyStop x0).key := by
  intros
  unfold State.orderlyStop
  try dsimp only
  repeat' first
    | with_reducible exact Key.Goes.refl _
    | simp only [key_mk, key_eta]
    | with_reducible refine Key.Goes.trans ?_ (stopStep_goes ..)
    | with_reducible refine Key.Goes.trans ?_ (stopScan_goes ..)
    | with_reducible refine Key.Goes.trans ?_ (betweenFrames_goes ..)
    | split
    | simp

theorem thermBoundary_goes : ∀ (x0 : State) x1, x0.key.Goes bf bf (State.thermBoundary x0 x1).key := by
  intros
  unfold State.thermBoundary
  try dsimp only
  repeat' first
    | with_reducible exact Key.Goes.refl _
    | simp only [key_mk, key_eta]
    | with_reducible refine Key.Goes.trans ?_ (thermStep_goes ..)
    | split
    | simp

theorem checkSpan_goes : ∀ x0 (x1 : State), x1.key.Goes bf bf (State.checkSpan x0 x1).key := by
  intro s t
  unfold State.checkSpan
  split
  · exact raiseShortfall_goes t
  · exact Key.Goes.refl _

theorem nextFrame_goes : ∀ (x0 : State), x0.key.Goes bf bf (State.nextFrame x0).key := by
  intro s
  unfold State.nextFrame
  extract_lets h s2 s3 s4 s5 t _ s6
  have h2 : s.key.Goes bf bf s2.key := betweenFrames_goes s
  have h3 : s2.key.Goes bf bf s3.key := by
    simp [s3]
  have h4 : s3.key.Goes bf bf s4.key := by simpa [s4] using thermBoundary_goes s3.vcomBoundary h
  have h5 : s5.key = s4.key := by simp [s5]
  have ht : t.key = s5.key := headlandBegin_key s5
  clear_value t
  have h6 : s6.key = s5.key := by
    rw [← ht]
    rfl
  clear_value s6 s5 s4 s3 s2
  split
  · exact h2.trans (stopStep_goes s2)
  · split
    · exact (h2.trans h3).trans h4
    · have g : s.key.Goes bf bf s6.firstRender.key := by simpa [h6, h5] using (h2.trans h3).trans h4
      exact g.trans (checkSpan_goes s2 _)

theorem deliveryBoundary_goes : ∀ (x0 : State), x0.key.Goes bf bf (State.deliveryBoundary x0).key := by
  intros
  unfold State.deliveryBoundary
  try dsimp only
  repeat' first
    | with_reducible exact Key.Goes.refl _
    | simp only [key_mk, key_eta]
    | with_reducible refine Key.Goes.trans ?_ (deliveryDown_goes ..)
    | with_reducible refine Key.Goes.trans ?_ (orderlyStop_goes ..)
    | with_reducible refine Key.Goes.trans ?_ (nextFrame_goes ..)
    | split
    | simp

theorem reactionStop_goes : ∀ (x0 : State), x0.key.Goes bf bf (State.reactionStop x0).key := by
  intros
  unfold State.reactionStop
  try dsimp only
  repeat' first
    | with_reducible exact Key.Goes.refl _
    | simp only [key_mk, key_eta]
    | with_reducible refine Key.Goes.trans ?_ (orderlyStop_goes ..)
    | with_reducible refine Key.Goes.trans ?_ (beginRailDown_goes ..)
    | split
    | simp

theorem boundary_goes : ∀ (x0 : State), x0.key.Goes bf bf (State.boundary x0).key := by
  intros
  unfold State.boundary
  try dsimp only
  repeat' first
    | with_reducible exact Key.Goes.refl _
    | simp only [key_mk, key_eta]
    | with_reducible refine Key.Goes.trans ?_ (deliveryBoundary_goes ..)
    | with_reducible refine Key.Goes.trans ?_ (nextFrame_goes ..)
    | with_reducible refine Key.Goes.trans ?_ (reactionStop_goes ..)
    | split
    | simp

theorem checkHeartbeats_goes : ∀ (x0 : State) x1 x2, x0.key.Goes bf bf (State.checkHeartbeats x0 x1 x2).key := by
  intros
  unfold State.checkHeartbeats
  try dsimp only
  repeat' first
    | with_reducible exact Key.Goes.refl _
    | simp only [key_mk, key_eta]
    | with_reducible refine Key.Goes.trans ?_ (raise_goes ..)
    | with_reducible refine Key.Goes.trans ?_ (goes_foldl _ (fun _ _ => ?_) _ _)
    | split
    | simp

theorem copyDone_goes : ∀ (x0 : State) x1, x0.key.Goes bf bf (State.copyDone x0 x1).key := by
  intros
  unfold State.copyDone
  try dsimp only
  repeat' first
    | with_reducible exact Key.Goes.refl _
    | simp only [key_mk, key_eta]
    | with_reducible refine Key.Goes.trans ?_ (raiseAs_goes ..)
    | split
    | simp

theorem countDouble_goes : ∀ (x0 : State) x1, x0.key.Goes bf bf (State.countDouble x0 x1).key := by
  intros
  unfold State.countDouble
  try dsimp only
  repeat' first
    | with_reducible exact Key.Goes.refl _
    | simp only [key_mk, key_eta]
    | with_reducible refine Key.Goes.trans ?_ (raise_goes ..)
    | split
    | simp

theorem delayEnd_goes : ∀ (x0 : State), x0.key.Goes bf bf (State.delayEnd x0).key := by
  intros
  unfold State.delayEnd
  try dsimp only
  repeat' first
    | with_reducible exact Key.Goes.refl _
    | simp only [key_mk, key_eta]
    | with_reducible refine Key.Goes.trans ?_ (planNext_goes ..)
    | split
    | simp

theorem otpFailed_goes : ∀ (x0 : State), x0.key.Goes bf bf (State.otpFailed x0).key := by
  intros
  unfold State.otpFailed
  try dsimp only
  repeat' first
    | with_reducible exact Key.Goes.refl _
    | simp only [key_mk, key_eta]
    | with_reducible refine Key.Goes.trans ?_ (mainReset_goes ..)
    | with_reducible refine Key.Goes.trans ?_ (raise_goes ..)
    | split
    | simp

theorem delivered_goes : ∀ (x0 : State) x1, x0.key.Goes bf bf (State.delivered x0 x1).key := by
  intros
  unfold State.delivered
  try dsimp only
  repeat' first
    | with_reducible exact Key.Goes.refl _
    | simp only [key_mk, key_eta]
    | with_reducible refine Key.Goes.trans ?_ (otpFailed_goes ..)
    | split
    | simp

theorem deliveryLimit_goes : ∀ (x0 : State), x0.key.Goes bf bf (State.deliveryLimit x0).key := by
  intros
  unfold State.deliveryLimit
  try dsimp only
  repeat' first
    | with_reducible exact Key.Goes.refl _
    | simp only [key_mk, key_eta]
    | with_reducible refine Key.Goes.trans ?_ (deliveryDown_goes ..)
    | split
    | simp

theorem discharged_goes : ∀ (x0 : State), x0.key.Goes bf bf (State.discharged x0).key := by
  intros
  unfold State.discharged
  try dsimp only
  repeat' first
    | with_reducible exact Key.Goes.refl _
    | simp only [key_mk, key_eta]
    | with_reducible refine Key.Goes.trans ?_ (endDrop_goes ..)
    | split
    | simp

theorem stopAtCommit_goes : ∀ (x0 : State), x0.key.Goes bf bf (State.stopAtCommit x0).key := by
  intro s
  unfold State.stopAtCommit
  split
  · have := orderlyStop_goes (bf := bf) (s.reach (s.slotTime s.frameRows))
    simpa using this
  · split
    · rename_i t _
      have := orderlyStop_goes (bf := bf) (s.reach t)
      simpa using this
    · exact stopScan_goes s

theorem dormantCommit_goes : ∀ (x0 : State) x1 x2, x0.key.Goes bf bf (State.dormantCommit x0 x1 x2).key := by
  intros
  unfold State.dormantCommit
  try dsimp only
  repeat' first
    | with_reducible exact Key.Goes.refl _
    | simp only [key_mk, key_eta]
    | with_reducible refine Key.Goes.trans ?_ (commitDormant_goes ..)
    | with_reducible refine Key.Goes.trans ?_ (stopAtCommit_goes ..)
    | split
    | simp

theorem drainEnd_goes : ∀ (x0 : State), x0.key.Goes bf bf (State.drainEnd x0).key := by
  intro s
  unfold State.drainEnd
  split
  · dsimp only
    refine Key.Goes.trans ?_ (checkSpan_goes s _)
    simp
  · exact Key.Goes.refl _

theorem readWindow_goes : ∀ (x0 : State), x0.key.Goes bf bf (State.readWindow x0).key := by
  intros
  unfold State.readWindow
  try dsimp only
  repeat' first
    | with_reducible exact Key.Goes.refl _
    | simp only [key_mk, key_eta]
    | with_reducible refine Key.Goes.trans ?_ (raise_goes ..)
    | split
    | simp

theorem planPowerUp_goes : ∀ (x0 : State), x0.key.Goes bf bf (State.planPowerUp x0).key := by
  intros
  unfold State.planPowerUp
  try dsimp only
  repeat' first
    | with_reducible exact Key.Goes.refl _
    | simp only [key_mk, key_eta]
    | with_reducible refine Key.Goes.trans ?_ (runPlan_goes ..)
    | split
    | simp

theorem e0Start_goes : ∀ (x0 : State), x0.key.Goes bf bf (State.e0Start x0).key := by
  intros
  unfold State.e0Start
  try dsimp only
  repeat' first
    | with_reducible exact Key.Goes.refl _
    | simp only [key_mk, key_eta]
    | with_reducible refine Key.Goes.trans ?_ (otpFailed_goes ..)
    | with_reducible refine Key.Goes.trans ?_ (readWindow_goes ..)
    | with_reducible refine Key.Goes.trans ?_ (otpNext_goes ..)
    | with_reducible refine Key.Goes.trans ?_ (planPowerUp_goes ..)
    | split
    | simp

theorem endBackupRun_goes : ∀ (x0 : State), x0.key.Goes bf bf (State.endBackupRun x0).key := by
  intros
  unfold State.endBackupRun
  try dsimp only
  repeat' first
    | with_reducible exact Key.Goes.refl _
    | simp only [key_mk, key_eta]
    | with_reducible refine Key.Goes.trans ?_ (planPowerUp_goes ..)
    | split
    | simp

theorem endRecovery_goes : ∀ (x0 : State) x1, x0.key.Goes bf bf (State.endRecovery x0 x1).key := by
  intros
  unfold State.endRecovery
  try dsimp only
  repeat' first
    | with_reducible exact Key.Goes.refl _
    | simp only [key_mk, key_eta]
    | with_reducible refine Key.Goes.trans ?_ (beginReaction_goes ..)
    | split
    | simp

theorem endTests_goes : ∀ (x0 : State) x1 x2, x0.key.Goes bf bf (State.endTests x0 x1 x2).key := by
  intros
  unfold State.endTests
  try dsimp only
  repeat' first
    | with_reducible exact Key.Goes.refl _
    | simp only [key_mk, key_eta]
    | with_reducible refine Key.Goes.trans ?_ (raise_goes ..)
    | with_reducible refine Key.Goes.trans ?_ (tryReactUp_goes ..)
    | split
    | simp

theorem serve_goes : ∀ x0 (x1 : State) x2, x1.key.Goes [] [] (State.serve x0 x1 x2).key := by
  intro n
  induction n with
  | zero => intro s v; simp [State.serve]
  | succ n ih =>
    intro s v
    unfold State.serve
    have g := access_goes s v
    split
    · simp
    · split <;> rename_i h <;> rw [h] at g
      · simpa using g
      · exact g.trans (ih _ _)
      · exact g

theorem serveLetter_goes : ∀ (x0 : State) x1, x0.key.Goes [] [] (State.serveLetter x0 x1).key := by
  intros
  unfold State.serveLetter
  try dsimp only
  repeat' first
    | with_reducible exact Key.Goes.refl _
    | simp only [key_mk, key_eta]
    | with_reducible refine Key.Goes.trans ?_ (serve_goes ..)
    | split
    | simp

theorem registerLetter_goes : ∀ (x0 : State) x1, x0.key.Goes [] [] (State.registerLetter x0 x1).key := by
  intros
  unfold State.registerLetter
  try dsimp only
  repeat' first
    | with_reducible exact Key.Goes.refl _
    | simp only [key_mk, key_eta]
    | with_reducible refine Key.Goes.trans ?_ (serveLetter_goes ..)
    | split
    | simp

theorem order6_goes : ∀ (x0 : State) x1, x0.key.Goes [] [] (State.order6 x0 x1).key := by
  intros
  unfold State.order6
  try dsimp only
  repeat' first
    | with_reducible exact Key.Goes.refl _
    | simp only [key_mk, key_eta]
    | with_reducible refine Key.Goes.trans ?_ (registerLetter_goes ..)
    | split
    | simp

theorem examine_goes : ∀ (x0 : State) x1, x0.key.Goes [] [] (State.examine x0 x1).key := by
  intros
  unfold State.examine
  try dsimp only
  repeat' first
    | with_reducible exact Key.Goes.refl _
    | simp only [key_mk, key_eta]
    | with_reducible refine Key.Goes.trans ?_ (order6_goes ..)
    | split
    | simp

theorem writeUnit_goes : ∀ (x0 : State) x1 x2 x3 x4, x0.key.Goes bf bf (State.writeUnit x0 x1 x2 x3 x4).1.key := by
  intro s own restate r pick
  unfold State.writeUnit
  extract_lets ok met bad keys f s1 _ s2 lost
  have h1 : s.key.Goes bf bf s1.key := by
    have := rewritten_goes (bf := bf) (s.countMended met) met
    simpa [s1] using this
  have h2 : s1.key.Goes bf bf s2.key := Key.Goes.newPixels (fun h => swf_sapply _ _ _ _ h
    (rising_of_pairwise (r.keys_sorted.filter _))) (fun h => idleAgree_sapply h (fun k w hw => started_agrees hw _ _ _)) rfl rfl rfl rfl rfl rfl
  clear_value s2 s1
  exact (h1.trans h2).trans (goes_foldl _ (fun t g => countDouble_goes t g) bad s2)

theorem startZero_goes : ∀ (x0 : State), x0.key.Goes bf bf (State.startZero x0).key := by
  intros
  unfold State.startZero
  try dsimp only
  repeat' first
    | with_reducible exact Key.Goes.refl _
    | simp only [key_mk, key_eta]
    | with_reducible refine Key.Goes.trans ?_ (writeUnit_goes ..)
    | with_reducible refine Key.Goes.trans ?_ (goes_foldl _ (fun _ _ => ?_) _ _)
    | split
    | simp

theorem startSetZero_goes : ∀ (x0 : State), x0.key.Goes bf bf (State.startSetZero x0).key := by
  intros
  unfold State.startSetZero
  try dsimp only
  repeat' first
    | with_reducible exact Key.Goes.refl _
    | simp only [key_mk, key_eta]
    | with_reducible refine Key.Goes.trans ?_ (startZero_goes ..)
    | split
    | simp

theorem startUnit_goes : ∀ (x0 : State) x1 x2, x0.key.Goes bf bf (State.startUnit x0 x1 x2).key := by
  intro s n r
  unfold State.startUnit
  extract_lets p pick w s1 lost count u next st p1 s2
  have h1 : s.key.Goes bf bf s1.key := writeUnit_goes s _ _ _ _
  have hc : ∀ t, (count t).key = t.key := by
    intro t
    simp only [count]
    split <;> rfl
  have h2 : s2.key = s1.key := by simp [s2]
  clear_value s1 s2 count
  split
  · simpa [hc] using h1
  · rw [hc]
    split
    · simpa [h2] using h1
    · simpa [h2] using h1

theorem startFree_goes : ∀ (x0 : State), x0.key.Goes bf bf (State.startFree x0).key := by
  intros
  unfold State.startFree
  try dsimp only
  repeat' first
    | with_reducible exact Key.Goes.refl _
    | simp only [key_mk, key_eta]
    | with_reducible refine Key.Goes.trans ?_ (startUnit_goes ..)
    | with_reducible refine Key.Goes.trans ?_ (goes_foldl _ (fun _ _ => ?_) _ _)
    | split
    | simp

/-- The walk of R212 keeps the stores. -/
theorem walk_goes (e a : Int) (l : List Nat) (w : Walk) : w.st.key.Goes bf bf (l.foldl (Walk.visit e a) w).st.key := by
  induction l generalizing w with
  | nil => exact Key.Goes.refl _
  | cons n l ih =>
    refine Key.Goes.trans ?_ (ih _)
    unfold Walk.visit
    dsimp only
    repeat' first
      | exact Key.Goes.refl _
      | apply startUnit_goes
      | dsimp only
      | split

theorem freeStarts_goes (s : State) (b : Nat) : s.key.Goes bf bf (State.startFree (State.withdrawDue { s with pgh.budget := b })).key := by
  have h : (State.withdrawDue { s with pgh.budget := b }).key = s.key := by simp
  rw [← h]
  exact startFree_goes _

theorem fixStarts_goes : ∀ (x0 : State), x0.key.Goes bf bf (State.fixStarts x0).key := by
  intro s
  unfold State.fixStarts
  extract_lets s1 b e _ s2 cand s3 c p waitingHosts _ s4 hidden order h a w s5 s6
  have h1 : s.key.Goes bf bf s1.key := startSetZero_goes s
  clear_value e b s1
  have h2 : s1.key.Goes bf bf s2.key := freeStarts_goes s1 b
  have h3 : s3.key = s2.key := by simp [s3, key_foldl]
  have h4 : s4.key = s3.key := by simp [s4]
  have hw : s4.key.Goes bf bf w.st.key := walk_goes e a order { st := s4, h := h, c := c, used := 0, started := [], ended := false }
  have h6 : s6.key = w.st.key := by simp [s6, s5]
  clear_value s6 w s4 s3 s2
  have g := (h1.trans h2).trans (by rw [← h3, ← h4]; exact hw)
  simpa [h6] using g

theorem pump_goes : ∀ (x0 : State), x0.key.Goes [] [] (State.pump x0).key := by
  intros
  unfold State.pump
  try dsimp only
  repeat' first
    | with_reducible exact Key.Goes.refl _
    | simp only [key_mk, key_eta]
    | with_reducible refine Key.Goes.trans ?_ (serveLetter_goes ..)
    | with_reducible refine Key.Goes.trans ?_ (goes_foldl _ (fun _ _ => ?_) _ _)
    | split
    | simp

theorem guardedReply_goes : ∀ (x0 : State), x0.key.Goes [] [] (State.guardedReply x0).key := by
  intros
  unfold State.guardedReply
  try dsimp only
  repeat' first
    | with_reducible exact Key.Goes.refl _
    | simp only [key_mk, key_eta]
    | with_reducible refine Key.Goes.trans ?_ (pump_goes ..)
    | with_reducible refine Key.Goes.trans ?_ (land_goes ..)
    | split
    | simp

theorem recordLoop_goes : ∀ (x0 : State) x1 x2, x0.key.Goes bf bf (State.recordLoop x0 x1 x2).key := by
  intros
  unfold State.recordLoop
  try dsimp only
  repeat' first
    | with_reducible exact Key.Goes.refl _
    | simp only [key_mk, key_eta]
    | with_reducible refine Key.Goes.trans ?_ (raise_goes ..)
    | split
    | simp

theorem headlandEnd_goes : ∀ (x0 : State) x1 x2, x0.key.Goes bf bf (State.headlandEnd x0 x1 x2).key := by
  intros
  unfold State.headlandEnd
  try dsimp only
  repeat' first
    | with_reducible exact Key.Goes.refl _
    | simp only [key_mk, key_eta]
    | with_reducible refine Key.Goes.trans ?_ (recordLoop_goes ..)
    | split
    | simp

theorem holdCommit_goes : ∀ (x0 : State) x1 x2, x0.key.Goes bf bf (State.holdCommit x0 x1 x2).key := by
  intros
  unfold State.holdCommit
  try dsimp only
  repeat' first
    | with_reducible exact Key.Goes.refl _
    | simp only [key_mk, key_eta]
    | with_reducible refine Key.Goes.trans ?_ (commitHold_goes ..)
    | with_reducible refine Key.Goes.trans ?_ (stopAtCommit_goes ..)
    | split
    | simp

theorem injectEnd_goes : ∀ (x0 : State), x0.key.Goes bf bf (State.injectEnd x0).key := by
  intros
  unfold State.injectEnd
  try dsimp only
  repeat' first
    | with_reducible exact Key.Goes.refl _
    | simp only [key_mk, key_eta]
    | with_reducible refine Key.Goes.trans ?_ (tryReactUp_goes ..)
    | split
    | simp

theorem ledgerRow_goes : ∀ (x0 : State) x1 x2 x3, x0.key.Goes bf bf (State.ledgerRow x0 x1 x2 x3).key := by
  intro s row codes q
  unfold State.ledgerRow
  extract_lets d mine key all bad t _ s0 cols f sat _ s1 _ _ s2
  have hs : (cols.map key).Pairwise (· < ·) := by
    rw [List.pairwise_map]
    exact (List.pairwise_lt_range.filter _).imp (fun h => Nat.add_lt_add_left h _)
  have ha : all.Pairwise (· < ·) := by
    unfold all
    split
    · rw [List.pairwise_map]
      exact (List.pairwise_lt_range.filter _).imp (fun h => Nat.add_lt_add_left h _)
    · exact .nil
  have ht : s.key.Goes bf bf t.key := freshCells_goes s mine
  have h0 : t.key.Goes bf bf s0.key := Key.Goes.newLedger (fun h => swf_sapply _ _ _ _ h (rising_of_pairwise ha)) id rfl rfl rfl rfl rfl
  have h1 : s0.key.Goes bf bf s1.key := Key.Goes.newLedger (fun h => swf_sapply _ _ _ _ h (rising_of_pairwise hs)) id rfl rfl rfl rfl rfl
  have h2 : s2.key = s1.key := by
    unfold s2
    split <;> rfl
  clear_value s2 s1 s0
  have g := (ht.trans h0).trans h1
  rw [← h2] at g
  split
  · exact g
  · refine g.trans (Key.Goes.of ?_ (raise_goes _ _))
    rfl

theorem reread_goes : ∀ (x0 : State) x1 x2 x3 x4, x0.key.Goes (x4 ++ bf) bf (State.reread x0 x1 x2 x3 x4).key := by
  intro s row l lost flips
  exact (flipBits_goes (bf := bf) s flips).trans (mend_goes (bf := bf) (s.flipBits flips) _)

/-- Every pixel of a scanned row agrees. -/
theorem rowPixels_agree (s : State) (h : idleAgree s.mem.pixels) (row : Nat) (lost : List Nat) :
    ∀ p ∈ s.rowPixels row lost, pixelAgrees p.after := by
  intro p hp
  unfold State.rowPixels at hp
  rw [List.mem_map] at hp
  obtain ⟨x, hx, rfl⟩ := hp
  exact scanned_agrees s row lost _ (h x (List.mem_filter.1 hx).1)

theorem rowDelivered_goes : ∀ (x0 : State) x1 x2 x3, x0.key.Goes (x2.lateFlips ++ bf) bf (State.rowDelivered x0 x1 x2 x3).key := by
  intro s row i lost
  unfold State.rowDelivered
  extract_lets scanned codes zp refused l word hits _ _ _ _ s1 s2 s3
  have h1 : s.key.Goes (i.lateFlips ++ bf) (i.lateFlips ++ bf) s1.key := by
    refine Key.Goes.newPixels (swf_smap _ _ _) (fun h => idleAgree_smap h (fun k w hw => ?_)) rfl rfl rfl rfl rfl rfl
    simp only [word]
    split
    · rename_i p hp
      split
      · have hm : p ∈ l := List.mem_of_find?_eq_some hp
        refine rowPixels_agree s h row lost p ?_
        simp only [l] at hm
        split at hm
        · exact hm
        · exact (List.mem_filter.1 hm).1
      · exact hw
    · exact hw
  have h2 : s1.key.Goes (i.lateFlips ++ bf) (i.lateFlips ++ bf) s2.key := by
    have e : s2.key = (s1.rewritten (fun g => g / 768 == row && !refused.contains (g % 768) && s.takesPart row (g % 768 * 4))).key :=
      key_foldl _ (fun _ _ => by simp) _ _
    rw [e]
    exact rewritten_goes s1 _
  have h3 : s2.key.Goes (i.lateFlips ++ bf) (i.lateFlips ++ bf) s3.key := by
    have := ledgerRow_goes (bf := i.lateFlips ++ bf) (s2.addCharge i.charge) row codes (fun g => !refused.contains g)
    simpa [s3] using this
  clear_value s3 s2 s1
  exact ((h1.trans h2).trans h3).trans ((reread_goes (bf := bf) s3 _ _ _ _).trans (raiseAll_goes _ _))

theorem releaseRow_goes : ∀ (x0 : State) x1, x0.key.Goes bf bf (State.releaseRow x0 x1).key := by
  intros
  unfold State.releaseRow
  try dsimp only
  repeat' first
    | with_reducible exact Key.Goes.refl _
    | simp only [key_mk, key_eta]
    | with_reducible refine Key.Goes.trans ?_ (release_goes ..)
    | split
    | simp

theorem rowReads_goes : ∀ (x0 : State) x1, x0.key.Goes bf bf (State.rowReads x0 x1).1.key := by
  intros
  unfold State.rowReads
  try dsimp only
  repeat' first
    | with_reducible exact Key.Goes.refl _
    | simp only [key_mk, key_eta]
    | with_reducible refine Key.Goes.trans ?_ (countDouble_goes ..)
    | with_reducible refine Key.Goes.trans ?_ (goes_foldl _ (fun _ _ => ?_) _ _)
    | split
    | simp

theorem latchRow_goes : ∀ (x0 : State) x1 x2, x0.key.Goes (x2.lateFlips ++ bf) bf (State.latchRow x0 x1 x2).key := by
  intro s row i
  unfold State.latchRow
  extract_lets s1 r
  have h1 : s1.key = s.key := by
    unfold s1
    split <;> simp
  have hr : s1.key.Goes (i.lateFlips ++ bf) (i.lateFlips ++ bf) r.1.key := rowReads_goes s1 row
  clear_value r s1
  rw [h1] at hr
  refine hr.trans (Key.Goes.trans ?_ (releaseRow_goes (bf := bf) _ row))
  split
  · have := Key.Goes.drop (bf := bf) (f := i.lateFlips) r.1.key
    simpa using this
  · exact rowDelivered_goes r.1 row i r.2

theorem ledSoftEnd_goes : ∀ (x0 : State) x1, x0.key.Goes bf bf (State.ledSoftEnd x0 x1).key := by
  intro s n
  unfold State.ledSoftEnd
  dsimp only
  split
  · split
    · refine Key.Goes.trans ?_ (meet_goes _ _ _ (fun t => ledOpenFired_goes t 0))
      refine Key.Goes.trans ?_ (meet_goes _ _ _ (fun t => ledShortFired_goes t 0))
      simp
    · simp
  · exact Key.Goes.refl _


theorem meetHeld_goes : ∀ (x0 : State), x0.key.Goes bf bf (State.meetHeld x0).key := by
  intros
  unfold State.meetHeld
  try dsimp only
  repeat' first
    | with_reducible exact Key.Goes.refl _
    | simp only [key_mk, key_eta]
    | with_reducible refine Key.Goes.trans ?_ (auxUvFired_goes ..)
    | with_reducible refine Key.Goes.trans ?_ (railUvFired_goes ..)
    | with_reducible refine Key.Goes.trans ?_ (railOvFired_goes ..)
    | split
    | simp

theorem planPg_goes : ∀ (x0 : State), x0.key.Goes bf bf (State.planPg x0).key := by
  intros
  unfold State.planPg
  try dsimp only
  repeat' first
    | with_reducible exact Key.Goes.refl _
    | simp only [key_mk, key_eta]
    | with_reducible refine Key.Goes.trans ?_ (auxArmed_goes ..)
    | with_reducible refine Key.Goes.trans ?_ (planNext_goes ..)
    | split
    | simp

theorem postedLand_goes : ∀ (x0 : State) x1, x0.key.Goes [] [] (State.postedLand x0 x1).key := by
  intros
  unfold State.postedLand
  try dsimp only
  repeat' first
    | with_reducible exact Key.Goes.refl _
    | simp only [key_mk, key_eta]
    | with_reducible refine Key.Goes.trans ?_ (pump_goes ..)
    | with_reducible refine Key.Goes.trans ?_ (land_goes ..)
    | split
    | simp

theorem railGood_goes : ∀ (x0 : State), x0.key.Goes bf bf (State.railGood x0).key := by
  intros
  unfold State.railGood
  try dsimp only
  repeat' first
    | with_reducible exact Key.Goes.refl _
    | simp only [key_mk, key_eta]
    | with_reducible refine Key.Goes.trans ?_ (loneEnd_goes ..)
    | split
    | simp

theorem powerGood_goes : ∀ (x0 : State), x0.key.Goes bf bf (State.powerGood x0).key := by
  intro s
  unfold State.powerGood
  split
  · extract_lets s1 s2
    have h2 : s1.key.Goes bf bf s2.key := by
      unfold s2
      split
      · refine Key.Goes.trans ?_ (meet_goes _ _ _ (fun t => railOcFired_goes t 0 true))
        refine Key.Goes.trans ?_ (meet_goes _ _ _ (fun t => railOvFired_goes t 0 true))
        exact meet_goes _ _ _ (fun t => railUvFired_goes t 0 true)
      · exact Key.Goes.refl _
    have h1 : s.key.Goes bf bf s1.key := railGood_goes s
    refine Key.Goes.trans ?_ (meet_goes _ _ _ (fun t => vcomFired_goes t 0))
    refine Key.Goes.trans ?_ (meet_goes _ _ _ (fun t => gateFired_goes t 0))
    exact h1.trans h2
  · exact Key.Goes.refl _


theorem railVote_goes : ∀ (x0 : State) x1, x0.key.Goes bf bf (State.railVote x0 x1).key := by
  intros
  unfold State.railVote
  try dsimp only
  repeat' first
    | with_reducible exact Key.Goes.refl _
    | simp only [key_mk, key_eta]
    | with_reducible refine Key.Goes.trans ?_ (takeover_goes ..)
    | with_reducible refine Key.Goes.trans ?_ (raise_goes ..)
    | with_reducible refine Key.Goes.trans ?_ (actOn_goes ..)
    | split
    | simp

theorem reactionDecision_goes : ∀ (x0 : State), x0.key.Goes bf bf (State.reactionDecision x0).key := by
  intros
  unfold State.reactionDecision
  try dsimp only
  repeat' first
    | with_reducible exact Key.Goes.refl _
    | simp only [key_mk, key_eta]
    | with_reducible refine Key.Goes.trans ?_ (atDecision_goes ..)
    | split
    | simp

theorem receiveLetter_goes : ∀ (x0 : State) x1, x0.key.Goes [] [] (State.receiveLetter x0 x1).key := by
  intros
  unfold State.receiveLetter
  try dsimp only
  repeat' first
    | with_reducible exact Key.Goes.refl _
    | simp only [key_mk, key_eta]
    | with_reducible refine Key.Goes.trans ?_ (examine_goes ..)
    | split
    | simp

theorem recheckPass_goes : ∀ (x0 : State) x1, x0.key.Goes bf bf (State.recheckPass x0 x1).key := by
  intros
  unfold State.recheckPass
  try dsimp only
  repeat' first
    | with_reducible exact Key.Goes.refl _
    | simp only [key_mk, key_eta]
    | with_reducible refine Key.Goes.trans ?_ (raiseAs_goes ..)
    | split
    | simp

theorem recoveryEnd_goes : ∀ (x0 : State), x0.key.Goes bf bf (State.recoveryEnd x0).key := by
  intros
  unfold State.recoveryEnd
  try dsimp only
  repeat' first
    | with_reducible exact Key.Goes.refl _
    | simp only [key_mk, key_eta]
    | with_reducible refine Key.Goes.trans ?_ (endRecovery_goes ..)
    | split
    | simp

theorem relockDone_goes : ∀ (x0 : State), x0.key.Goes [] [] (State.relockDone x0).key := by
  intros
  unfold State.relockDone
  try dsimp only
  repeat' first
    | with_reducible exact Key.Goes.refl _
    | simp only [key_mk, key_eta]
    | with_reducible refine Key.Goes.trans ?_ (pump_goes ..)
    | with_reducible refine Key.Goes.trans ?_ (otpNext_goes ..)
    | split
    | simp

theorem resetAssert_goes : ∀ (x0 : State), x0.key.Goes bf bf (State.resetAssert x0).key := by
  intro s
  unfold State.resetAssert
  split
  · exact Key.Goes.refl _
  · extract_lets _ s1 _ s2 _ _ s3
    have h1 : s1.key = s.key := rfl
    have h2 : s2.key = s.key := by simp [s2, s1]
    have h3 : s.key.Goes bf bf s3.key := by
      have := stopPulses_goes (bf := bf) { s1.addCause wakeResetBit with otp.supplyOk := false }
      simpa [s3, s1] using this
    have e1 : ∀ t : State, t.key = s.key → s.key.Goes bf bf (State.enterReset t).key := fun t h => by
      rw [← h]
      exact enterReset_goes t
    repeat' split
    · exact h1 ▸ Key.Goes.refl _
    · exact e1 _ (by simp [s1])
    · exact e1 _ (by simp [s1])
    · exact h1 ▸ Key.Goes.refl _
    · exact Key.Goes.refl _
    · exact e1 _ h2
    · exact h2 ▸ Key.Goes.refl _
    · exact h3.trans (beginResetOrder_goes s3)
    · exact h3.trans (enterReset_goes s3)

theorem resetRelease_goes : ∀ (x0 : State), x0.key.Goes bf bf (State.resetRelease x0).key := by
  intros
  unfold State.resetRelease
  try dsimp only
  repeat' first
    | with_reducible exact Key.Goes.refl _
    | simp only [key_mk, key_eta]
    | with_reducible refine Key.Goes.trans ?_ (enterStartup_goes ..)
    | split
    | simp

theorem returnUp_goes : ∀ (x0 : State), x0.key.Goes bf bf (State.returnUp x0).key := by
  intros
  unfold State.returnUp
  try dsimp only
  repeat' first
    | with_reducible exact Key.Goes.refl _
    | simp only [key_mk, key_eta]
    | with_reducible refine Key.Goes.trans ?_ (planHoldReturn_goes ..)
    | split
    | simp

theorem riseCheck_goes : ∀ (x0 : State), x0.key.Goes bf bf (State.riseCheck x0).key := by
  intros
  unfold State.riseCheck
  try dsimp only
  repeat' first
    | with_reducible exact Key.Goes.refl _
    | simp only [key_mk, key_eta]
    | with_reducible refine Key.Goes.trans ?_ (raise_goes ..)
    | split
    | simp

theorem voteStraps_goes : ∀ (x0 : State), x0.key.Goes bf bf (State.voteStraps x0).key := by
  intro s
  unfold State.voteStraps
  extract_lets n
  split
  · exact Key.Goes.refl _
  · refine Key.Goes.of ?_ (raise_goes _ _)
    rfl

theorem roundEnd_goes : ∀ (x0 : State), x0.key.Goes bf bf (State.roundEnd x0).key := by
  intro s
  unfold State.roundEnd
  extract_lets _ s1 _ s2
  have h1 : s.key.Goes bf bf s1.key := by
    have g := (voteStraps_goes (bf := bf) { s with therm.rounds := s.therm.rounds + 1 }).trans (readTrips_goes (bf := bf) _)
    have := g.trans (by simpa using riseCheck_goes (bf := bf) (State.refStep _))
    simpa [s1] using this
  have h2 : s2.key = s1.key := by simp [s2]
  clear_value s2 s1
  split
  · refine h1.trans ?_
    rw [← h2]
    simpa using checkConditions_goes (bf := bf) (s2.stepPlots 12877824 (fun _ => 0)) false
  · simpa [h2] using h1

theorem rowSlot_goes : ∀ (x0 : State) x1, x0.key.Goes (x1.flips ++ (x1.lateFlips ++ bf)) bf (State.rowSlot x0 x1).key := by
  intro s i
  unfold State.rowSlot
  extract_lets n s1 k _ s2 drops _ _ s3 s4
  have h1 : s.key.Goes (i.flips ++ (i.lateFlips ++ bf)) (i.lateFlips ++ bf) s1.key := by
    have := (flipBits_goes (bf := i.lateFlips ++ bf) (s.reach (s.slotTime n)) i.flips).trans (flipCells_goes _ i.ledgerFlips)
    simpa [s1] using this
  have hk : k.key = s1.key := by simp [k]
  have h2 : s1.key.Goes (i.lateFlips ++ bf) bf s2.key := by
    unfold s2
    split
    · have := Key.Goes.drop (bf := bf) (f := i.lateFlips) s1.key
      clear_value k
      rw [← hk] at this ⊢
      exact this
    · exact latchRow_goes s1 _ i
  have h3 : s3.key = s2.key := rfl
  have h4 : s3.key.Goes bf bf s4.key := checkHeartbeats_goes s3 _ _
  clear_value s4 s3 s2 s1
  refine ((h1.trans h2).trans ?_).trans (raiseAll_goes s4 _)
  rw [← h3]
  exact h4

theorem sealChange_goes : ∀ (x0 : State) x1, x0.key.Goes bf bf (State.sealChange x0 x1).key := by
  intros
  unfold State.sealChange
  try dsimp only
  repeat' first
    | with_reducible exact Key.Goes.refl _
    | simp only [key_mk, key_eta]
    | with_reducible refine Key.Goes.trans ?_ (stopPulses_goes ..)
    | with_reducible refine Key.Goes.trans ?_ (otpNext_goes ..)
    | split
    | simp

theorem takeReading_goes : ∀ (x0 : State) x1 x2, x0.key.Goes bf bf (State.takeReading x0 x1 x2).key := by
  intros
  unfold State.takeReading
  try dsimp only
  repeat' first
    | with_reducible exact Key.Goes.refl _
    | simp only [key_mk, key_eta]
    | with_reducible refine Key.Goes.trans ?_ (raise_goes ..)
    | with_reducible refine Key.Goes.trans ?_ (tryReactUp_goes ..)
    | split
    | simp

theorem slotEnd_goes : ∀ (x0 : State) x1, x0.key.Goes bf bf (State.slotEnd x0 x1).key := by
  intro s i
  unfold State.slotEnd
  split
  · extract_lets s1 s2 n s3 _ _ s4
    have h1 : s1.key = s.key := by simp [s1]
    have h2 : s1.key.Goes bf bf s2.key := goes_foldl _ (fun t u => by simpa using readTrips_goes (bf := bf) (t.upset u)) _ _
    have h3 : s2.key.Goes bf bf s3.key := takeReading_goes { s2 with free := s2.free + 1 } n _
    have h4 : s4.key = s3.key := by simp [s4]
    clear_value s4 s3 s2 s1
    rw [h1] at h2
    have g := h2.trans h3
    rw [← h4] at g
    split
    · have := roundEnd_goes (bf := bf) (s4.reach s4.therm.slotAt)
      exact g.trans (by simpa using this)
    · exact g
  · exact Key.Goes.refl _

theorem startAssign_goes : ∀ (x0 : State) x1, x0.key.Goes bf bf (State.startAssign x0 x1).key := by
  intros
  unfold State.startAssign
  try dsimp only
  repeat' first
    | with_reducible exact Key.Goes.refl _
    | simp only [key_mk, key_eta]
    | with_reducible refine Key.Goes.trans ?_ (raiseShortfall_goes ..)
    | with_reducible refine Key.Goes.trans ?_ (raise_goes ..)
    | split
    | simp

theorem sweepDrill_goes : ∀ (x0 : State) x1 x2, x0.key.Goes bf bf (State.sweepDrill x0 x1 x2).key := by
  intro s comp d
  unfold State.sweepDrill
  extract_lets e x beyond own stripe out cls list kept first newDefer spent cands peak counts s1 s2 full t _ _
  have h2 : s.key.Goes bf bf s2.key := by
    have := mend_goes (bf := bf) s1 (fun g => out.any (fun k => groupInCell k g))
    simpa [s2, s1] using this
  have ht : t.key = s2.key := by
    unfold t
    split <;> simp
  clear_value t s2 s1
  rw [← ht] at h2
  exact h2


theorem sweepAll_goes : ∀ (x0 : State), x0.key.Goes bf bf (State.sweepAll x0).key := by
  intro s
  unfold State.sweepAll
  split
  · exact Key.Goes.refl _
  · refine goes_foldl _ (fun t d => ?_) _ _
    split
    · exact Key.Goes.refl _
    · exact sweepDrill_goes _ _ _

theorem startSet_goes : ∀ (x0 : State) x1, x0.key.Goes (x1.flips ++ bf) bf (State.startSet x0 x1).key := by
  intro s i
  unfold State.startSet
  split
  · extract_lets s1
    have h1 : s.key.Goes (i.flips ++ bf) bf s1.key := by
      have := (flipBits_goes (bf := bf) (s.reach (s.scan.boundaryAt + 10240)) i.flips).trans (flipCells_goes _ i.ledgerFlips)
      simpa [s1] using this
    clear_value s1
    refine h1.trans ((fixStarts_goes s1).trans ?_)
    refine Key.Goes.trans ?_ (sweepAll_goes _)
    simp
  · exact Key.Goes.drop _

theorem strapsRead_goes : ∀ (x0 : State) x1, x0.key.Goes bf bf (State.strapsRead x0 x1).key := by
  intros
  unfold State.strapsRead
  try dsimp only
  repeat' first
    | with_reducible exact Key.Goes.refl _
    | simp only [key_mk, key_eta]
    | with_reducible refine Key.Goes.trans ?_ (raise_goes ..)
    | split
    | simp

theorem supplyChange_goes : ∀ (x0 : State) x1, x0.key.Goes bf bf (State.supplyChange x0 x1).key := by
  intros
  unfold State.supplyChange
  try dsimp only
  repeat' first
    | with_reducible exact Key.Goes.refl _
    | simp only [key_mk, key_eta]
    | with_reducible refine Key.Goes.trans ?_ (stopPulses_goes ..)
    | with_reducible refine Key.Goes.trans ?_ (otpNext_goes ..)
    | split
    | simp

theorem testsEnd_goes : ∀ (x0 : State) x1 x2, x0.key.Goes bf bf (State.testsEnd x0 x1 x2).key := by
  intros
  unfold State.testsEnd
  try dsimp only
  repeat' first
    | with_reducible exact Key.Goes.refl _
    | simp only [key_mk, key_eta]
    | with_reducible refine Key.Goes.trans ?_ (endTests_goes ..)
    | with_reducible refine Key.Goes.trans ?_ (startAssign_goes ..)
    | with_reducible refine Key.Goes.trans ?_ (goes_foldl _ (fun _ _ => ?_) _ _)
    | split
    | simp

theorem vbakCutoff_goes : ∀ (x0 : State), x0.key.Goes bf bf (State.vbakCutoff x0).key := by
  intros
  unfold State.vbakCutoff
  try dsimp only
  repeat' first
    | with_reducible exact Key.Goes.refl _
    | simp only [key_mk, key_eta]
    | with_reducible refine Key.Goes.trans ?_ (powerOff_goes ..)
    | split
    | simp

theorem vbakLow_goes : ∀ (x0 : State), x0.key.Goes bf bf (State.vbakLow x0).key := by
  intros
  unfold State.vbakLow
  try dsimp only
  repeat' first
    | with_reducible exact Key.Goes.refl _
    | simp only [key_mk, key_eta]
    | with_reducible refine Key.Goes.trans ?_ (deliveryDown_goes ..)
    | with_reducible refine Key.Goes.trans ?_ (enterUnwaited_goes ..)
    | with_reducible refine Key.Goes.trans ?_ (enterDormant_goes ..)
    | with_reducible refine Key.Goes.trans ?_ (abruptStop_goes ..)
    | split
    | simp

theorem vcomDownEnd_goes : ∀ (x0 : State), x0.key.Goes bf bf (State.vcomDownEnd x0).key := by
  intros
  unfold State.vcomDownEnd
  try dsimp only
  repeat' first
    | with_reducible exact Key.Goes.refl _
    | simp only [key_mk, key_eta]
    | with_reducible refine Key.Goes.trans ?_ (downFrom_goes ..)
    | with_reducible refine Key.Goes.trans ?_ (loneEnd_goes ..)
    | split
    | simp

theorem vcomEnd_goes : ∀ (x0 : State), x0.key.Goes bf bf (State.vcomEnd x0).key := by
  intros
  unfold State.vcomEnd
  try dsimp only
  repeat' first
    | with_reducible exact Key.Goes.refl _
    | simp only [key_mk, key_eta]
    | with_reducible refine Key.Goes.trans ?_ (vcomDownEnd_goes ..)
    | split
    | simp

theorem vglHoldOver_goes : ∀ (x0 : State), x0.key.Goes bf bf (State.vglHoldOver x0).key := by
  intros
  unfold State.vglHoldOver
  try dsimp only
  repeat' first
    | with_reducible exact Key.Goes.refl _
    | simp only [key_mk, key_eta]
    | with_reducible refine Key.Goes.trans ?_ (raise_goes ..)
    | split
    | simp

theorem viaWord_goes : ∀ (x0 : State) x1 x2 x3, x0.key.Goes [] [] (State.viaWord x0 x1 x2 x3).key := by
  intros
  unfold State.viaWord
  try dsimp only
  repeat' first
    | with_reducible exact Key.Goes.refl _
    | simp only [key_mk, key_eta]
    | with_reducible refine Key.Goes.trans ?_ (receiveLetter_goes ..)
    | split
    | simp

theorem viaAlias_goes : ∀ (x0 : State) x1 x2 x3 x4, x0.key.Goes [] [] (State.viaAlias x0 x1 x2 x3 x4).key := by
  intros
  unfold State.viaAlias
  try dsimp only
  repeat' first
    | with_reducible exact Key.Goes.refl _
    | simp only [key_mk, key_eta]
    | with_reducible refine Key.Goes.trans ?_ (viaWord_goes ..)
    | split
    | simp

theorem viaRequest_goes : ∀ (x0 : State) x1 x2 x3, x0.key.Goes [] [] (State.viaRequest x0 x1 x2 x3).key := by
  intros
  unfold State.viaRequest
  try dsimp only
  repeat' first
    | with_reducible exact Key.Goes.refl _
    | simp only [key_mk, key_eta]
    | with_reducible refine Key.Goes.trans ?_ (receiveLetter_goes ..)
    | with_reducible refine Key.Goes.trans ?_ (viaWord_goes ..)
    | split
    | simp

theorem vinLoss_goes : ∀ (x0 : State), x0.key.Goes bf bf (State.vinLoss x0).key := by
  intro s
  unfold State.vinLoss
  split
  · exact powerOff_goes { s with tree.vinValid := false }
  · split
    · extract_lets g _ _ _ _ _ _ s1
      have h1 : s.key.Goes bf bf s1.key := by
        simp only [s1]
        refine Key.Goes.trans ?_ (stopPulses_goes ..)
        exact Key.Goes.refl _
      clear_value s1
      refine h1.trans ?_
      repeat' first
        | with_reducible exact Key.Goes.refl _
        | with_reducible exact enterUnwaited_goes _
        | with_reducible exact enterDormant_goes _
        | split
        | simp
    · exact Key.Goes.refl _

theorem vinOver_goes : ∀ (x0 : State), x0.key.Goes bf bf (State.vinOver x0).key := by
  intros
  unfold State.vinOver
  try dsimp only
  repeat' first
    | with_reducible exact Key.Goes.refl _
    | simp only [key_mk, key_eta]
    | with_reducible refine Key.Goes.trans ?_ (raiseLevel_goes ..)
    | split
    | simp

theorem vinOverEnds_goes : ∀ (x0 : State), x0.key.Goes bf bf (State.vinOverEnds x0).key := by
  intros
  unfold State.vinOverEnds
  try dsimp only
  repeat' first
    | with_reducible exact Key.Goes.refl _
    | simp only [key_mk, key_eta]
    | with_reducible refine Key.Goes.trans ?_ (tryReactUp_goes ..)
    | split
    | simp

theorem vinReturn_goes : ∀ (x0 : State), x0.key.Goes bf bf (State.vinReturn x0).key := by
  intros
  unfold State.vinReturn
  try dsimp only
  repeat' first
    | with_reducible exact Key.Goes.refl _
    | simp only [key_mk, key_eta]
    | with_reducible refine Key.Goes.trans ?_ (endBackupRun_goes ..)
    | with_reducible refine Key.Goes.trans ?_ (enterStartup_goes ..)
    | split
    | simp

theorem wakeDone_goes : ∀ (x0 : State), x0.key.Goes [] [] (State.wakeDone x0).key := by
  intros
  unfold State.wakeDone
  try dsimp only
  repeat' first
    | with_reducible exact Key.Goes.refl _
    | simp only [key_mk, key_eta]
    | with_reducible refine Key.Goes.trans ?_ (pump_goes ..)
    | split
    | simp

theorem wakeFrame_goes : ∀ (x0 : State) x1 x2, x0.key.Goes bf bf (State.wakeFrame x0 x1 x2).key := by
  intros
  unfold State.wakeFrame
  try dsimp only
  repeat' first
    | with_reducible exact Key.Goes.refl _
    | simp only [key_mk, key_eta]
    | with_reducible refine Key.Goes.trans ?_ (enterStartup_goes ..)
    | split
    | simp

theorem watchdog_goes : ∀ (x0 : State), x0.key.Goes bf bf (State.watchdog x0).key := by
  intros
  unfold State.watchdog
  try dsimp only
  repeat' first
    | with_reducible exact Key.Goes.refl _
    | simp only [key_mk, key_eta]
    | with_reducible refine Key.Goes.trans ?_ (takeover_goes ..)
    | split
    | simp

end Sys2Proof.Machine
end

