-- ==== Sys2Proof/Laws/KeyExec.lean ====
section
/-! SUPPORT. Every command keeps the canonical form of the addressed memories, the agreement of idle pixels and the cells of
the one-time-programmable memory: one lemma for each meaning. -/

namespace Sys2Proof.Machine

theorem execHello_goes : ∀ x0 (x1 : State) t, execHello x0 x1 = .next t → x1.key.Goes [] [] t.key := by
  intro x0 x1 t h
  injection h with h
  subst h
  try simp only [attend_key, chargeFollow_key]
  apply receiveLetter_goes

theorem execRead_goes : ∀ x0 (x1 : State) t, execRead x0 x1 = .next t → x1.key.Goes [] [] t.key := by
  intro x0 x1 t h
  injection h with h
  subst h
  try simp only [attend_key, chargeFollow_key]
  apply receiveLetter_goes

theorem execWrite_goes : ∀ x0 (x1 : State) t, execWrite x0 x1 = .next t → x1.key.Goes [] [] t.key := by
  intro x0 x1 t h
  injection h with h
  subst h
  try simp only [attend_key, chargeFollow_key]
  apply receiveLetter_goes

theorem execCollect_goes : ∀ x0 (x1 : State) t, execCollect x0 x1 = .next t → x1.key.Goes [] [] t.key := by
  intro x0 x1 t h
  injection h with h
  subst h
  try simp only [attend_key, chargeFollow_key]
  apply receiveLetter_goes

theorem execCollectArbitration_goes : ∀ x0 (x1 : State) t, execCollectArbitration x0 x1 = .next t → x1.key.Goes [] [] t.key := by
  intro x0 x1 t h
  injection h with h
  subst h
  simp

theorem execWhy_goes : ∀ x0 (x1 : State) t, execWhy x0 x1 = .next t → x1.key.Goes [] [] t.key := by
  intro x0 x1 t h
  injection h with h
  subst h
  try simp only [attend_key, chargeFollow_key]
  apply receiveLetter_goes

theorem execUpdate_goes : ∀ x0 (x1 : State) t, execUpdate x0 x1 = .next t → x1.key.Goes [] [] t.key := by
  intro x0 x1 t h
  injection h with h
  subst h
  try simp only [attend_key, chargeFollow_key]
  apply receiveLetter_goes

theorem execRestate_goes : ∀ x0 (x1 : State) t, execRestate x0 x1 = .next t → x1.key.Goes [] [] t.key := by
  intro x0 x1 t h
  injection h with h
  subst h
  try simp only [attend_key, chargeFollow_key]
  apply receiveLetter_goes

theorem execStage_goes : ∀ x0 (x1 : State) t, execStage x0 x1 = .next t → x1.key.Goes [] [] t.key := by
  intro x0 x1 t h
  injection h with h
  subst h
  try simp only [attend_key, chargeFollow_key]
  apply receiveLetter_goes

theorem execReqRun_goes : ∀ x0 x1 (x2 : State) t, execReqRun x0 x1 x2 = .next t → x2.key.Goes [] [] t.key := by
  intro x0 x1 x2 t h
  injection h with h
  subst h
  try simp only [attend_key, chargeFollow_key]
  apply viaRequest_goes

theorem execReqSlow_goes : ∀ x0 x1 (x2 : State) t, execReqSlow x0 x1 x2 = .next t → x2.key.Goes [] [] t.key := by
  intro x0 x1 x2 t h
  injection h with h
  subst h
  try simp only [attend_key, chargeFollow_key]
  apply viaRequest_goes

theorem execReqHold_goes : ∀ x0 x1 (x2 : State) t, execReqHold x0 x1 x2 = .next t → x2.key.Goes [] [] t.key := by
  intro x0 x1 x2 t h
  injection h with h
  subst h
  try simp only [attend_key, chargeFollow_key]
  apply viaRequest_goes

theorem execReqDormant_goes : ∀ x0 x1 (x2 : State) t, execReqDormant x0 x1 x2 = .next t → x2.key.Goes [] [] t.key := by
  intro x0 x1 x2 t h
  injection h with h
  subst h
  try simp only [attend_key, chargeFollow_key]
  apply viaRequest_goes

theorem execWakeFrame_goes : ∀ x0 x1 (x2 : State) t, execWakeFrame x0 x1 x2 = .next t → x2.key.Goes [] [] t.key := by
  intro x0 x1 x2 t h
  injection h with h
  subst h
  try simp only [attend_key, chargeFollow_key]
  apply wakeFrame_goes

theorem execLetterGap_goes : ∀ (x0 : State) t, execLetterGap x0 = .next t → x0.key.Goes [] [] t.key := by
  intro x0 t h
  injection h with h
  subst h
  simp

theorem execReplyCutShort_goes : ∀ x0 (x1 : State) t, execReplyCutShort x0 x1 = .next t → x1.key.Goes [] [] t.key := by
  intro x0 x1 t h
  injection h with h
  subst h
  simp

theorem execReplyDropped_goes : ∀ (x0 : State) t, execReplyDropped x0 = .next t → x0.key.Goes [] [] t.key := by
  intro x0 t h
  injection h with h
  subst h
  simp

theorem execSecKey_goes : ∀ x0 x1 (x2 : State) t, execSecKey x0 x1 x2 = .next t → x2.key.Goes [] [] t.key := by
  intro x0 x1 x2 t h
  injection h with h
  subst h
  try simp only [attend_key, chargeFollow_key]
  apply viaWord_goes

theorem execAlmOpen_goes : ∀ x0 (x1 : State) t, execAlmOpen x0 x1 = .next t → x1.key.Goes [] [] t.key := by
  intro x0 x1 t h
  injection h with h
  subst h
  try simp only [attend_key, chargeFollow_key]
  apply viaWord_goes

theorem execAlmClose_goes : ∀ x0 (x1 : State) t, execAlmClose x0 x1 = .next t → x1.key.Goes [] [] t.key := by
  intro x0 x1 t h
  injection h with h
  subst h
  try simp only [attend_key, chargeFollow_key]
  apply viaWord_goes

theorem execAlmCommit_goes : ∀ x0 (x1 : State) t, execAlmCommit x0 x1 = .next t → x1.key.Goes [] [] t.key := by
  intro x0 x1 t h
  injection h with h
  subst h
  try simp only [attend_key, chargeFollow_key]
  apply viaWord_goes

theorem execAlmAbort_goes : ∀ x0 (x1 : State) t, execAlmAbort x0 x1 = .next t → x1.key.Goes [] [] t.key := by
  intro x0 x1 t h
  injection h with h
  subst h
  try simp only [attend_key, chargeFollow_key]
  apply viaWord_goes

theorem execAlmValidationDone_goes : ∀ (x0 : State) t, execAlmValidationDone x0 = .next t → x0.key.Goes [] [] t.key := by
  intro x0 t h
  injection h with h
  subst h
  simp

theorem execAlmDrainEnd_goes : ∀ (x0 : State) t, execAlmDrainEnd x0 = .next t → x0.key.Goes [] [] t.key := by
  intro x0 t h
  injection h with h
  subst h
  try simp only [attend_key, chargeFollow_key]
  apply drainEnd_goes

theorem execAlmCopyDone_goes : ∀ x0 (x1 : State) t, execAlmCopyDone x0 x1 = .next t → x1.key.Goes [] [] t.key := by
  intro x0 x1 t h
  injection h with h
  subst h
  try simp only [attend_key, chargeFollow_key]
  apply copyDone_goes

theorem execAlmRecheckPass_goes : ∀ x0 (x1 : State) t, execAlmRecheckPass x0 x1 = .next t → x1.key.Goes [] [] t.key := by
  intro x0 x1 t h
  injection h with h
  subst h
  try simp only [attend_key, chargeFollow_key]
  apply recheckPass_goes

theorem execPghCancel_goes : ∀ x0 x1 (x2 : State) t, execPghCancel x0 x1 x2 = .next t → x2.key.Goes [] [] t.key := by
  intro x0 x1 x2 t h
  injection h with h
  subst h
  try simp only [attend_key, chargeFollow_key]
  apply viaWord_goes

theorem execPghRelease_goes : ∀ x0 x1 (x2 : State) t, execPghRelease x0 x1 x2 = .next t → x2.key.Goes [] [] t.key := by
  intro x0 x1 x2 t h
  injection h with h
  subst h
  try simp only [attend_key, chargeFollow_key]
  apply viaWord_goes

theorem execHistClr_goes : ∀ x0 x1 (x2 : State) t, execHistClr x0 x1 x2 = .next t → x2.key.Goes [] [] t.key := by
  intro x0 x1 x2 t h
  injection h with h
  subst h
  try simp only [attend_key, chargeFollow_key]
  apply viaWord_goes

theorem execDrlTest_goes : ∀ x0 x1 x2 (x3 : State) t, execDrlTest x0 x1 x2 x3 = .next t → x3.key.Goes [] [] t.key := by
  intro x0 x1 x2 x3 t h
  injection h with h
  subst h
  try simp only [attend_key, chargeFollow_key]
  apply viaAlias_goes

theorem execDrillRotate_goes : ∀ (x0 : State) t, execDrillRotate x0 = .next t → x0.key.Goes [] [] t.key := by
  intro x0 t h
  injection h with h
  subst h
  simp

theorem execDrillSelfTestDone_goes : ∀ x0 x1 (x2 : State) t, execDrillSelfTestDone x0 x1 x2 = .next t → x2.key.Goes [] [] t.key := by
  intro x0 x1 x2 t h
  injection h with h
  subst h
  try simp only [attend_key, chargeFollow_key]
  apply testsEnd_goes

theorem execRailTrim_goes : ∀ x0 x1 x2 x3 (x4 : State) t, execRailTrim x0 x1 x2 x3 x4 = .next t → x4.key.Goes [] [] t.key := by
  intro x0 x1 x2 x3 x4 t h
  injection h with h
  subst h
  try simp only [attend_key, chargeFollow_key]
  apply viaAlias_goes

theorem execVcomTrim_goes : ∀ x0 x1 x2 x3 (x4 : State) t, execVcomTrim x0 x1 x2 x3 x4 = .next t → x4.key.Goes [] [] t.key := by
  intro x0 x1 x2 x3 x4 t h
  injection h with h
  subst h
  try simp only [attend_key, chargeFollow_key]
  apply viaAlias_goes

theorem execVcomEn_goes : ∀ x0 x1 x2 (x3 : State) t, execVcomEn x0 x1 x2 x3 = .next t → x3.key.Goes [] [] t.key := by
  intro x0 x1 x2 x3 t h
  injection h with h
  subst h
  try simp only [attend_key, chargeFollow_key]
  apply viaAlias_goes

theorem execAuxEn_goes : ∀ x0 x1 x2 x3 (x4 : State) t, execAuxEn x0 x1 x2 x3 x4 = .next t → x4.key.Goes [] [] t.key := by
  intro x0 x1 x2 x3 x4 t h
  injection h with h
  subst h
  try simp only [attend_key, chargeFollow_key]
  apply viaAlias_goes

theorem execLswEn_goes : ∀ x0 x1 x2 x3 (x4 : State) t, execLswEn x0 x1 x2 x3 x4 = .next t → x4.key.Goes [] [] t.key := by
  intro x0 x1 x2 x3 x4 t h
  injection h with h
  subst h
  try simp only [attend_key, chargeFollow_key]
  apply viaAlias_goes

theorem execLedDim_goes : ∀ x0 x1 x2 x3 (x4 : State) t, execLedDim x0 x1 x2 x3 x4 = .next t → x4.key.Goes [] [] t.key := by
  intro x0 x1 x2 x3 x4 t h
  injection h with h
  subst h
  try simp only [attend_key, chargeFollow_key]
  apply viaAlias_goes

theorem execLedLatchClear_goes : ∀ x0 x1 (x2 : State) t, execLedLatchClear x0 x1 x2 = .next t → x2.key.Goes [] [] t.key := by
  intro x0 x1 x2 t h
  injection h with h
  subst h
  try simp only [attend_key, chargeFollow_key]
  apply viaWord_goes

theorem execWbud_goes : ∀ x0 x1 x2 (x3 : State) t, execWbud x0 x1 x2 x3 = .next t → x3.key.Goes [] [] t.key := by
  intro x0 x1 x2 x3 t h
  injection h with h
  subst h
  try simp only [attend_key, chargeFollow_key]
  apply viaAlias_goes

theorem execForceHot_goes : ∀ x0 x1 x2 x3 (x4 : State) t, execForceHot x0 x1 x2 x3 x4 = .next t → x4.key.Goes [] [] t.key := by
  intro x0 x1 x2 x3 x4 t h
  injection h with h
  subst h
  try simp only [attend_key, chargeFollow_key]
  apply viaAlias_goes

theorem execRtcLoad_goes : ∀ x0 (x1 : State) t, execRtcLoad x0 x1 = .next t → x1.key.Goes [] [] t.key := by
  intro x0 x1 t h
  injection h with h
  subst h
  try simp only [attend_key, chargeFollow_key]
  apply viaWord_goes

theorem execDstForward_goes : ∀ x0 (x1 : State) t, execDstForward x0 x1 = .next t → x1.key.Goes [] [] t.key := by
  intro x0 x1 t h
  injection h with h
  subst h
  try simp only [attend_key, chargeFollow_key]
  apply viaWord_goes

theorem execDstBack_goes : ∀ x0 (x1 : State) t, execDstBack x0 x1 = .next t → x1.key.Goes [] [] t.key := by
  intro x0 x1 t h
  injection h with h
  subst h
  try simp only [attend_key, chargeFollow_key]
  apply viaWord_goes

theorem execOtpProgram_goes : ∀ x0 (x1 : State) t, execOtpProgram x0 x1 = .next t → x1.key.Goes [] [] t.key := by
  intro x0 x1 t h
  injection h with h
  subst h
  try simp only [attend_key, chargeFollow_key]
  apply viaWord_goes

theorem execOtpStep_goes : ∀ x0 (x1 : State) t, execOtpStep x0 x1 = .next t → x1.key.Goes [] [] t.key := by
  intro x0 x1 t h
  injection h with h
  subst h
  try simp only [attend_key, chargeFollow_key]
  apply viaWord_goes

theorem execOtpMargin_goes : ∀ x0 (x1 : State) t, execOtpMargin x0 x1 = .next t → x1.key.Goes [] [] t.key := by
  intro x0 x1 t h
  injection h with h
  subst h
  try simp only [attend_key, chargeFollow_key]
  apply viaWord_goes

theorem execLcStep_goes : ∀ x0 x1 x2 (x3 : State) t, execLcStep x0 x1 x2 x3 = .next t → x3.key.Goes [] [] t.key := by
  intro x0 x1 x2 x3 t h
  injection h with h
  subst h
  try simp only [attend_key, chargeFollow_key]
  apply viaAlias_goes

theorem execOtpOpDone_goes : ∀ x0 (x1 : State) t, execOtpOpDone x0 x1 = .next t → x1.key.Goes [] [] t.key := by
  intro x0 x1 t h
  injection h with h
  subst h
  try simp only [attend_key, chargeFollow_key]
  apply otpDone_goes

theorem execFltInj_goes : ∀ x0 x1 x2 (x3 : State) t, execFltInj x0 x1 x2 x3 = .next t → x3.key.Goes [] [] t.key := by
  intro x0 x1 x2 x3 t h
  injection h with h
  subst h
  try simp only [attend_key, chargeFollow_key]
  apply viaAlias_goes

theorem execInjectEnd_goes : ∀ (x0 : State) t, execInjectEnd x0 = .next t → x0.key.Goes [] [] t.key := by
  intro x0 t h
  injection h with h
  subst h
  try simp only [attend_key, chargeFollow_key]
  apply injectEnd_goes

theorem execFaultClear_goes : ∀ x0 x1 x2 (x3 : State) t, execFaultClear x0 x1 x2 x3 = .next t → x3.key.Goes [] [] t.key := by
  intro x0 x1 x2 x3 t h
  injection h with h
  subst h
  try simp only [attend_key, chargeFollow_key]
  apply viaWord_goes

theorem execPostedWriteLand_goes : ∀ x0 (x1 : State) t, execPostedWriteLand x0 x1 = .next t → x1.key.Goes [] [] t.key := by
  intro x0 x1 t h
  injection h with h
  subst h
  try simp only [attend_key, chargeFollow_key]
  apply postedLand_goes

theorem execGuardedWriteReply_goes : ∀ (x0 : State) t, execGuardedWriteReply x0 = .next t → x0.key.Goes [] [] t.key := by
  intro x0 t h
  injection h with h
  subst h
  try simp only [attend_key, chargeFollow_key]
  apply guardedReply_goes

theorem execOnDemandWakeDone_goes : ∀ (x0 : State) t, execOnDemandWakeDone x0 = .next t → x0.key.Goes [] [] t.key := by
  intro x0 t h
  injection h with h
  subst h
  try simp only [attend_key, chargeFollow_key]
  apply wakeDone_goes

theorem execDomainRehold_goes : ∀ x0 (x1 : State) t, execDomainRehold x0 x1 = .next t → x1.key.Goes [] [] t.key := by
  intro x0 x1 t h
  injection h with h
  subst h
  simp

theorem execFrameBoundary_goes : ∀ (x0 : State) t, execFrameBoundary x0 = .next t → x0.key.Goes [] [] t.key := by
  intro x0 t h
  injection h with h
  subst h
  try simp only [attend_key, chargeFollow_key]
  apply boundary_goes

theorem execStartSet_goes : ∀ x0 (x1 : State) t, execStartSet x0 x1 = .next t → x1.key.Goes x0.flips [] t.key := by
  intro x0 x1 t h
  injection h with h
  subst h
  have := startSet_goes (bf := []) x1 x0
  simpa using this

theorem execRowLatch_goes : ∀ x0 (x1 : State) t, execRowLatch x0 x1 = .next t → x1.key.Goes (x0.flips ++ x0.lateFlips) [] t.key := by
  intro x0 x1 t h
  injection h with h
  subst h
  split
  · have := (rowSlot_goes (bf := []) x1 x0).trans (meetHeld_goes _)
    simpa using this
  · have := Key.Goes.drop (bf := []) (f := x0.flips ++ x0.lateFlips) x1.key
    simpa using this

theorem execAgingTick_goes : ∀ x0 (x1 : State) t, execAgingTick x0 x1 = .next t → x1.key.Goes x0 [] t.key := by
  intro x0 x1 t h
  injection h with h
  subst h
  have := agingTick_goes (bf := []) x1 x0
  simpa using this

theorem execHeadlandDone_goes : ∀ x0 x1 (x2 : State) t, execHeadlandDone x0 x1 x2 = .next t → x2.key.Goes [] [] t.key := by
  intro x0 x1 x2 t h
  injection h with h
  subst h
  try simp only [attend_key, chargeFollow_key]
  apply headlandEnd_goes

theorem execSlowRoundSlot_goes : ∀ x0 (x1 : State) t, execSlowRoundSlot x0 x1 = .next t → x1.key.Goes [] [] t.key := by
  intro x0 x1 t h
  injection h with h
  subst h
  try simp only [attend_key, chargeFollow_key]
  apply slotEnd_goes

theorem execGraceEnd_goes : ∀ x0 (x1 : State) t, execGraceEnd x0 x1 = .next t → x1.key.Goes [] [] t.key := by
  intro x0 x1 t h
  injection h with h
  subst h
  simp

theorem execVinReturn_goes : ∀ (x0 : State) t, execVinReturn x0 = .next t → x0.key.Goes [] [] t.key := by
  intro x0 t h
  injection h with h
  subst h
  try simp only [attend_key, chargeFollow_key]
  apply vinReturn_goes

theorem execBackupAlive_goes : ∀ x0 (x1 : State) t, execBackupAlive x0 x1 = .next t → x1.key.Goes [] [] t.key := by
  intro x0 x1 t h
  injection h with h
  subst h
  simp

theorem execVinLoss_goes : ∀ (x0 : State) t, execVinLoss x0 = .next t → x0.key.Goes [] [] t.key := by
  intro x0 t h
  injection h with h
  subst h
  exact (vinLoss_goes x0).trans (pump_goes _)

theorem execVinOv_goes : ∀ (x0 : State) t, execVinOv x0 = .next t → x0.key.Goes [] [] t.key := by
  intro x0 t h
  injection h with h
  subst h
  try simp only [attend_key, chargeFollow_key]
  apply vinOver_goes

theorem execResetNAssert_goes : ∀ (x0 : State) t, execResetNAssert x0 = .next t → x0.key.Goes [] [] t.key := by
  intro x0 t h
  injection h with h
  subst h
  try simp only [attend_key, chargeFollow_key]
  apply resetAssert_goes

theorem execResetNRelease_goes : ∀ (x0 : State) t, execResetNRelease x0 = .next t → x0.key.Goes [] [] t.key := by
  intro x0 t h
  injection h with h
  subst h
  try simp only [attend_key, chargeFollow_key]
  apply resetRelease_goes

theorem execSealNChange_goes : ∀ x0 (x1 : State) t, execSealNChange x0 x1 = .next t → x1.key.Goes [] [] t.key := by
  intro x0 x1 t h
  injection h with h
  subst h
  try simp only [attend_key, chargeFollow_key]
  apply sealChange_goes

theorem execRailPowerGood_goes : ∀ (x0 : State) t, execRailPowerGood x0 = .next t → x0.key.Goes [] [] t.key := by
  intro x0 t h
  injection h with h
  subst h
  try simp only [attend_key, chargeFollow_key]
  apply powerGood_goes

theorem execRailPgTimeout_goes : ∀ (x0 : State) t, execRailPgTimeout x0 = .next t → x0.key.Goes [] [] t.key := by
  intro x0 t h
  injection h with h
  subst h
  try simp only [attend_key, chargeFollow_key]
  apply pgTimeout_goes

theorem execRailDischarged_goes : ∀ (x0 : State) t, execRailDischarged x0 = .next t → x0.key.Goes [] [] t.key := by
  intro x0 t h
  injection h with h
  subst h
  try simp only [attend_key, chargeFollow_key]
  apply discharged_goes

theorem execDischTimeout_goes : ∀ (x0 : State) t, execDischTimeout x0 = .next t → x0.key.Goes [] [] t.key := by
  intro x0 t h
  injection h with h
  subst h
  try simp only [attend_key, chargeFollow_key]
  apply dischOver_goes

theorem execVglHoldExpiry_goes : ∀ (x0 : State) t, execVglHoldExpiry x0 = .next t → x0.key.Goes [] [] t.key := by
  intro x0 t h
  injection h with h
  subst h
  try simp only [attend_key, chargeFollow_key]
  apply vglHoldOver_goes

theorem execVcomRampEnd_goes : ∀ (x0 : State) t, execVcomRampEnd x0 = .next t → x0.key.Goes [] [] t.key := by
  intro x0 t h
  injection h with h
  subst h
  try simp only [attend_key, chargeFollow_key]
  apply vcomEnd_goes

theorem execPlanAuxPg_goes : ∀ (x0 : State) t, execPlanAuxPg x0 = .next t → x0.key.Goes [] [] t.key := by
  intro x0 t h
  injection h with h
  subst h
  try simp only [attend_key, chargeFollow_key]
  apply planPg_goes

theorem execAuxPgTimeout_goes : ∀ (x0 : State) t, execAuxPgTimeout x0 = .next t → x0.key.Goes [] [] t.key := by
  intro x0 t h
  injection h with h
  subst h
  try simp only [attend_key, chargeFollow_key]
  apply auxPgTimeout_goes

theorem execPlanDelayEnd_goes : ∀ (x0 : State) t, execPlanDelayEnd x0 = .next t → x0.key.Goes [] [] t.key := by
  intro x0 t h
  injection h with h
  subst h
  try simp only [attend_key, chargeFollow_key]
  apply delayEnd_goes

theorem execAuxRampEnd_goes : ∀ x0 (x1 : State) t, execAuxRampEnd x0 x1 = .next t → x1.key.Goes [] [] t.key := by
  intro x0 x1 t h
  injection h with h
  subst h
  try simp only [attend_key, chargeFollow_key]
  apply auxRampEnd_goes

theorem execHoldCommit_goes : ∀ x0 x1 (x2 : State) t, execHoldCommit x0 x1 x2 = .next t → x2.key.Goes [] [] t.key := by
  intro x0 x1 x2 t h
  injection h with h
  subst h
  try simp only [attend_key, chargeFollow_key]
  apply holdCommit_goes

theorem execHoldReturnRailup_goes : ∀ (x0 : State) t, execHoldReturnRailup x0 = .next t → x0.key.Goes [] [] t.key := by
  intro x0 t h
  injection h with h
  subst h
  try simp only [attend_key, chargeFollow_key]
  apply returnUp_goes

theorem execDormantCommit_goes : ∀ x0 x1 (x2 : State) t, execDormantCommit x0 x1 x2 = .next t → x2.key.Goes [] [] t.key := by
  intro x0 x1 x2 t h
  injection h with h
  subst h
  try simp only [attend_key, chargeFollow_key]
  apply dormantCommit_goes

theorem execRailUv_goes : ∀ x0 (x1 : State) t, execRailUv x0 x1 = .next t → x1.key.Goes [] [] t.key := by
  intro x0 x1 t h
  injection h with h
  subst h
  try simp only [attend_key, chargeFollow_key]
  apply railUvFired_goes

theorem execRailOv_goes : ∀ x0 (x1 : State) t, execRailOv x0 x1 = .next t → x1.key.Goes [] [] t.key := by
  intro x0 x1 t h
  injection h with h
  subst h
  try simp only [attend_key, chargeFollow_key]
  apply railOvFired_goes

theorem execRailOc_goes : ∀ x0 (x1 : State) t, execRailOc x0 x1 = .next t → x1.key.Goes [] [] t.key := by
  intro x0 x1 t h
  injection h with h
  subst h
  try simp only [attend_key, chargeFollow_key]
  apply railOcFired_goes

theorem execIntUv_goes : ∀ x0 (x1 : State) t, execIntUv x0 x1 = .next t → x1.key.Goes [] [] t.key := by
  intro x0 x1 t h
  injection h with h
  subst h
  try simp only [attend_key, chargeFollow_key]
  apply intUvFired_goes

theorem execGateOverload_goes : ∀ x0 (x1 : State) t, execGateOverload x0 x1 = .next t → x1.key.Goes [] [] t.key := by
  intro x0 x1 t h
  injection h with h
  subst h
  try simp only [attend_key, chargeFollow_key]
  apply gateFired_goes

theorem execVcomOverload_goes : ∀ x0 (x1 : State) t, execVcomOverload x0 x1 = .next t → x1.key.Goes [] [] t.key := by
  intro x0 x1 t h
  injection h with h
  subst h
  try simp only [attend_key, chargeFollow_key]
  apply vcomFired_goes

theorem execAuxOc_goes : ∀ x0 (x1 : State) t, execAuxOc x0 x1 = .next t → x1.key.Goes [] [] t.key := by
  intro x0 x1 t h
  injection h with h
  subst h
  try simp only [attend_key, chargeFollow_key]
  apply auxOcFired_goes

theorem execAuxOv_goes : ∀ x0 (x1 : State) t, execAuxOv x0 x1 = .next t → x1.key.Goes [] [] t.key := by
  intro x0 x1 t h
  injection h with h
  subst h
  try simp only [attend_key, chargeFollow_key]
  apply auxOvFired_goes

theorem execAuxUv_goes : ∀ x0 (x1 : State) t, execAuxUv x0 x1 = .next t → x1.key.Goes [] [] t.key := by
  intro x0 x1 t h
  injection h with h
  subst h
  try simp only [attend_key, chargeFollow_key]
  apply auxUvFired_goes

theorem execLedShort_goes : ∀ x0 (x1 : State) t, execLedShort x0 x1 = .next t → x1.key.Goes [] [] t.key := by
  intro x0 x1 t h
  injection h with h
  subst h
  try simp only [attend_key, chargeFollow_key]
  apply ledShortFired_goes

theorem execLedOpen_goes : ∀ x0 (x1 : State) t, execLedOpen x0 x1 = .next t → x1.key.Goes [] [] t.key := by
  intro x0 x1 t h
  injection h with h
  subst h
  try simp only [attend_key, chargeFollow_key]
  apply ledOpenFired_goes

theorem execLedSoftstartEnd_goes : ∀ x0 (x1 : State) t, execLedSoftstartEnd x0 x1 = .next t → x1.key.Goes [] [] t.key := by
  intro x0 x1 t h
  injection h with h
  subst h
  try simp only [attend_key, chargeFollow_key]
  apply ledSoftEnd_goes

theorem execWatchdogExpiry_goes : ∀ (x0 : State) t, execWatchdogExpiry x0 = .next t → x0.key.Goes [] [] t.key := by
  intro x0 t h
  injection h with h
  subst h
  try simp only [attend_key, chargeFollow_key]
  apply watchdog_goes

theorem execXtalLoss_goes : ∀ (x0 : State) t, execXtalLoss x0 = .next t → x0.key.Goes [] [] t.key := by
  intro x0 t h
  injection h with h
  subst h
  try simp only [attend_key, chargeFollow_key]
  apply xtalLost_goes

theorem execPllUnlock_goes : ∀ (x0 : State) t, execPllUnlock x0 = .next t → x0.key.Goes [] [] t.key := by
  intro x0 t h
  injection h with h
  subst h
  try simp only [attend_key, chargeFollow_key]
  apply lockLost_goes

theorem execRailVote_goes : ∀ x0 (x1 : State) t, execRailVote x0 x1 = .next t → x1.key.Goes [] [] t.key := by
  intro x0 x1 t h
  injection h with h
  subst h
  try simp only [attend_key, chargeFollow_key]
  apply railVote_goes

theorem execPllRelock_goes : ∀ (x0 : State) t, execPllRelock x0 = .next t → x0.key.Goes [] [] t.key := by
  intro x0 t h
  injection h with h
  subst h
  try simp only [attend_key, chargeFollow_key]
  apply relockDone_goes

theorem execReactionDecision_goes : ∀ (x0 : State) t, execReactionDecision x0 = .next t → x0.key.Goes [] [] t.key := by
  intro x0 t h
  injection h with h
  subst h
  try simp only [attend_key, chargeFollow_key]
  apply reactionDecision_goes

theorem execRecoveryEnd_goes : ∀ (x0 : State) t, execRecoveryEnd x0 = .next t → x0.key.Goes [] [] t.key := by
  intro x0 t h
  injection h with h
  subst h
  try simp only [attend_key, chargeFollow_key]
  apply recoveryEnd_goes

theorem execMeterRecord_goes : ∀ x0 (x1 : State) t, execMeterRecord x0 x1 = .next t → x1.key.Goes [] [] t.key := by
  intro x0 x1 t h
  injection h with h
  subst h
  simp

theorem execSignatureCheckDone_goes : ∀ (x0 : State) t, execSignatureCheckDone x0 = .next t → x0.key.Goes [] [] t.key := by
  intro x0 t h
  injection h with h
  subst h
  simp

theorem execKeptRecordWritten_goes : ∀ (x0 : State) t, execKeptRecordWritten x0 = .next t → x0.key.Goes [] [] t.key := by
  intro x0 t h
  injection h with h
  subst h
  simp

theorem execRecordRequest_goes : ∀ (x0 : State) t, execRecordRequest x0 = .next t → x0.key.Goes [] [] t.key := by
  intro x0 t h
  injection h with h
  subst h
  simp

theorem execRenderDone_goes : ∀ (x0 : State) t, execRenderDone x0 = .next t → x0.key.Goes [] [] t.key := by
  intro x0 t h
  injection h with h
  subst h
  simp

theorem execStaleExpiry_goes : ∀ (x0 : State) t, execStaleExpiry x0 = .next t → x0.key.Goes [] [] t.key := by
  intro x0 t h
  injection h with h
  subst h
  simp

theorem execRecheckDone_goes : ∀ (x0 : State) t, execRecheckDone x0 = .next t → x0.key.Goes [] [] t.key := by
  intro x0 t h
  injection h with h
  subst h
  simp

theorem execRtcTick_goes : ∀ (x0 : State) t, execRtcTick x0 = .next t → x0.key.Goes [] [] t.key := by
  intro x0 t h
  injection h with h
  subst h
  try simp only [attend_key, chargeFollow_key]
  apply rtcTick_goes

theorem execGaugeTestStart_goes : ∀ (x0 : State) t, execGaugeTestStart x0 = .next t → x0.key.Goes [] [] t.key := by
  intro x0 t h
  injection h with h
  subst h
  simp

theorem execGaugeTestDone_goes : ∀ x0 x1 x2 (x3 : State) t, execGaugeTestDone x0 x1 x2 x3 = .next t → x3.key.Goes [] [] t.key := by
  intro x0 x1 x2 x3 t h
  injection h with h
  subst h
  simp

theorem execVbakCutoff_goes : ∀ (x0 : State) t, execVbakCutoff x0 = .next t → x0.key.Goes [] [] t.key := by
  intro x0 t h
  injection h with h
  subst h
  try simp only [attend_key, chargeFollow_key]
  apply vbakCutoff_goes

theorem execVbakRestore_goes : ∀ (x0 : State) t, execVbakRestore x0 = .next t → x0.key.Goes [] [] t.key := by
  intro x0 t h
  injection h with h
  subst h
  simp

theorem execXtalRunning_goes : ∀ (x0 : State) t, execXtalRunning x0 = .next t → x0.key.Goes [] [] t.key := by
  intro x0 t h
  injection h with h
  subst h
  simp

theorem execOtpDeliveryDone_goes : ∀ x0 (x1 : State) t, execOtpDeliveryDone x0 x1 = .next t → x1.key.Goes [] [] t.key := by
  intro x0 x1 t h
  injection h with h
  subst h
  try simp only [attend_key, chargeFollow_key]
  apply delivered_goes

theorem execStrapReadDone_goes : ∀ x0 (x1 : State) t, execStrapReadDone x0 x1 = .next t → x1.key.Goes [] [] t.key := by
  intro x0 x1 t h
  injection h with h
  subst h
  try simp only [attend_key, chargeFollow_key]
  apply strapsRead_goes

theorem execPllLock_goes : ∀ (x0 : State) t, execPllLock x0 = .next t → x0.key.Goes [] [] t.key := by
  intro x0 t h
  injection h with h
  subst h
  simp

theorem execE0Boot_goes : ∀ (x0 : State) t, execE0Boot x0 = .next t → x0.key.Goes [] [] t.key := by
  intro x0 t h
  injection h with h
  subst h
  try simp only [attend_key, chargeFollow_key]
  apply booted_goes

theorem execE0Run_goes : ∀ (x0 : State) t, execE0Run x0 = .next t → x0.key.Goes [] [] t.key := by
  intro x0 t h
  injection h with h
  subst h
  try simp only [attend_key, chargeFollow_key]
  apply e0Start_goes

theorem execLinkUp_goes : ∀ (x0 : State) t, execLinkUp x0 = .next t → x0.key.Goes [] [] t.key := by
  intro x0 t h
  injection h with h
  subst h
  simp

theorem execStartupComplete_goes : ∀ (x0 : State) t, execStartupComplete x0 = .next t → x0.key.Goes [] [] t.key := by
  intro x0 t h
  injection h with h
  subst h
  simp

theorem execDeliveryTimeLimit_goes : ∀ (x0 : State) t, execDeliveryTimeLimit x0 = .next t → x0.key.Goes [] [] t.key := by
  intro x0 t h
  injection h with h
  subst h
  try simp only [attend_key, chargeFollow_key]
  apply deliveryLimit_goes

theorem execVbakLow_goes : ∀ (x0 : State) t, execVbakLow x0 = .next t → x0.key.Goes [] [] t.key := by
  intro x0 t h
  injection h with h
  subst h
  try simp only [attend_key, chargeFollow_key]
  apply vbakLow_goes

theorem execBackupRunIdleEnd_goes : ∀ (x0 : State) t, execBackupRunIdleEnd x0 = .next t → x0.key.Goes [] [] t.key := by
  intro x0 t h
  injection h with h
  subst h
  try simp only [attend_key, chargeFollow_key]
  apply backupIdleEnd_goes

theorem execBackupRunTimeEnd_goes : ∀ (x0 : State) t, execBackupRunTimeEnd x0 = .next t → x0.key.Goes [] [] t.key := by
  intro x0 t h
  injection h with h
  subst h
  try simp only [attend_key, chargeFollow_key]
  apply backupTimeEnd_goes

theorem execVinOvFalling_goes : ∀ (x0 : State) t, execVinOvFalling x0 = .next t → x0.key.Goes [] [] t.key := by
  intro x0 t h
  injection h with h
  subst h
  try simp only [attend_key, chargeFollow_key]
  apply vinOverEnds_goes

theorem execNoRelock_goes : ∀ (x0 : State) t, execNoRelock x0 = .next t → x0.key.Goes [] [] t.key := by
  intro x0 t h
  injection h with h
  subst h
  simp

theorem execSupplyOkChange_goes : ∀ x0 (x1 : State) t, execSupplyOkChange x0 x1 = .next t → x1.key.Goes [] [] t.key := by
  intro x0 x1 t h
  injection h with h
  subst h
  try simp only [attend_key, chargeFollow_key]
  apply supplyChange_goes

theorem execRecordGap_goes : ∀ (x0 : State) t, execRecordGap x0 = .next t → x0.key.Goes [] [] t.key := by
  intro x0 t h
  injection h with h
  subst h
  simp

theorem execChargerFull_goes : ∀ (x0 : State) t, execChargerFull x0 = .next t → x0.key.Goes [] [] t.key := by
  intro x0 t h
  injection h with h
  subst h
  simp

theorem execChargingResumes_goes : ∀ (x0 : State) t, execChargingResumes x0 = .next t → x0.key.Goes [] [] t.key := by
  intro x0 t h
  injection h with h
  subst h
  simp

end Sys2Proof.Machine
end

