-- ==== Sys2Proof/Laws/KeyStep.lean ====
section
/-! SUPPORT. Every command, and so every step, keeps what `Key.Goes` names; R80's agreement of idle pixels by key and by entry. -/

namespace Sys2Proof.Machine

/-- One command. -/
theorem exec_goes (c : Instr) (s t : State) (h : exec c s = .next t) : s.key.Goes (flipsOf c) [] t.key := by
  cases c with
  | hello l => exact execHello_goes l s t h
  | read l => exact execRead_goes l s t h
  | write l => exact execWrite_goes l s t h
  | collect l => exact execCollect_goes l s t h
  | collectArbitration others => exact execCollectArbitration_goes others s t h
  | why l => exact execWhy_goes l s t h
  | update l => exact execUpdate_goes l s t h
  | restate l => exact execRestate_goes l s t h
  | stage l => exact execStage_goes l s t h
  | reqRun via form => exact execReqRun_goes via form s t h
  | reqSlow via form => exact execReqSlow_goes via form s t h
  | reqHold via form => exact execReqHold_goes via form s t h
  | reqDormant via form => exact execReqDormant_goes via form s t h
  | wakeFrame rises frame => exact execWakeFrame_goes rises frame s t h
  | letterGap => exact execLetterGap_goes s t h
  | replyCutShort driving => exact execReplyCutShort_goes driving s t h
  | replyDropped => exact execReplyDropped_goes s t h
  | secKey via data => exact execSecKey_goes via data s t h
  | almOpen via => exact execAlmOpen_goes via s t h
  | almClose via => exact execAlmClose_goes via s t h
  | almCommit via => exact execAlmCommit_goes via s t h
  | almAbort via => exact execAlmAbort_goes via s t h
  | almValidationDone => exact execAlmValidationDone_goes s t h
  | almDrainEnd => exact execAlmDrainEnd_goes s t h
  | almCopyDone crcMatches => exact execAlmCopyDone_goes crcMatches s t h
  | almRecheckPass agrees => exact execAlmRecheckPass_goes agrees s t h
  | pghCancel via scope => exact execPghCancel_goes via scope s t h
  | pghRelease via scope => exact execPghRelease_goes via scope s t h
  | histClr via scope => exact execHistClr_goes via scope s t h
  | drlTest via op data => exact execDrlTest_goes via op data s t h
  | drillRotate => exact execDrillRotate_goes s t h
  | drillSelfTestDone which passed => exact execDrillSelfTestDone_goes which passed s t h
  | railTrim via op rail data => exact execRailTrim_goes via op rail data s t h
  | vcomTrim via op sel data => exact execVcomTrim_goes via op sel data s t h
  | vcomEn via op data => exact execVcomEn_goes via op data s t h
  | auxEn via op sel data => exact execAuxEn_goes via op sel data s t h
  | lswEn via op sel data => exact execLswEn_goes via op sel data s t h
  | ledDim via op sel data => exact execLedDim_goes via op sel data s t h
  | ledLatchClear via data => exact execLedLatchClear_goes via data s t h
  | wbud via op data => exact execWbud_goes via op data s t h
  | forceHot via op sel data => exact execForceHot_goes via op sel data s t h
  | rtcLoad via => exact execRtcLoad_goes via s t h
  | dstForward via => exact execDstForward_goes via s t h
  | dstBack via => exact execDstBack_goes via s t h
  | otpProgram via => exact execOtpProgram_goes via s t h
  | otpStep via => exact execOtpStep_goes via s t h
  | otpMargin via => exact execOtpMargin_goes via s t h
  | lcStep via op data => exact execLcStep_goes via op data s t h
  | otpOpDone e => exact execOtpOpDone_goes e s t h
  | fltInj via op data => exact execFltInj_goes via op data s t h
  | injectEnd => exact execInjectEnd_goes s t h
  | faultClear via reg data => exact execFaultClear_goes via reg data s t h
  | postedWriteLand block => exact execPostedWriteLand_goes block s t h
  | guardedWriteReply => exact execGuardedWriteReply_goes s t h
  | onDemandWakeDone => exact execOnDemandWakeDone_goes s t h
  | domainRehold d => exact execDomainRehold_goes d s t h
  | frameBoundary => exact execFrameBoundary_goes s t h
  | startSet input => exact execStartSet_goes input s t h
  | rowLatch input => exact execRowLatch_goes input s t h
  | agingTick flips => exact execAgingTick_goes flips s t h
  | headlandDone codes gx4AtVgl => exact execHeadlandDone_goes codes gx4AtVgl s t h
  | slowRoundSlot input => exact execSlowRoundSlot_goes input s t h
  | graceEnd c => exact execGraceEnd_goes c s t h
  | vinReturn => exact execVinReturn_goes s t h
  | backupAlive vinValid => exact execBackupAlive_goes vinValid s t h
  | vinLoss => exact execVinLoss_goes s t h
  | vinOv => exact execVinOv_goes s t h
  | resetNAssert => exact execResetNAssert_goes s t h
  | resetNRelease => exact execResetNRelease_goes s t h
  | sealNChange asserted => exact execSealNChange_goes asserted s t h
  | railPowerGood => exact execRailPowerGood_goes s t h
  | railPgTimeout => exact execRailPgTimeout_goes s t h
  | railDischarged => exact execRailDischarged_goes s t h
  | dischTimeout => exact execDischTimeout_goes s t h
  | vglHoldExpiry => exact execVglHoldExpiry_goes s t h
  | vcomRampEnd => exact execVcomRampEnd_goes s t h
  | planAuxPg => exact execPlanAuxPg_goes s t h
  | auxPgTimeout => exact execAuxPgTimeout_goes s t h
  | planDelayEnd => exact execPlanDelayEnd_goes s t h
  | auxRampEnd n => exact execAuxRampEnd_goes n s t h
  | holdCommit attn lost => exact execHoldCommit_goes attn lost s t h
  | holdReturnRailup => exact execHoldReturnRailup_goes s t h
  | dormantCommit attn lost => exact execDormantCommit_goes attn lost s t h
  | railUv edge => exact execRailUv_goes edge s t h
  | railOv edge => exact execRailOv_goes edge s t h
  | railOc edge => exact execRailOc_goes edge s t h
  | intUv rail => exact execIntUv_goes rail s t h
  | gateOverload line => exact execGateOverload_goes line s t h
  | vcomOverload ch => exact execVcomOverload_goes ch s t h
  | auxOc n => exact execAuxOc_goes n s t h
  | auxOv edge => exact execAuxOv_goes edge s t h
  | auxUv n => exact execAuxUv_goes n s t h
  | ledShort n => exact execLedShort_goes n s t h
  | ledOpen n => exact execLedOpen_goes n s t h
  | ledSoftstartEnd n => exact execLedSoftstartEnd_goes n s t h
  | watchdogExpiry => exact execWatchdogExpiry_goes s t h
  | xtalLoss => exact execXtalLoss_goes s t h
  | pllUnlock => exact execPllUnlock_goes s t h
  | railVote w => exact execRailVote_goes w s t h
  | pllRelock => exact execPllRelock_goes s t h
  | reactionDecision => exact execReactionDecision_goes s t h
  | recoveryEnd => exact execRecoveryEnd_goes s t h
  | meterRecord input => exact execMeterRecord_goes input s t h
  | signatureCheckDone => exact execSignatureCheckDone_goes s t h
  | keptRecordWritten => exact execKeptRecordWritten_goes s t h
  | recordRequest => exact execRecordRequest_goes s t h
  | renderDone => exact execRenderDone_goes s t h
  | staleExpiry => exact execStaleExpiry_goes s t h
  | recheckDone => exact execRecheckDone_goes s t h
  | rtcTick => exact execRtcTick_goes s t h
  | gaugeTestStart => exact execGaugeTestStart_goes s t h
  | gaugeTestDone v0 v1 v20 => exact execGaugeTestDone_goes v0 v1 v20 s t h
  | vbakCutoff => exact execVbakCutoff_goes s t h
  | vbakRestore => exact execVbakRestore_goes s t h
  | xtalRunning => exact execXtalRunning_goes s t h
  | otpDeliveryDone d => exact execOtpDeliveryDone_goes d s t h
  | strapReadDone codes => exact execStrapReadDone_goes codes s t h
  | pllLock => exact execPllLock_goes s t h
  | e0Boot => exact execE0Boot_goes s t h
  | e0Run => exact execE0Run_goes s t h
  | linkUp => exact execLinkUp_goes s t h
  | startupComplete => exact execStartupComplete_goes s t h
  | deliveryTimeLimit => exact execDeliveryTimeLimit_goes s t h
  | vbakLow => exact execVbakLow_goes s t h
  | backupRunIdleEnd => exact execBackupRunIdleEnd_goes s t h
  | backupRunTimeEnd => exact execBackupRunTimeEnd_goes s t h
  | vinOvFalling => exact execVinOvFalling_goes s t h
  | noRelock => exact execNoRelock_goes s t h
  | supplyOkChange ok => exact execSupplyOkChange_goes ok s t h
  | recordGap => exact execRecordGap_goes s t h
  | chargerFull => exact execChargerFull_goes s t h
  | chargingResumes => exact execChargingResumes_goes s t h

/-- The flips that the command at the queue's front brings. -/
def State.frontFlips (s : State) : List BitFlip :=
  match s.pending with
  | [] => []
  | c :: _ => flipsOf c

/-- One step; the queue alone loses its front. -/
theorem step_goes (s t : State) (h : step s = .next t) : ({s with pending := t.pending} : State).key.Goes s.frontFlips [] t.key := by
  unfold step at h
  unfold State.frontFlips
  cases e : s.pending with
  | nil =>
    rw [e] at h
    cases h
    exact Key.Goes.refl _
  | cons c rest =>
    rw [e] at h
    have g := exec_goes c _ t h
    have q' : rest = t.pending := g.queue.symm
    rw [← q']; exact g

/-- The invariants and R91's bound on the flips to come make the state calm. -/
theorem calm_of {s : State} (m : s.memoryOk = true) (h : s.idleOk) (l : s.flipsLow) : s.key.calm s.frontFlips := by
  have ha : idleAgree s.mem.pixels := by
    intro x hx a
    simp only [State.memoryOk, Bool.and_eq_true] at m
    have e := sget_mem unknownWord m.1.1.1.1.1 hx
    have := h x.1
    rw [e] at this
    exact this a
  simp only [State.memoryOk, Bool.and_eq_true] at m
  refine ⟨m.1.1.1.1.1, m.1.1.1.2, ha, ?_⟩
  intro g hg
  unfold State.frontFlips at *
  split at hg
  · obtain ⟨x, hx, _⟩ := hg
    cases hx
  · rename_i c rest e
    have := l c rest g e hg
    exact this

theorem idleOk_of {s : State} (h : idleAgree s.mem.pixels) : s.idleOk := by
  intro k
  rcases sget_cases unknownWord s.mem.pixels k with e | ⟨x, hx, _, e⟩
  · rw [e]; intro _; decide
  · rw [e]; exact h x hx

end Sys2Proof.Machine
end

