-- ==== Sys2Proof/Laws/Letters.lean ====
section
/-! SUPPORT. How a letter that is executed is served: the one-word write of the register rows, posted or guarded. -/

namespace Sys2Proof.Machine

/-! ### The letter of a one-word write -/

@[simp] theorem viaWrite_typ (v : Via) (a : Nat) (d : Word) : (viaWrite v a d).typ = 0x03 := rfl
@[simp] theorem viaWrite_body (v : Via) (a : Nat) (d : Word) :
    (viaWrite v a d).body = leBytes 2 a ++ [1, 0] ++ leBytes 4 d.toNat := rfl

theorem viaWrite_half (v : Via) {a : Nat} (d : Word) (h : a < 0x4000) : half (viaWrite v a d).body 0 = a := by
  simp [half, byteAt, leBytes, List.range, List.range.loop]
  omega

theorem viaWrite_count (v : Via) (a : Nat) (d : Word) : (viaWrite v a d).count = 1 := by
  simp [Letter.count, byteAt, leBytes, List.range, List.range.loop]

theorem viaWrite_words (v : Via) (a : Nat) (d : Word) : (viaWrite v a d).words = [d] := by
  have hd := d.isLt
  simp [Letter.words, viaWrite_count, quad, half, byteAt, leBytes, List.range, List.range.loop, wd]
  apply BitVec.eq_of_toNat_eq
  simp
  omega

/-! ### A letter that is executed -/

theorem letterStart_quiet {s : State} (q : s.quiet = true) : s.letterStart =
    { s with link := { s.link with serving := [], reply := none, inRound := false, winner := false }
             acc := { s.acc with guarded := [] }, rtc := { s.rtc with quietAt := s.now } } := by
  simp only [State.quiet, Bool.and_eq_true, List.isEmpty_iff] at q
  obtain ⟨⟨⟨h1, h2⟩, h3⟩, h4⟩ := q
  simp [State.letterStart, State.replyPending, State.forgetReplies, h1, h2]

/-- What passes orders 1 to 5 reaches order 6. -/
theorem takes_receive {s : State} {l : Letter} (h : s.takes l = true) :
    s.receiveLetter l = (s.letterStart.passed l).order6 l := by
  simp only [State.takes, Bool.and_eq_true, Bool.not_eq_true'] at h
  obtain ⟨⟨⟨⟨⟨⟨h1, h2⟩, h3⟩, h4⟩, h5⟩, h6⟩, h7⟩ := h
  have e5 : s.letterStart.addressed l = s.addressed l := by
    unfold State.letterStart State.forgetReplies
    dsimp only
    split <;> rfl
  have e6 : s.letterStart.repeats l = s.repeats l := by
    unfold State.letterStart State.forgetReplies
    dsimp only
    split <;> rfl
  have e7 : s.letterStart.order5 l = s.order5 l := by
    unfold State.letterStart State.forgetReplies
    dsimp only
    split <;> rfl
  have e8 : s.order5 l = none := by simpa using h7
  simp [State.receiveLetter, State.examine, h1, h2, h3, h4, e5, e6, e7, e8, h5, h6]

/-! ### A one-word write -/

/-- The state in which a one-word write is served. -/
def State.begun (s : State) (l : Letter) : State :=
  { s with
    link := { s.link with serving := [], reply := none, inRound := false, winner := false
                          letters := (s.link.letters + 1) % 65536
                          recorded := if l.kind = 0 then some { typ := l.typ, tag := l.tag, crc := l.crc, reply := [] }
                            else s.link.recorded }
    rtc := { s.rtc with quietAt := s.now } }

/-- The letter as it is served. -/
def writeServing (s : State) (v : Via) (a : Nat) (d : Word) : Serving :=
  let l := viaWrite v a d
  { typ := 0x03, addr := l.addr, tag := l.tag, crc := l.crc, write := true, at_ := s.now, reply := !(l.kind == 2), held := false
    next := a, todo := [d], got := [] }

theorem quiet_parts {s : State} (q : s.quiet = true) :
    s.link.serving = [] ∧ s.acc.guarded = [] ∧ s.acc.posted = [] ∧ s.relocking = false := by
  simpa [State.quiet, and_assoc] using q

theorem viaWord_serves {s : State} {v : Via} {a : Nat} {d : Word} (h : s.takes (viaWrite v a d) = true)
    (q : s.quiet = true) (ha : a < 0x4000) :
    s.viaWord v a d = (s.begun (viaWrite v a d)).serveLetter (writeServing s v a d) := by
  obtain ⟨h1, h2, h3, h4⟩ := quiet_parts q
  have e : ({ s.acc with guarded := [] } : AccessState) = s.acc := by rw [← h2]
  rw [State.viaWord, takes_receive h, letterStart_quiet q, e]
  have hk : ¬ 0x4000 ≤ a := by omega
  generalize hl : viaWrite v a d = l
  have ht : l.typ = 0x03 := by rw [← hl]; rfl
  have hb : half l.body 0 = a := by rw [← hl]; exact viaWrite_half v d ha
  have hc : l.count = 1 := by rw [← hl]; exact viaWrite_count v a d
  have hw : l.words = [d] := by rw [← hl]; exact viaWrite_words v a d
  have hp : ∀ t : State, t.passed l = { t with
      link.letters := (t.link.letters + 1) % 65536
      link.recorded := if l.kind = 0 then some { typ := l.typ, tag := l.tag, crc := l.crc, reply := [] }
        else t.link.recorded } := by
    intro t
    by_cases hk0 : l.kind = 0 <;> simp [State.passed, ht, hk0, tHello, tUpdate, tRestate, tStage]
  rw [hp]
  unfold State.order6
  simp only [ht, tHello, tRead, tWrite]
  simp only [State.registerLetter, hb, hc, hw, ht]
  simp [hk, tWrite, writeServing, hl, State.begun, ht]

/-! ### The access of a one-word write -/

theorem answer_link (s : State) (w : Bool) (typ addr tag : Byte) (crc : BitVec 16) (st : Byte) (body : List Byte) :
    s.answer w typ addr tag crc st body = { s with link := (s.answer w typ addr tag crc st body).link } := by
  unfold State.answer State.keepReply State.sendReply
  dsimp only
  repeat' split
  all_goals rfl

theorem answer_serving (s : State) (w : Bool) (typ addr tag : Byte) (crc : BitVec 16) (st : Byte) (body : List Byte) :
    (s.answer w typ addr tag crc st body).link.serving = s.link.serving := by
  unfold State.answer State.keepReply State.sendReply
  dsimp only
  repeat' split
  all_goals rfl

/-- Nothing waits: `pump` does nothing. -/
theorem pump_nil {s : State} (h : s.link.serving = []) : s.pump = s := by
  simp only [State.pump, h, List.foldl_nil]
  conv => rhs; rw [show s = { s with link := { s.link with serving := s.link.serving } } from rfl, h]
  split
  · rfl
  · rw [← h]

/-- No block with a TRANSIT bit holds an access up when nothing is in flight. -/
theorem transit_quiet {s : State} (h1 : s.link.serving = []) (h2 : s.acc.guarded = []) (h3 : s.acc.posted = []) (b : Nat) :
    s.transit b = false := by
  simp [State.transit, State.stallIn, h1, h2, h3]

/-- A domain that no access wakes. -/
theorem mustWake_none {s : State} {a : Nat} {row : RegRow} (hr : rowAt (a % 4096) = some row) (hw : wakeOf row.dom = none) :
    s.mustWake a = none := by
  simp [State.mustWake, hr, hw]

/-- One access served to its end. -/
theorem serve_one {s : State} {v v' : Serving} {d : Word} {t : State} (hv : v.todo = [d])
    (h : s.access v = (t, .done v')) : s.serveLetter v = t.servedTo v' := by
  simp [State.serveLetter, State.serve, hv, h]

/-- A one-word write to a register whose writes are posted: accepted, and then landed. -/
theorem viaWord_posted {s : State} {v : Via} {a : Nat} {d : Word} {row : RegRow} (h : s.takes (viaWrite v a d) = true)
    (q : s.quiet = true) (ha : a < 0x4000) (hd : s.decodeAddr a = some a) (hr : rowAt (a % 4096) = some row)
    (hk : row.key = none) (he : row.effect = true) (hp : row.posted = true) :
    ∃ w : State, (s.viaWord v a d).postedLand (blockOf a) = State.pump (w.land a d s.fullDecode)
      ∧ s.servedOnly w ∧ w.link.serving = [] ∧ w.acc.guarded = [] ∧ w.acc.posted = [] := by
  obtain ⟨h1, h2, h3, h4⟩ := quiet_parts q
  have hwk : wakeOf row.dom = none := by
    simp only [RegRow.posted, Bool.or_eq_true, beq_iff_eq] at hp
    rcases hp with hp | hp <;> simp [hp, wakeOf]
  rw [viaWord_serves h q ha]
  generalize hb : s.begun (viaWrite v a d) = b
  have b1 : b.link.serving = [] := by rw [← hb]; rfl
  have b2 : b.acc.guarded = [] := by rw [← hb]; exact h2
  have b3 : b.acc.posted = [] := by rw [← hb]; exact h3
  have bd : b.decodeAddr a = some a := by rw [← hb]; exact hd
  have bf : b.fullDecode = s.fullDecode := by rw [← hb]; rfl
  have br : b.relocking = false := by rw [← hb]; exact h4
  have bs : s.servedOnly b := by rw [← hb]; rfl
  have ac : b.access (writeServing s v a d) =
      (b.post a d (row.dom == .backup), .done ((writeServing s v a d).past 0)) := by
    have ht : b.touch row.dom = b := by simp [State.touch, hwk]
    simp [State.access, State.accessTo, writeServing, bd, hr, hk, br, mustWake_none hr hwk,
      transit_quiet b1 b2 b3, ht, State.writeStep, he, hp]
  rw [serve_one rfl ac]
  unfold State.servedTo
  generalize (writeServing s v a d).past 0 = v'
  rw [answer_link]
  generalize hA : State.answer _ _ _ _ _ _ _ _ = A
  have as : A.link.serving = [] := by rw [← hA, answer_serving]; exact b1
  have hbk : (Fin.ofNat 16 (blockOf a)).val = blockOf a := by
    simp [blockOf]
  simp only [State.postedLand, State.post, b3, List.nil_append, List.find?_cons, hbk, beq_self_eq_true, bf]
  refine ⟨_, rfl, ?_, as, b2, by simp [State.reach]⟩
  subst hb
  rfl

/-- A one-word write to a register of the logic core that takes it at once. -/
theorem viaWord_core {s : State} {v : Via} {a : Nat} {d : Word} {row : RegRow} (h : s.takes (viaWrite v a d) = true)
    (q : s.quiet = true) (ha : a < 0x4000) (hd : s.decodeAddr a = some a) (hr : rowAt (a % 4096) = some row)
    (hk : row.key = none) (he : row.effect = true) (hc : row.dom = .core) :
    ∃ (w : State) (v' : Serving), s.viaWord v a d = (w.land a d s.fullDecode).servedTo v' ∧ s.servedOnly w
      ∧ w.link.serving = [] ∧ w.acc = s.acc ∧ w.now = s.now := by
  obtain ⟨h1, h2, h3, h4⟩ := quiet_parts q
  have hwk : wakeOf row.dom = none := by simp [hc, wakeOf]
  have hp : row.posted = false := by simp [RegRow.posted, hc]
  rw [viaWord_serves h q ha]
  generalize hb : s.begun (viaWrite v a d) = b
  have b1 : b.link.serving = [] := by rw [← hb]; rfl
  have b2 : b.acc.guarded = [] := by rw [← hb]; exact h2
  have b3 : b.acc.posted = [] := by rw [← hb]; exact h3
  have bd : b.decodeAddr a = some a := by rw [← hb]; exact hd
  have bf : b.fullDecode = s.fullDecode := by rw [← hb]; rfl
  have br : b.relocking = false := by rw [← hb]; exact h4
  have ac : b.access (writeServing s v a d) = (b.land a d s.fullDecode, .done ((writeServing s v a d).past 0)) := by
    have ht : b.touch row.dom = b := by simp [State.touch, hwk]
    simp [State.access, State.accessTo, writeServing, bd, hr, hk, br, mustWake_none hr hwk,
      transit_quiet b1 b2 b3, ht, State.writeStep, he, hp, bf]
  rw [serve_one rfl ac]
  refine ⟨b, _, rfl, ?_, b1, ?_, ?_⟩ <;> subst hb <;> rfl

/-- The guarded write that a one-word write becomes. -/
def writeGuarded (s : State) (v : Via) (a : Nat) (d : Word) (needs : Bool) : Guarded :=
  let l := viaWrite v a d
  { typ := 0x03, addr := l.addr, tag := l.tag, crc := l.crc, reg := a, data := d, full := s.fullDecode, reply := !(l.kind == 2)
    why := none, needsSeal := needs, sealed := s.acc.sealIn, due := s.now + guardSpan }

/-- A one-word write to a guarded register that nothing refuses: taken, and at its reply it lands. -/
theorem viaWord_guarded {s : State} {v : Via} {g : Group} {a : Nat} {d : Word} {row : RegRow} {needs : Bool}
    (h : s.takes (viaWrite v a d) = true) (q : s.quiet = true) (ha : a < 0x4000) (hd : s.decodeAddr a = some a)
    (hr : rowAt (a % 4096) = some row) (hk : row.key = some g) (hm : wakeOf row.dom = none)
    (hy : ∀ w : State, s.servedOnly w → w.acc = s.acc → w.guardWhy g a d = none)
    (hs : ∀ w : State, s.servedOnly w → w.acc = s.acc → w.guardSeal g a d = needs)
    (ho : ∀ w : State, s.servedOnly w → w.guardOutcome (writeGuarded s v a d needs) = none)
    (hl : ∀ w : State, s.servedOnly w → w.bridgeLost (writeGuarded s v a d needs) = false) :
    ∃ w : State, (s.viaWord v a d).guardedReply = State.pump ((w.land a d s.fullDecode).answer (!((viaWrite v a d).kind == 2)) 0x03
        (viaWrite v a d).addr (viaWrite v a d).tag (viaWrite v a d).crc 0 [])
      ∧ s.servedOnly w ∧ w.link.serving = [] ∧ w.acc.guarded = [] ∧ w.acc.posted = [] := by
  obtain ⟨h1, h2, h3, h4⟩ := quiet_parts q
  have lock : s.clock.pllLock = true := by
    simp only [State.takes, State.hears, Bool.and_eq_true, Bool.or_eq_true] at h
    rcases h.1.1.1.1.1.1.2 with h | h
    · exact (Bool.and_eq_true _ _ ▸ h).1
    · simp [h4] at h
  rw [viaWord_serves h q ha]
  generalize hb : s.begun (viaWrite v a d) = b
  have b1 : b.link.serving = [] := by rw [← hb]; rfl
  have b2 : b.acc.guarded = [] := by rw [← hb]; exact h2
  have b3 : b.acc.posted = [] := by rw [← hb]; exact h3
  have bd : b.decodeAddr a = some a := by rw [← hb]; exact hd
  have bf : b.fullDecode = s.fullDecode := by rw [← hb]; rfl
  have br : b.relocking = false := by rw [← hb]; exact h4
  have bs : s.servedOnly b := by rw [← hb]; rfl
  have ba : b.acc = s.acc := by rw [← hb]; rfl
  have bl : b.clock.pllLock = true := by rw [← hb]; exact lock
  have ac : b.access (writeServing s v a d) = (b.takeGuarded (writeServing s v a d) g a d, .guarded) := by
    have ht : b.touch row.dom = b := by simp [State.touch, hm]
    simp [State.access, State.accessTo, State.jumpsIn, b2, writeServing, bd, hr, hk, br, mustWake_none hr hm,
      transit_quiet b1 b2 b3, ht]
  have sv : b.serveLetter (writeServing s v a d) = b.takeGuarded (writeServing s v a d) g a d := by
    have todo : (writeServing s v a d).todo = [d] := rfl
    simp [State.serveLetter, State.serve, ac, todo]
  rw [sv]
  have x : b.takeGuarded (writeServing s v a d) g a d =
      { b with acc := { b.acc with guarded := [writeGuarded s v a d needs]
                                   armed := if b.acc.armed = some g then none else b.acc.armed } } := by
    simp [State.takeGuarded, writeGuarded, writeServing, hy b bs ba, hs b bs ba, h2, bf, ba]
  rw [x]
  unfold State.guardedReply
  dsimp only
  rw [if_pos bl]
  rw [ho _ (by subst hb; rfl), hl _ (by subst hb; rfl)]
  simp only [Option.isSome_none, Bool.false_eq_true, if_false]
  refine ⟨_, rfl, ?_, b1, rfl, b3⟩
  subst hb
  rfl

end Sys2Proof.Machine
end

