-- ==== Sys2Proof/Laws/OtpCode.lean ====
section
/-! SUPPORT. The code of a one-time-programmable word (R444) is linear: a word as encoded reads clean, one wrong bit is corrected and two
are uncorrectable, whatever the data. -/

namespace Sys2Proof.Machine

/-- The seven check bits before the inversion: the Hamming bits and the parity. -/
def otpCheck (d : Word) : Nat := otpHamming d + 64 * ((popcount 32 d.toNat + popcount 6 (otpHamming d)) % 2)

theorem hammingFold_xor (x y : Word) (l : List Nat) : ∀ a b : Nat,
    l.foldl (fun a i => if (x ^^^ y).getLsbD i then a ^^^ otpPlace i else a) (a ^^^ b)
      = l.foldl (fun a i => if x.getLsbD i then a ^^^ otpPlace i else a) a
        ^^^ l.foldl (fun a i => if y.getLsbD i then a ^^^ otpPlace i else a) b := by
  induction l with
  | nil => intro a b; rfl
  | cons i l ih =>
    intro a b
    rw [List.foldl_cons, List.foldl_cons, List.foldl_cons, ← ih]
    congr 1
    rw [BitVec.getLsbD_xor]
    generalize otpPlace i = c
    cases x.getLsbD i <;> cases y.getLsbD i
    · simp
    · simp [Nat.xor_assoc]
    · have h : a ^^^ c ^^^ b = a ^^^ b ^^^ c := by rw [Nat.xor_assoc, Nat.xor_comm c b, ← Nat.xor_assoc]
      simp [h]
    · have h : a ^^^ c ^^^ (b ^^^ c) = a ^^^ b ^^^ (c ^^^ c) := by ac_rfl
      simp [h]

theorem otpHamming_xor (x y : Word) : otpHamming (x ^^^ y) = otpHamming x ^^^ otpHamming y := by
  have h := hammingFold_xor x y (List.range 32) 0 0
  simpa [otpHamming] using h

theorem otpHamming_lt (d : Word) : otpHamming d < 64 := by
  have h : ∀ (l : List Nat) (a : Nat), (∀ i ∈ l, i < 32) → a < 2 ^ 6 →
      l.foldl (fun a i => if d.getLsbD i then a ^^^ otpPlace i else a) a < 2 ^ 6 := by
    intro l
    induction l with
    | nil => intro a _ ha; exact ha
    | cons i l ih =>
      intro a hl ha
      rw [List.foldl_cons]
      refine ih _ (fun j hj => hl j (List.mem_cons_of_mem _ hj)) ?_
      have hi : otpPlace i < 2 ^ 6 := by
        have : i < 32 := hl i (List.mem_cons_self ..)
        unfold otpPlace
        split_ifs <;> omega
      split
      · exact Nat.xor_lt_two_pow ha hi
      · exact ha
  exact h (List.range 32) 0 (fun i hi => List.mem_range.1 hi) (by decide)

theorem popcount_xor (n x y : Nat) : popcount n (x ^^^ y) % 2 = (popcount n x + popcount n y) % 2 := by
  induction n with
  | zero => rfl
  | succ n ih =>
    simp only [popcount, sumTo] at ih ⊢
    simp only [List.range_succ, List.foldl_append, List.foldl_cons, List.foldl_nil, Nat.testBit_xor] at ih ⊢
    cases x.testBit n <;> cases y.testBit n <;> simp at ih ⊢ <;> omega

theorem checkBits_xor : ∀ h k : Fin 64, ∀ p q : Fin 2,
    (h.val ^^^ k.val) + 64 * ((p.val + q.val) % 2) = (h.val + 64 * p.val) ^^^ (k.val + 64 * q.val) := by decide +kernel

theorem otpCheck_xor (x y : Word) : otpCheck (x ^^^ y) = otpCheck x ^^^ otpCheck y := by
  have h := checkBits_xor ⟨otpHamming x, otpHamming_lt x⟩ ⟨otpHamming y, otpHamming_lt y⟩
    ⟨(popcount 32 x.toNat + popcount 6 (otpHamming x)) % 2, Nat.mod_lt _ (by decide)⟩
    ⟨(popcount 32 y.toNat + popcount 6 (otpHamming y)) % 2, Nat.mod_lt _ (by decide)⟩
  unfold otpCheck
  rw [← h, otpHamming_xor]
  congr 2
  have a := popcount_xor 32 x.toNat y.toNat
  have b := popcount_xor 6 (otpHamming x) (otpHamming y)
  rw [BitVec.toNat_xor]
  dsimp only
  omega

theorem otpCheck_lt (d : Word) : otpCheck d < 128 := by
  have := otpHamming_lt d
  unfold otpCheck
  omega

/-- The stored word: check bits above the data. -/
theorem otpEncode_eq (d : Word) : otpEncode d = BitVec.ofNat 7 (otpCheck d ^^^ 0x55) ++ d := by
  have hc : otpCheck d ^^^ 0x55 < 2 ^ 7 := Nat.xor_lt_two_pow (otpCheck_lt d) (by decide)
  apply BitVec.eq_of_toNat_eq
  rw [BitVec.toNat_append, BitVec.toNat_ofNat, Nat.mod_eq_of_lt hc, ← Nat.shiftLeft_add_eq_or_of_lt d.isLt, Nat.shiftLeft_eq]
  show (BitVec.ofNat 39 (d.toNat + (otpCheck d ^^^ 0x55) * 2 ^ 32)).toNat = _
  have hd := d.isLt
  rw [BitVec.toNat_ofNat, Nat.mod_eq_of_lt (by omega)]
  omega

theorem otpEncode_low (d : Word) : (otpEncode d).setWidth 32 = d := by
  rw [otpEncode_eq, BitVec.setWidth_append]
  simp

/-- The code is linear but for its inversion. -/
theorem otpEncode_xor (x y : Word) : otpEncode (x ^^^ y) = otpEncode x ^^^ otpEncode y ^^^ otpEncode 0 := by
  have h0 : otpCheck 0 = 0 := by decide +kernel
  rw [otpEncode_eq, otpEncode_eq x, otpEncode_eq y, otpEncode_eq 0, BitVec.xor_append, BitVec.xor_append, otpCheck_xor, h0]
  congr 1
  · apply BitVec.eq_of_toNat_eq
    simp only [BitVec.toNat_xor, BitVec.toNat_ofNat, ← Nat.xor_mod_two_pow]
    congr 1
    rw [Nat.zero_xor]
    have : otpCheck x ^^^ 0x55 ^^^ (otpCheck y ^^^ 0x55) ^^^ 0x55 = otpCheck x ^^^ otpCheck y ^^^ 0x55 ^^^ (0x55 ^^^ 0x55) := by ac_rfl
    rw [this]
    simp
  · simp

/-- Whether a word with given wrong bits reads clean does not depend on its data. -/
theorem otpClean_wrong (d : Word) (e : BitVec 39) : otpClean (otpEncode d ^^^ e) = otpClean (otpEncode 0 ^^^ e) := by
  have h : ∀ x : Word, otpClean (otpEncode x ^^^ e) = decide (e = otpEncode (e.setWidth 32) ^^^ otpEncode 0) := by
    intro x
    unfold otpClean
    rw [BitVec.setWidth_xor, otpEncode_low, otpEncode_xor, BitVec.xor_assoc, Bool.eq_iff_iff]
    simp only [beq_iff_eq, decide_eq_true_eq]
    constructor
    · intro he
      have := congrArg (fun z => otpEncode x ^^^ z) he
      simpa only [← BitVec.xor_assoc, BitVec.xor_self, BitVec.zero_xor] using this
    · intro he
      rw [← he]
  rw [h d, h 0]

theorem firstTo_none (n : Nat) (p : Nat → Bool) (h : ∀ i, i < n → p i = false) : firstTo n p = none := by
  unfold firstTo
  rw [List.find?_eq_none]
  intro i hi
  simp [h i (List.mem_range.1 hi)]

/-- A word as encoded reads clean. -/
theorem otpClean_encode (d : Word) : otpClean (otpEncode d) = true := by
  simp [otpClean, otpEncode_low]

/-- A word whose wrong bits no one flip mends is not good, whatever its data. -/
theorem otpWrong_bad (d : Word) (e : BitVec 39)
    (h : (List.range 39).all (fun i => !otpClean (otpEncode 0 ^^^ (e ^^^ BitVec.ofNat 39 (2 ^ i)))) = true)
    (h0 : otpClean (otpEncode 0 ^^^ e) = false) : ({ bits := otpEncode d ^^^ e, marginal := 0 } : OtpWord).good = false := by
  have hf : otpFix (otpEncode d ^^^ e) = none := by
    refine firstTo_none _ _ (fun i hi => ?_)
    rw [BitVec.xor_assoc, otpClean_wrong]
    have := List.all_eq_true.1 h i (List.mem_range.2 hi)
    simpa using this
  unfold OtpWord.good OtpWord.ecc
  rw [otpClean_wrong, h0, hf]
  split <;> simp

end Sys2Proof.Machine
end

