-- ==== Sys2Proof/Laws/Received.lean ====
section
/-! SUPPORT. What receiving a letter leaves: the link after a letter that was counted, its answer, the end of HOLD, and the check that a
damaged byte fails (R364, R365, R369). -/

namespace Sys2Proof.Machine

theorem letterStart_served (s : State) : s.heardOnly s.letterStart := by
  unfold State.letterStart State.forgetReplies State.heardOnly
  dsimp only
  split <;> rfl

/-- Each of the eight letters is received alike. -/
theorem exec_letter {l : Letter} {c : Instr} (h : c ∈ letterCommands l) (s : State) : exec c s = .next (s.receiveLetter l) := by
  simp only [letterCommands, List.mem_cons, List.not_mem_nil, or_false] at h
  rcases h with h | h | h | h | h | h | h | h <;> subst h <;> rfl

theorem crc16Bit_inj {a b : BitVec 16} (h : crc16Bit a = crc16Bit b) : a = b := by
  unfold crc16Bit at h
  apply BitVec.eq_of_getLsbD_eq
  intro i hi
  have g : ∀ j, j < 16 → (if a.getLsbD 15 = true then a <<< 1 ^^^ 0x1021#16 else a <<< 1).getLsbD j =
    (if b.getLsbD 15 = true then b <<< 1 ^^^ 0x1021#16 else b <<< 1).getLsbD j := fun j _ => by rw [h]
  have g0 := g 0 (by omega)
  have top : a.getLsbD 15 = b.getLsbD 15 := by
    cases ha : a.getLsbD 15 <;> cases hb : b.getLsbD 15 <;> rw [ha, hb] at g0 <;> simp at g0 ⊢
  by_cases e : i = 15
  · subst e; exact top
  · have g1 := g (i + 1) (by omega)
    rw [top] at g1
    have l1 : i + 1 < 16 := by omega
    rw [BitVec.getLsbD_eq_getElem hi, BitVec.getLsbD_eq_getElem hi]
    split at g1 <;> simpa [BitVec.getLsbD_xor, BitVec.getLsbD_shiftLeft, l1] using g1

theorem repeat_inj {f : BitVec 16 → BitVec 16} (hf : ∀ a b, f a = f b → a = b) : ∀ (n : Nat) (a b : BitVec 16),
    Nat.repeat f n a = Nat.repeat f n b → a = b
  | 0, _, _, h => h
  | n + 1, a, b, h => repeat_inj hf n a b (hf _ _ h)

theorem crc16Byte_inj {a b : BitVec 16} {x y : Byte} (h : crc16Byte a x = crc16Byte b y) :
    a ^^^ (x.setWidth 16 <<< 8) = b ^^^ (y.setWidth 16 <<< 8) :=
  repeat_inj (fun _ _ => crc16Bit_inj) 8 _ _ h

theorem crc16_foldl_inj : ∀ (l : List Byte) {a b : BitVec 16}, l.foldl crc16Byte a = l.foldl crc16Byte b → a = b
  | [], _, _, h => h
  | x :: l, a, b, h => by
    have := crc16Byte_inj (crc16_foldl_inj l h)
    have e : ∀ c : BitVec 16, c = (c ^^^ (x.setWidth 16 <<< 8)) ^^^ (x.setWidth 16 <<< 8) := by
      intro c; rw [BitVec.xor_assoc, BitVec.xor_self, BitVec.xor_zero]
    rw [e a, e b, this]

theorem byte_shift_inj {x y : Byte} {c : BitVec 16} (h : c ^^^ (x.setWidth 16 <<< 8) = c ^^^ (y.setWidth 16 <<< 8)) : x = y := by
  apply BitVec.eq_of_getLsbD_eq
  intro i hi
  have g : (c ^^^ (x.setWidth 16 <<< 8)).getLsbD (i + 8) = (c ^^^ (y.setWidth 16 <<< 8)).getLsbD (i + 8) := by rw [h]
  simp only [BitVec.getLsbD_xor, BitVec.getLsbD_shiftLeft, BitVec.getLsbD_setWidth] at g
  have e1 : i + 8 < 16 := by omega
  have e2 : ¬ i + 8 < 8 := by omega
  have e3 : i + 8 - 8 = i := by omega
  simp only [e1, e2, e3, decide_true, decide_false, Bool.not_false, Bool.true_and] at g
  have e4 : i < 16 := by omega
  simp only [e4, decide_true, Bool.true_and] at g
  cases hc : c.getLsbD (i + 8) <;> simpa [hc] using g

/-- One byte changed in a sound run of bytes changes its CRC (R364). -/
theorem crc16_set_ne (pre : List Byte) : ∀ (l : List Byte) (i : Nat) (b : Byte), i < l.length → byteAt l i ≠ b →
    crc16 (pre ++ l.set i b) ≠ crc16 (pre ++ l) := by
  intro l i b hi hb e
  simp only [crc16, List.foldl_append] at e
  generalize pre.foldl crc16Byte 0xFFFF#16 = a at e
  have hl : l = l.take i ++ byteAt l i :: l.drop (i + 1) := by
    simp [byteAt, List.getD_eq_getElem?_getD, List.getElem?_eq_getElem hi]
  have hs : l.set i b = l.take i ++ b :: l.drop (i + 1) := List.set_eq_take_append_cons_drop .. |>.trans (by simp [hi])
  rw [hs] at e
  conv at e => rhs; rw [hl]
  simp only [List.foldl_append, List.foldl_cons] at e
  have := crc16_foldl_inj _ e
  exact hb (byte_shift_inj (crc16Byte_inj this)).symm

/-- What a letter that passed order 5 leaves before its own part, but for the end of HOLD. -/
def State.counted (s : State) (l : Letter) : State :=
  let t := s.letterStart
  let t1 := { t with link.letters := (t.link.letters + 1) % 65536 }
  if l.kind = 0 ∧ l.typ.toNat ≠ tHello then
      { t1 with link.recorded := some { typ := l.typ, tag := l.tag, crc := l.crc, reply := [] } }
    else t1

theorem counted_served (s : State) (l : Letter) : s.heardOnly (s.counted l) := by
  unfold State.counted State.letterStart State.forgetReplies State.heardOnly
  dsimp only
  split <;> split <;> rfl

theorem wakeEvent_link (s : State) (p : WakeBy) : (s.wakeEvent p).link = s.link ∧ (s.wakeEvent p).acc = s.acc
    ∧ (s.wakeEvent p).rtc = s.rtc ∧ (s.wakeEvent p).now = s.now ∧ (s.wakeEvent p).strap = s.strap := by
  unfold State.wakeEvent State.heldEvent State.countRace State.beginReturn State.abandonEntry
  (repeat' split) <;> exact ⟨rfl, rfl, rfl, rfl, rfl⟩

theorem wakeEvent_served {s t : State} (p : WakeBy) (h : s.heardOnly t) : (s.wakeEvent p).heardOnly (t.wakeEvent p) := by
  unfold State.heardOnly at h
  rw [h]
  generalize t.link = k
  generalize t.acc = a
  generalize t.rtc.quietAt = q
  unfold State.heardOnly State.wakeEvent State.heldEvent State.raceWindow State.countRace State.beginReturn State.abandonEntry
  dsimp only
  (repeat' split) <;> rfl

theorem passed_counted (s : State) (l : Letter) : s.letterStart.passed l =
    if l.typ.toNat = tHello ∨ l.typ.toNat = tUpdate ∨ l.typ.toNat = tRestate ∨ l.typ.toNat = tStage then
      (s.counted l).wakeEvent .letter else s.counted l := rfl

theorem heardOnly_trans {s t u : State} (h : s.heardOnly t) (g : t.heardOnly u) : s.heardOnly u := by
  unfold State.heardOnly at *
  rw [g, h]

theorem answer_served (s : State) (w : Bool) (typ addr tag : Byte) (crc : BitVec 16) (st : Byte) (body : List Byte) :
    s.heardOnly (s.answer w typ addr tag crc st body) := by
  unfold State.heardOnly
  rw [answer_link]

theorem counted_link (s : State) (l : Letter) :
    (s.counted l).link.letters = (s.link.letters + 1) % 65536 ∧ (s.counted l).link.reply = none
    ∧ (s.counted l).link.version = s.link.version ∧ (s.counted l).link.lastTag = s.link.lastTag ∧ (s.counted l).acc.helloSeen = s.acc.helloSeen
    ∧ (s.counted l).strap = s.strap ∧ (s.counted l).now = s.now := by
  unfold State.counted State.letterStart State.forgetReplies
  dsimp only
  split <;> split <;> exact ⟨rfl, rfl, rfl, rfl, rfl, rfl, rfl⟩

theorem sendReply_reply {s t : State} {l : Letter} (st : Byte) (body : List Byte) (h : t.link.reply = none)
    (e : t.strap = s.strap) (n : t.now = s.now) :
    (t.sendReply l.typ l.addr l.tag st body).link.reply = s.replyTo l st body := by
  have eb : ∀ body, t.replyBytes l.typ l.tag st body = s.replyBytes l.typ l.tag st body := by
    intro body
    simp only [State.replyBytes, State.house, State.bin, e]
  unfold State.sendReply State.replyTo Letter.kind
  split
  · exact h
  · split <;> simp [n, *]

theorem letterCounted_counted (s : State) (l : Letter) : s.letterCounted (s.counted l) := by
  unfold State.counted State.letterStart State.forgetReplies State.letterCounted
  dsimp only
  split <;> split <;> rfl

/-- An answer after a counted letter. -/
theorem letterCounted_answer {s t : State} (h : s.letterCounted t) (w : Bool) (typ addr tag : Byte) (crc : BitVec 16) (st : Byte)
    (body : List Byte) : s.letterCounted (t.answer w typ addr tag crc st body) := by
  unfold State.letterCounted at *
  unfold State.answer State.keepReply State.sendReply
  dsimp only
  (repeat' split) <;> (try dsimp only) <;> rw [h]

theorem answer_reply {s t : State} {l : Letter} (st : Byte) (body : List Byte) (h : t.link.reply = none)
    (e : t.strap = s.strap) (n : t.now = s.now) :
    (t.answer true l.typ l.addr l.tag l.crc st body).link.reply = s.replyTo l st body := by
  unfold State.answer
  simp only [if_true]
  apply sendReply_reply
  · unfold State.keepReply; (repeat' split) <;> exact h
  · unfold State.keepReply; (repeat' split) <;> exact e
  · unfold State.keepReply; (repeat' split) <;> exact n

end Sys2Proof.Machine
end

