-- ==== Sys2Proof/Laws/State.lean ====
section
/-! SUPPORT. The shared updates of the state, field by field: what each leaves as it was, and what it writes, so that no proof
unfolds a record update. A lemma is named by the operation and the field. -/

namespace Sys2Proof.Machine

variable (s : State)

/-! ### The moment a command marks -/

@[simp] theorem State.reach_now (s : State) (t : Nat) : (s.reach t).now = max s.now t := rfl
@[simp] theorem State.reach_pending (t : Nat) : (s.reach t).pending = s.pending := rfl
@[simp] theorem State.reach_free (t : Nat) : (s.reach t).free = s.free := rfl
@[simp] theorem State.reach_strap (t : Nat) : (s.reach t).strap = s.strap := rfl
@[simp] theorem State.reach_mem (t : Nat) : (s.reach t).mem = s.mem := rfl
@[simp] theorem State.reach_panel (t : Nat) : (s.reach t).panel = s.panel := rfl
@[simp] theorem State.reach_drills (t : Nat) : (s.reach t).drills = s.drills := rfl
@[simp] theorem State.reach_scan (t : Nat) : (s.reach t).scan = s.scan := rfl
@[simp] theorem State.reach_alm (t : Nat) : (s.reach t).alm = s.alm := rfl
@[simp] theorem State.reach_pgh (t : Nat) : (s.reach t).pgh = s.pgh := rfl
@[simp] theorem State.reach_therm (t : Nat) : (s.reach t).therm = s.therm := rfl
@[simp] theorem State.reach_ledger (t : Nat) : (s.reach t).ledger = s.ledger := rfl
@[simp] theorem State.reach_rw (t : Nat) : (s.reach t).rw = s.rw := rfl
@[simp] theorem State.reach_clock (t : Nat) : (s.reach t).clock = s.clock := rfl
@[simp] theorem State.reach_tree (t : Nat) : (s.reach t).tree = s.tree := rfl
@[simp] theorem State.reach_seq (t : Nat) : (s.reach t).seq = s.seq := rfl
@[simp] theorem State.reach_pwr (t : Nat) : (s.reach t).pwr = s.pwr := rfl
@[simp] theorem State.reach_link (t : Nat) : (s.reach t).link = s.link := rfl
@[simp] theorem State.reach_acc (t : Nat) : (s.reach t).acc = s.acc := rfl
@[simp] theorem State.reach_rtc (t : Nat) : (s.reach t).rtc = s.rtc := rfl
@[simp] theorem State.reach_otp (t : Nat) : (s.reach t).otp = s.otp := rfl
@[simp] theorem State.reach_flt (t : Nat) : (s.reach t).flt = s.flt := rfl
@[simp] theorem State.reach_up (t : Nat) : (s.reach t).up = s.up := rfl

/-! ### A free value drawn -/

@[simp] theorem State.draw_fst (s : State) : s.draw.1 = s.free := rfl
@[simp] theorem State.draw_free (s : State) : s.draw.2.free = s.free + 1 := rfl
@[simp] theorem State.draw_pending : (s.draw.2).pending = s.pending := rfl
@[simp] theorem State.draw_now : (s.draw.2).now = s.now := rfl
@[simp] theorem State.draw_strap : (s.draw.2).strap = s.strap := rfl
@[simp] theorem State.draw_mem : (s.draw.2).mem = s.mem := rfl
@[simp] theorem State.draw_panel : (s.draw.2).panel = s.panel := rfl
@[simp] theorem State.draw_drills : (s.draw.2).drills = s.drills := rfl
@[simp] theorem State.draw_scan : (s.draw.2).scan = s.scan := rfl
@[simp] theorem State.draw_alm : (s.draw.2).alm = s.alm := rfl
@[simp] theorem State.draw_pgh : (s.draw.2).pgh = s.pgh := rfl
@[simp] theorem State.draw_therm : (s.draw.2).therm = s.therm := rfl
@[simp] theorem State.draw_ledger : (s.draw.2).ledger = s.ledger := rfl
@[simp] theorem State.draw_rw : (s.draw.2).rw = s.rw := rfl
@[simp] theorem State.draw_clock : (s.draw.2).clock = s.clock := rfl
@[simp] theorem State.draw_tree : (s.draw.2).tree = s.tree := rfl
@[simp] theorem State.draw_seq : (s.draw.2).seq = s.seq := rfl
@[simp] theorem State.draw_pwr : (s.draw.2).pwr = s.pwr := rfl
@[simp] theorem State.draw_link : (s.draw.2).link = s.link := rfl
@[simp] theorem State.draw_acc : (s.draw.2).acc = s.acc := rfl
@[simp] theorem State.draw_rtc : (s.draw.2).rtc = s.rtc := rfl
@[simp] theorem State.draw_otp : (s.draw.2).otp = s.otp := rfl
@[simp] theorem State.draw_flt : (s.draw.2).flt = s.flt := rfl
@[simp] theorem State.draw_up : (s.draw.2).up = s.up := rfl

/-! ### A pigeonhole rewritten -/

@[simp] theorem State.setPgh_tab (s : State) (n : Nat) (p : Pgh) : (s.setPgh n p).pgh = { s.pgh with tab := sset Pgh.free s.pgh.tab n p } := rfl
@[simp] theorem State.setPgh_pending (n : Nat) (p : Pgh) : (s.setPgh n p).pending = s.pending := rfl
@[simp] theorem State.setPgh_now (n : Nat) (p : Pgh) : (s.setPgh n p).now = s.now := rfl
@[simp] theorem State.setPgh_free (n : Nat) (p : Pgh) : (s.setPgh n p).free = s.free := rfl
@[simp] theorem State.setPgh_strap (n : Nat) (p : Pgh) : (s.setPgh n p).strap = s.strap := rfl
@[simp] theorem State.setPgh_mem (n : Nat) (p : Pgh) : (s.setPgh n p).mem = s.mem := rfl
@[simp] theorem State.setPgh_panel (n : Nat) (p : Pgh) : (s.setPgh n p).panel = s.panel := rfl
@[simp] theorem State.setPgh_drills (n : Nat) (p : Pgh) : (s.setPgh n p).drills = s.drills := rfl
@[simp] theorem State.setPgh_scan (n : Nat) (p : Pgh) : (s.setPgh n p).scan = s.scan := rfl
@[simp] theorem State.setPgh_alm (n : Nat) (p : Pgh) : (s.setPgh n p).alm = s.alm := rfl
@[simp] theorem State.setPgh_therm (n : Nat) (p : Pgh) : (s.setPgh n p).therm = s.therm := rfl
@[simp] theorem State.setPgh_ledger (n : Nat) (p : Pgh) : (s.setPgh n p).ledger = s.ledger := rfl
@[simp] theorem State.setPgh_rw (n : Nat) (p : Pgh) : (s.setPgh n p).rw = s.rw := rfl
@[simp] theorem State.setPgh_clock (n : Nat) (p : Pgh) : (s.setPgh n p).clock = s.clock := rfl
@[simp] theorem State.setPgh_tree (n : Nat) (p : Pgh) : (s.setPgh n p).tree = s.tree := rfl
@[simp] theorem State.setPgh_seq (n : Nat) (p : Pgh) : (s.setPgh n p).seq = s.seq := rfl
@[simp] theorem State.setPgh_pwr (n : Nat) (p : Pgh) : (s.setPgh n p).pwr = s.pwr := rfl
@[simp] theorem State.setPgh_link (n : Nat) (p : Pgh) : (s.setPgh n p).link = s.link := rfl
@[simp] theorem State.setPgh_acc (n : Nat) (p : Pgh) : (s.setPgh n p).acc = s.acc := rfl
@[simp] theorem State.setPgh_rtc (n : Nat) (p : Pgh) : (s.setPgh n p).rtc = s.rtc := rfl
@[simp] theorem State.setPgh_otp (n : Nat) (p : Pgh) : (s.setPgh n p).otp = s.otp := rfl
@[simp] theorem State.setPgh_flt (n : Nat) (p : Pgh) : (s.setPgh n p).flt = s.flt := rfl
@[simp] theorem State.setPgh_up (n : Nat) (p : Pgh) : (s.setPgh n p).up = s.up := rfl

/-! ### An auxiliary rail rewritten -/

@[simp] theorem State.modAux_tree (s : State) (n : Nat) (f : Aux → Aux) : (s.modAux n f).tree = { s.tree with aux := vmod s.tree.aux n f } := rfl
@[simp] theorem State.modAux_pending (n : Nat) (f : Aux → Aux) : (s.modAux n f).pending = s.pending := rfl
@[simp] theorem State.modAux_now (n : Nat) (f : Aux → Aux) : (s.modAux n f).now = s.now := rfl
@[simp] theorem State.modAux_free (n : Nat) (f : Aux → Aux) : (s.modAux n f).free = s.free := rfl
@[simp] theorem State.modAux_strap (n : Nat) (f : Aux → Aux) : (s.modAux n f).strap = s.strap := rfl
@[simp] theorem State.modAux_mem (n : Nat) (f : Aux → Aux) : (s.modAux n f).mem = s.mem := rfl
@[simp] theorem State.modAux_panel (n : Nat) (f : Aux → Aux) : (s.modAux n f).panel = s.panel := rfl
@[simp] theorem State.modAux_drills (n : Nat) (f : Aux → Aux) : (s.modAux n f).drills = s.drills := rfl
@[simp] theorem State.modAux_scan (n : Nat) (f : Aux → Aux) : (s.modAux n f).scan = s.scan := rfl
@[simp] theorem State.modAux_alm (n : Nat) (f : Aux → Aux) : (s.modAux n f).alm = s.alm := rfl
@[simp] theorem State.modAux_pgh (n : Nat) (f : Aux → Aux) : (s.modAux n f).pgh = s.pgh := rfl
@[simp] theorem State.modAux_therm (n : Nat) (f : Aux → Aux) : (s.modAux n f).therm = s.therm := rfl
@[simp] theorem State.modAux_ledger (n : Nat) (f : Aux → Aux) : (s.modAux n f).ledger = s.ledger := rfl
@[simp] theorem State.modAux_rw (n : Nat) (f : Aux → Aux) : (s.modAux n f).rw = s.rw := rfl
@[simp] theorem State.modAux_clock (n : Nat) (f : Aux → Aux) : (s.modAux n f).clock = s.clock := rfl
@[simp] theorem State.modAux_seq (n : Nat) (f : Aux → Aux) : (s.modAux n f).seq = s.seq := rfl
@[simp] theorem State.modAux_pwr (n : Nat) (f : Aux → Aux) : (s.modAux n f).pwr = s.pwr := rfl
@[simp] theorem State.modAux_link (n : Nat) (f : Aux → Aux) : (s.modAux n f).link = s.link := rfl
@[simp] theorem State.modAux_acc (n : Nat) (f : Aux → Aux) : (s.modAux n f).acc = s.acc := rfl
@[simp] theorem State.modAux_rtc (n : Nat) (f : Aux → Aux) : (s.modAux n f).rtc = s.rtc := rfl
@[simp] theorem State.modAux_otp (n : Nat) (f : Aux → Aux) : (s.modAux n f).otp = s.otp := rfl
@[simp] theorem State.modAux_flt (n : Nat) (f : Aux → Aux) : (s.modAux n f).flt = s.flt := rfl
@[simp] theorem State.modAux_up (n : Nat) (f : Aux → Aux) : (s.modAux n f).up = s.up := rfl

/-! ### A load switch rewritten -/

@[simp] theorem State.modLsw_tree (s : State) (n : Nat) (f : Lsw → Lsw) : (s.modLsw n f).tree = { s.tree with lsw := vmod s.tree.lsw n f } := rfl
@[simp] theorem State.modLsw_pending (n : Nat) (f : Lsw → Lsw) : (s.modLsw n f).pending = s.pending := rfl
@[simp] theorem State.modLsw_now (n : Nat) (f : Lsw → Lsw) : (s.modLsw n f).now = s.now := rfl
@[simp] theorem State.modLsw_free (n : Nat) (f : Lsw → Lsw) : (s.modLsw n f).free = s.free := rfl
@[simp] theorem State.modLsw_strap (n : Nat) (f : Lsw → Lsw) : (s.modLsw n f).strap = s.strap := rfl
@[simp] theorem State.modLsw_mem (n : Nat) (f : Lsw → Lsw) : (s.modLsw n f).mem = s.mem := rfl
@[simp] theorem State.modLsw_panel (n : Nat) (f : Lsw → Lsw) : (s.modLsw n f).panel = s.panel := rfl
@[simp] theorem State.modLsw_drills (n : Nat) (f : Lsw → Lsw) : (s.modLsw n f).drills = s.drills := rfl
@[simp] theorem State.modLsw_scan (n : Nat) (f : Lsw → Lsw) : (s.modLsw n f).scan = s.scan := rfl
@[simp] theorem State.modLsw_alm (n : Nat) (f : Lsw → Lsw) : (s.modLsw n f).alm = s.alm := rfl
@[simp] theorem State.modLsw_pgh (n : Nat) (f : Lsw → Lsw) : (s.modLsw n f).pgh = s.pgh := rfl
@[simp] theorem State.modLsw_therm (n : Nat) (f : Lsw → Lsw) : (s.modLsw n f).therm = s.therm := rfl
@[simp] theorem State.modLsw_ledger (n : Nat) (f : Lsw → Lsw) : (s.modLsw n f).ledger = s.ledger := rfl
@[simp] theorem State.modLsw_rw (n : Nat) (f : Lsw → Lsw) : (s.modLsw n f).rw = s.rw := rfl
@[simp] theorem State.modLsw_clock (n : Nat) (f : Lsw → Lsw) : (s.modLsw n f).clock = s.clock := rfl
@[simp] theorem State.modLsw_seq (n : Nat) (f : Lsw → Lsw) : (s.modLsw n f).seq = s.seq := rfl
@[simp] theorem State.modLsw_pwr (n : Nat) (f : Lsw → Lsw) : (s.modLsw n f).pwr = s.pwr := rfl
@[simp] theorem State.modLsw_link (n : Nat) (f : Lsw → Lsw) : (s.modLsw n f).link = s.link := rfl
@[simp] theorem State.modLsw_acc (n : Nat) (f : Lsw → Lsw) : (s.modLsw n f).acc = s.acc := rfl
@[simp] theorem State.modLsw_rtc (n : Nat) (f : Lsw → Lsw) : (s.modLsw n f).rtc = s.rtc := rfl
@[simp] theorem State.modLsw_otp (n : Nat) (f : Lsw → Lsw) : (s.modLsw n f).otp = s.otp := rfl
@[simp] theorem State.modLsw_flt (n : Nat) (f : Lsw → Lsw) : (s.modLsw n f).flt = s.flt := rfl
@[simp] theorem State.modLsw_up (n : Nat) (f : Lsw → Lsw) : (s.modLsw n f).up = s.up := rfl

/-! ### A bit of the rail-enable word -/

@[simp] theorem State.setEnable_enable (s : State) (k : Nat) (b : Bool) :
    (s.setEnable k b).seq.enable = Trip.all (setBit s.seq.acted k b) := rfl
@[simp] theorem State.setEnable_acted (s : State) (k : Nat) (b : Bool) : (s.setEnable k b).seq.acted = setBit s.seq.acted k b := rfl
@[simp] theorem State.setEnable_pending (k : Nat) (b : Bool) : (s.setEnable k b).pending = s.pending := rfl
@[simp] theorem State.setEnable_now (k : Nat) (b : Bool) : (s.setEnable k b).now = s.now := rfl
@[simp] theorem State.setEnable_free (k : Nat) (b : Bool) : (s.setEnable k b).free = s.free := rfl
@[simp] theorem State.setEnable_strap (k : Nat) (b : Bool) : (s.setEnable k b).strap = s.strap := rfl
@[simp] theorem State.setEnable_mem (k : Nat) (b : Bool) : (s.setEnable k b).mem = s.mem := rfl
@[simp] theorem State.setEnable_panel (k : Nat) (b : Bool) : (s.setEnable k b).panel = s.panel := rfl
@[simp] theorem State.setEnable_drills (k : Nat) (b : Bool) : (s.setEnable k b).drills = s.drills := rfl
@[simp] theorem State.setEnable_scan (k : Nat) (b : Bool) : (s.setEnable k b).scan = s.scan := rfl
@[simp] theorem State.setEnable_alm (k : Nat) (b : Bool) : (s.setEnable k b).alm = s.alm := rfl
@[simp] theorem State.setEnable_pgh (k : Nat) (b : Bool) : (s.setEnable k b).pgh = s.pgh := rfl
@[simp] theorem State.setEnable_therm (k : Nat) (b : Bool) : (s.setEnable k b).therm = s.therm := rfl
@[simp] theorem State.setEnable_ledger (k : Nat) (b : Bool) : (s.setEnable k b).ledger = s.ledger := rfl
@[simp] theorem State.setEnable_rw (k : Nat) (b : Bool) : (s.setEnable k b).rw = s.rw := rfl
@[simp] theorem State.setEnable_clock (k : Nat) (b : Bool) : (s.setEnable k b).clock = s.clock := rfl
@[simp] theorem State.setEnable_tree (k : Nat) (b : Bool) : (s.setEnable k b).tree = s.tree := rfl
@[simp] theorem State.setEnable_pwr (k : Nat) (b : Bool) : (s.setEnable k b).pwr = s.pwr := rfl
@[simp] theorem State.setEnable_link (k : Nat) (b : Bool) : (s.setEnable k b).link = s.link := rfl
@[simp] theorem State.setEnable_acc (k : Nat) (b : Bool) : (s.setEnable k b).acc = s.acc := rfl
@[simp] theorem State.setEnable_rtc (k : Nat) (b : Bool) : (s.setEnable k b).rtc = s.rtc := rfl
@[simp] theorem State.setEnable_otp (k : Nat) (b : Bool) : (s.setEnable k b).otp = s.otp := rfl
@[simp] theorem State.setEnable_flt (k : Nat) (b : Bool) : (s.setEnable k b).flt = s.flt := rfl
@[simp] theorem State.setEnable_up (k : Nat) (b : Bool) : (s.setEnable k b).up = s.up := rfl

/-! ### A cause of a start-up -/

@[simp] theorem State.addCause_causes (s : State) (b : Nat) : (s.addCause b).rtc.causes = setBit s.rtc.causes b true := rfl
@[simp] theorem State.addCause_pending (b : Nat) : (s.addCause b).pending = s.pending := rfl
@[simp] theorem State.addCause_now (b : Nat) : (s.addCause b).now = s.now := rfl
@[simp] theorem State.addCause_free (b : Nat) : (s.addCause b).free = s.free := rfl
@[simp] theorem State.addCause_strap (b : Nat) : (s.addCause b).strap = s.strap := rfl
@[simp] theorem State.addCause_mem (b : Nat) : (s.addCause b).mem = s.mem := rfl
@[simp] theorem State.addCause_panel (b : Nat) : (s.addCause b).panel = s.panel := rfl
@[simp] theorem State.addCause_drills (b : Nat) : (s.addCause b).drills = s.drills := rfl
@[simp] theorem State.addCause_scan (b : Nat) : (s.addCause b).scan = s.scan := rfl
@[simp] theorem State.addCause_alm (b : Nat) : (s.addCause b).alm = s.alm := rfl
@[simp] theorem State.addCause_pgh (b : Nat) : (s.addCause b).pgh = s.pgh := rfl
@[simp] theorem State.addCause_therm (b : Nat) : (s.addCause b).therm = s.therm := rfl
@[simp] theorem State.addCause_ledger (b : Nat) : (s.addCause b).ledger = s.ledger := rfl
@[simp] theorem State.addCause_rw (b : Nat) : (s.addCause b).rw = s.rw := rfl
@[simp] theorem State.addCause_clock (b : Nat) : (s.addCause b).clock = s.clock := rfl
@[simp] theorem State.addCause_tree (b : Nat) : (s.addCause b).tree = s.tree := rfl
@[simp] theorem State.addCause_seq (b : Nat) : (s.addCause b).seq = s.seq := rfl
@[simp] theorem State.addCause_pwr (b : Nat) : (s.addCause b).pwr = s.pwr := rfl
@[simp] theorem State.addCause_link (b : Nat) : (s.addCause b).link = s.link := rfl
@[simp] theorem State.addCause_acc (b : Nat) : (s.addCause b).acc = s.acc := rfl
@[simp] theorem State.addCause_otp (b : Nat) : (s.addCause b).otp = s.otp := rfl
@[simp] theorem State.addCause_flt (b : Nat) : (s.addCause b).flt = s.flt := rfl
@[simp] theorem State.addCause_up (b : Nat) : (s.addCause b).up = s.up := rfl

/-! ### `PWR_MATCH` copied -/

@[simp] theorem State.copyMatch_armed (s : State) : s.copyMatch.rtc.armed = true := rfl
@[simp] theorem State.copyMatch_pending : (s.copyMatch).pending = s.pending := rfl
@[simp] theorem State.copyMatch_now : (s.copyMatch).now = s.now := rfl
@[simp] theorem State.copyMatch_free : (s.copyMatch).free = s.free := rfl
@[simp] theorem State.copyMatch_strap : (s.copyMatch).strap = s.strap := rfl
@[simp] theorem State.copyMatch_mem : (s.copyMatch).mem = s.mem := rfl
@[simp] theorem State.copyMatch_panel : (s.copyMatch).panel = s.panel := rfl
@[simp] theorem State.copyMatch_drills : (s.copyMatch).drills = s.drills := rfl
@[simp] theorem State.copyMatch_scan : (s.copyMatch).scan = s.scan := rfl
@[simp] theorem State.copyMatch_alm : (s.copyMatch).alm = s.alm := rfl
@[simp] theorem State.copyMatch_pgh : (s.copyMatch).pgh = s.pgh := rfl
@[simp] theorem State.copyMatch_therm : (s.copyMatch).therm = s.therm := rfl
@[simp] theorem State.copyMatch_ledger : (s.copyMatch).ledger = s.ledger := rfl
@[simp] theorem State.copyMatch_rw : (s.copyMatch).rw = s.rw := rfl
@[simp] theorem State.copyMatch_clock : (s.copyMatch).clock = s.clock := rfl
@[simp] theorem State.copyMatch_tree : (s.copyMatch).tree = s.tree := rfl
@[simp] theorem State.copyMatch_seq : (s.copyMatch).seq = s.seq := rfl
@[simp] theorem State.copyMatch_link : (s.copyMatch).link = s.link := rfl
@[simp] theorem State.copyMatch_acc : (s.copyMatch).acc = s.acc := rfl
@[simp] theorem State.copyMatch_otp : (s.copyMatch).otp = s.otp := rfl
@[simp] theorem State.copyMatch_flt : (s.copyMatch).flt = s.flt := rfl
@[simp] theorem State.copyMatch_up : (s.copyMatch).up = s.up := rfl

/-! ### A step of a rail-up -/

@[simp] theorem State.startUpStep_railStep (s : State) (k : Nat) : (s.startUpStep k).seq.railStep = k := rfl
@[simp] theorem State.startUpStep_rising (s : State) (k : Nat) : (s.startUpStep k).seq.rising = true := rfl
@[simp] theorem State.startUpStep_pending (k : Nat) : (s.startUpStep k).pending = s.pending := rfl
@[simp] theorem State.startUpStep_now (k : Nat) : (s.startUpStep k).now = s.now := rfl
@[simp] theorem State.startUpStep_free (k : Nat) : (s.startUpStep k).free = s.free := rfl
@[simp] theorem State.startUpStep_strap (k : Nat) : (s.startUpStep k).strap = s.strap := rfl
@[simp] theorem State.startUpStep_mem (k : Nat) : (s.startUpStep k).mem = s.mem := rfl
@[simp] theorem State.startUpStep_panel (k : Nat) : (s.startUpStep k).panel = s.panel := rfl
@[simp] theorem State.startUpStep_drills (k : Nat) : (s.startUpStep k).drills = s.drills := rfl
@[simp] theorem State.startUpStep_scan (k : Nat) : (s.startUpStep k).scan = s.scan := rfl
@[simp] theorem State.startUpStep_alm (k : Nat) : (s.startUpStep k).alm = s.alm := rfl
@[simp] theorem State.startUpStep_pgh (k : Nat) : (s.startUpStep k).pgh = s.pgh := rfl
@[simp] theorem State.startUpStep_therm (k : Nat) : (s.startUpStep k).therm = s.therm := rfl
@[simp] theorem State.startUpStep_ledger (k : Nat) : (s.startUpStep k).ledger = s.ledger := rfl
@[simp] theorem State.startUpStep_rw (k : Nat) : (s.startUpStep k).rw = s.rw := rfl
@[simp] theorem State.startUpStep_clock (k : Nat) : (s.startUpStep k).clock = s.clock := rfl
@[simp] theorem State.startUpStep_pwr (k : Nat) : (s.startUpStep k).pwr = s.pwr := rfl
@[simp] theorem State.startUpStep_link (k : Nat) : (s.startUpStep k).link = s.link := rfl
@[simp] theorem State.startUpStep_acc (k : Nat) : (s.startUpStep k).acc = s.acc := rfl
@[simp] theorem State.startUpStep_rtc (k : Nat) : (s.startUpStep k).rtc = s.rtc := rfl
@[simp] theorem State.startUpStep_otp (k : Nat) : (s.startUpStep k).otp = s.otp := rfl
@[simp] theorem State.startUpStep_flt (k : Nat) : (s.startUpStep k).flt = s.flt := rfl
@[simp] theorem State.startUpStep_up (k : Nat) : (s.startUpStep k).up = s.up := rfl

/-! ### A rail's drop -/

@[simp] theorem State.startDrop_railStep (s : State) (k : Nat) : (s.startDrop k).seq.railStep = k := rfl
@[simp] theorem State.startDrop_rising (s : State) (k : Nat) : (s.startDrop k).seq.rising = false := rfl
@[simp] theorem State.startDrop_pending (k : Nat) : (s.startDrop k).pending = s.pending := rfl
@[simp] theorem State.startDrop_now (k : Nat) : (s.startDrop k).now = s.now := rfl
@[simp] theorem State.startDrop_free (k : Nat) : (s.startDrop k).free = s.free := rfl
@[simp] theorem State.startDrop_strap (k : Nat) : (s.startDrop k).strap = s.strap := rfl
@[simp] theorem State.startDrop_mem (k : Nat) : (s.startDrop k).mem = s.mem := rfl
@[simp] theorem State.startDrop_drills (k : Nat) : (s.startDrop k).drills = s.drills := rfl
@[simp] theorem State.startDrop_scan (k : Nat) : (s.startDrop k).scan = s.scan := rfl
@[simp] theorem State.startDrop_alm (k : Nat) : (s.startDrop k).alm = s.alm := rfl
@[simp] theorem State.startDrop_pgh (k : Nat) : (s.startDrop k).pgh = s.pgh := rfl
@[simp] theorem State.startDrop_ledger (k : Nat) : (s.startDrop k).ledger = s.ledger := rfl
@[simp] theorem State.startDrop_rw (k : Nat) : (s.startDrop k).rw = s.rw := rfl
@[simp] theorem State.startDrop_clock (k : Nat) : (s.startDrop k).clock = s.clock := rfl
@[simp] theorem State.startDrop_pwr (k : Nat) : (s.startDrop k).pwr = s.pwr := rfl
@[simp] theorem State.startDrop_link (k : Nat) : (s.startDrop k).link = s.link := rfl
@[simp] theorem State.startDrop_acc (k : Nat) : (s.startDrop k).acc = s.acc := rfl
@[simp] theorem State.startDrop_rtc (k : Nat) : (s.startDrop k).rtc = s.rtc := rfl
@[simp] theorem State.startDrop_otp (k : Nat) : (s.startDrop k).otp = s.otp := rfl
@[simp] theorem State.startDrop_flt (k : Nat) : (s.startDrop k).flt = s.flt := rfl
@[simp] theorem State.startDrop_up (k : Nat) : (s.startDrop k).up = s.up := rfl

/-! ### A frame on RPTX -/

@[simp] theorem State.sendFrame_sent (s : State) (f : PortFrame) : (s.sendFrame f).rw.sent = s.rw.sent ++ [f] := rfl
@[simp] theorem State.sendFrame_pending (f : PortFrame) : (s.sendFrame f).pending = s.pending := rfl
@[simp] theorem State.sendFrame_now (f : PortFrame) : (s.sendFrame f).now = s.now := rfl
@[simp] theorem State.sendFrame_free (f : PortFrame) : (s.sendFrame f).free = s.free := rfl
@[simp] theorem State.sendFrame_strap (f : PortFrame) : (s.sendFrame f).strap = s.strap := rfl
@[simp] theorem State.sendFrame_mem (f : PortFrame) : (s.sendFrame f).mem = s.mem := rfl
@[simp] theorem State.sendFrame_panel (f : PortFrame) : (s.sendFrame f).panel = s.panel := rfl
@[simp] theorem State.sendFrame_drills (f : PortFrame) : (s.sendFrame f).drills = s.drills := rfl
@[simp] theorem State.sendFrame_scan (f : PortFrame) : (s.sendFrame f).scan = s.scan := rfl
@[simp] theorem State.sendFrame_alm (f : PortFrame) : (s.sendFrame f).alm = s.alm := rfl
@[simp] theorem State.sendFrame_pgh (f : PortFrame) : (s.sendFrame f).pgh = s.pgh := rfl
@[simp] theorem State.sendFrame_therm (f : PortFrame) : (s.sendFrame f).therm = s.therm := rfl
@[simp] theorem State.sendFrame_ledger (f : PortFrame) : (s.sendFrame f).ledger = s.ledger := rfl
@[simp] theorem State.sendFrame_clock (f : PortFrame) : (s.sendFrame f).clock = s.clock := rfl
@[simp] theorem State.sendFrame_tree (f : PortFrame) : (s.sendFrame f).tree = s.tree := rfl
@[simp] theorem State.sendFrame_seq (f : PortFrame) : (s.sendFrame f).seq = s.seq := rfl
@[simp] theorem State.sendFrame_pwr (f : PortFrame) : (s.sendFrame f).pwr = s.pwr := rfl
@[simp] theorem State.sendFrame_link (f : PortFrame) : (s.sendFrame f).link = s.link := rfl
@[simp] theorem State.sendFrame_acc (f : PortFrame) : (s.sendFrame f).acc = s.acc := rfl
@[simp] theorem State.sendFrame_rtc (f : PortFrame) : (s.sendFrame f).rtc = s.rtc := rfl
@[simp] theorem State.sendFrame_otp (f : PortFrame) : (s.sendFrame f).otp = s.otp := rfl
@[simp] theorem State.sendFrame_flt (f : PortFrame) : (s.sendFrame f).flt = s.flt := rfl
@[simp] theorem State.sendFrame_up (f : PortFrame) : (s.sendFrame f).up = s.up := rfl

/-! ### A record abandoned -/

@[simp] theorem State.abandonRecord_pending : (s.abandonRecord).pending = s.pending := rfl
@[simp] theorem State.abandonRecord_now : (s.abandonRecord).now = s.now := rfl
@[simp] theorem State.abandonRecord_free : (s.abandonRecord).free = s.free := rfl
@[simp] theorem State.abandonRecord_strap : (s.abandonRecord).strap = s.strap := rfl
@[simp] theorem State.abandonRecord_mem : (s.abandonRecord).mem = s.mem := rfl
@[simp] theorem State.abandonRecord_panel : (s.abandonRecord).panel = s.panel := rfl
@[simp] theorem State.abandonRecord_drills : (s.abandonRecord).drills = s.drills := rfl
@[simp] theorem State.abandonRecord_scan : (s.abandonRecord).scan = s.scan := rfl
@[simp] theorem State.abandonRecord_alm : (s.abandonRecord).alm = s.alm := rfl
@[simp] theorem State.abandonRecord_pgh : (s.abandonRecord).pgh = s.pgh := rfl
@[simp] theorem State.abandonRecord_therm : (s.abandonRecord).therm = s.therm := rfl
@[simp] theorem State.abandonRecord_ledger : (s.abandonRecord).ledger = s.ledger := rfl
@[simp] theorem State.abandonRecord_clock : (s.abandonRecord).clock = s.clock := rfl
@[simp] theorem State.abandonRecord_tree : (s.abandonRecord).tree = s.tree := rfl
@[simp] theorem State.abandonRecord_seq : (s.abandonRecord).seq = s.seq := rfl
@[simp] theorem State.abandonRecord_pwr : (s.abandonRecord).pwr = s.pwr := rfl
@[simp] theorem State.abandonRecord_link : (s.abandonRecord).link = s.link := rfl
@[simp] theorem State.abandonRecord_rtc : (s.abandonRecord).rtc = s.rtc := rfl
@[simp] theorem State.abandonRecord_otp : (s.abandonRecord).otp = s.otp := rfl
@[simp] theorem State.abandonRecord_flt : (s.abandonRecord).flt = s.flt := rfl
@[simp] theorem State.abandonRecord_up : (s.abandonRecord).up = s.up := rfl

/-! ### The charger -/

@[simp] theorem State.chargeFollow_rtc (s : State) :
    s.chargeFollow.rtc = { s.rtc with charging := s.chargerOn && (!s.rtc.full || s.nimh) } := rfl
@[simp] theorem State.chargeFollow_pending : (s.chargeFollow).pending = s.pending := rfl
@[simp] theorem State.chargeFollow_now : (s.chargeFollow).now = s.now := rfl
@[simp] theorem State.chargeFollow_free : (s.chargeFollow).free = s.free := rfl
@[simp] theorem State.chargeFollow_strap : (s.chargeFollow).strap = s.strap := rfl
@[simp] theorem State.chargeFollow_mem : (s.chargeFollow).mem = s.mem := rfl
@[simp] theorem State.chargeFollow_panel : (s.chargeFollow).panel = s.panel := rfl
@[simp] theorem State.chargeFollow_drills : (s.chargeFollow).drills = s.drills := rfl
@[simp] theorem State.chargeFollow_scan : (s.chargeFollow).scan = s.scan := rfl
@[simp] theorem State.chargeFollow_alm : (s.chargeFollow).alm = s.alm := rfl
@[simp] theorem State.chargeFollow_pgh : (s.chargeFollow).pgh = s.pgh := rfl
@[simp] theorem State.chargeFollow_therm : (s.chargeFollow).therm = s.therm := rfl
@[simp] theorem State.chargeFollow_ledger : (s.chargeFollow).ledger = s.ledger := rfl
@[simp] theorem State.chargeFollow_rw : (s.chargeFollow).rw = s.rw := rfl
@[simp] theorem State.chargeFollow_clock : (s.chargeFollow).clock = s.clock := rfl
@[simp] theorem State.chargeFollow_tree : (s.chargeFollow).tree = s.tree := rfl
@[simp] theorem State.chargeFollow_seq : (s.chargeFollow).seq = s.seq := rfl
@[simp] theorem State.chargeFollow_pwr : (s.chargeFollow).pwr = s.pwr := rfl
@[simp] theorem State.chargeFollow_link : (s.chargeFollow).link = s.link := rfl
@[simp] theorem State.chargeFollow_acc : (s.chargeFollow).acc = s.acc := rfl
@[simp] theorem State.chargeFollow_otp : (s.chargeFollow).otp = s.otp := rfl
@[simp] theorem State.chargeFollow_flt : (s.chargeFollow).flt = s.flt := rfl
@[simp] theorem State.chargeFollow_up : (s.chargeFollow).up = s.up := rfl

/-! ### The wake-race counts -/

@[simp] theorem State.countRace_pending (a b : Nat) : (s.countRace a b).pending = s.pending := rfl
@[simp] theorem State.countRace_now (a b : Nat) : (s.countRace a b).now = s.now := rfl
@[simp] theorem State.countRace_free (a b : Nat) : (s.countRace a b).free = s.free := rfl
@[simp] theorem State.countRace_strap (a b : Nat) : (s.countRace a b).strap = s.strap := rfl
@[simp] theorem State.countRace_mem (a b : Nat) : (s.countRace a b).mem = s.mem := rfl
@[simp] theorem State.countRace_panel (a b : Nat) : (s.countRace a b).panel = s.panel := rfl
@[simp] theorem State.countRace_drills (a b : Nat) : (s.countRace a b).drills = s.drills := rfl
@[simp] theorem State.countRace_scan (a b : Nat) : (s.countRace a b).scan = s.scan := rfl
@[simp] theorem State.countRace_alm (a b : Nat) : (s.countRace a b).alm = s.alm := rfl
@[simp] theorem State.countRace_pgh (a b : Nat) : (s.countRace a b).pgh = s.pgh := rfl
@[simp] theorem State.countRace_therm (a b : Nat) : (s.countRace a b).therm = s.therm := rfl
@[simp] theorem State.countRace_ledger (a b : Nat) : (s.countRace a b).ledger = s.ledger := rfl
@[simp] theorem State.countRace_rw (a b : Nat) : (s.countRace a b).rw = s.rw := rfl
@[simp] theorem State.countRace_clock (a b : Nat) : (s.countRace a b).clock = s.clock := rfl
@[simp] theorem State.countRace_tree (a b : Nat) : (s.countRace a b).tree = s.tree := rfl
@[simp] theorem State.countRace_seq (a b : Nat) : (s.countRace a b).seq = s.seq := rfl
@[simp] theorem State.countRace_link (a b : Nat) : (s.countRace a b).link = s.link := rfl
@[simp] theorem State.countRace_acc (a b : Nat) : (s.countRace a b).acc = s.acc := rfl
@[simp] theorem State.countRace_rtc (a b : Nat) : (s.countRace a b).rtc = s.rtc := rfl
@[simp] theorem State.countRace_otp (a b : Nat) : (s.countRace a b).otp = s.otp := rfl
@[simp] theorem State.countRace_flt (a b : Nat) : (s.countRace a b).flt = s.flt := rfl
@[simp] theorem State.countRace_up (a b : Nat) : (s.countRace a b).up = s.up := rfl

/-! ### The front light off -/

@[simp] theorem State.lightsOff_pending : (s.lightsOff).pending = s.pending := rfl
@[simp] theorem State.lightsOff_now : (s.lightsOff).now = s.now := rfl
@[simp] theorem State.lightsOff_free : (s.lightsOff).free = s.free := rfl
@[simp] theorem State.lightsOff_strap : (s.lightsOff).strap = s.strap := rfl
@[simp] theorem State.lightsOff_mem : (s.lightsOff).mem = s.mem := rfl
@[simp] theorem State.lightsOff_panel : (s.lightsOff).panel = s.panel := rfl
@[simp] theorem State.lightsOff_drills : (s.lightsOff).drills = s.drills := rfl
@[simp] theorem State.lightsOff_scan : (s.lightsOff).scan = s.scan := rfl
@[simp] theorem State.lightsOff_alm : (s.lightsOff).alm = s.alm := rfl
@[simp] theorem State.lightsOff_pgh : (s.lightsOff).pgh = s.pgh := rfl
@[simp] theorem State.lightsOff_therm : (s.lightsOff).therm = s.therm := rfl
@[simp] theorem State.lightsOff_ledger : (s.lightsOff).ledger = s.ledger := rfl
@[simp] theorem State.lightsOff_rw : (s.lightsOff).rw = s.rw := rfl
@[simp] theorem State.lightsOff_clock : (s.lightsOff).clock = s.clock := rfl
@[simp] theorem State.lightsOff_seq : (s.lightsOff).seq = s.seq := rfl
@[simp] theorem State.lightsOff_pwr : (s.lightsOff).pwr = s.pwr := rfl
@[simp] theorem State.lightsOff_link : (s.lightsOff).link = s.link := rfl
@[simp] theorem State.lightsOff_acc : (s.lightsOff).acc = s.acc := rfl
@[simp] theorem State.lightsOff_rtc : (s.lightsOff).rtc = s.rtc := rfl
@[simp] theorem State.lightsOff_otp : (s.lightsOff).otp = s.otp := rfl
@[simp] theorem State.lightsOff_flt : (s.lightsOff).flt = s.flt := rfl
@[simp] theorem State.lightsOff_up : (s.lightsOff).up = s.up := rfl

/-! ### The phase shown -/

@[simp] theorem State.showPhase_pending (p : SeqPhase) : (s.showPhase p).pending = s.pending := by
  unfold State.showPhase; split <;> rfl
@[simp] theorem State.showPhase_now (p : SeqPhase) : (s.showPhase p).now = s.now := by
  unfold State.showPhase; split <;> rfl
@[simp] theorem State.showPhase_free (p : SeqPhase) : (s.showPhase p).free = s.free := by
  unfold State.showPhase; split <;> rfl
@[simp] theorem State.showPhase_strap (p : SeqPhase) : (s.showPhase p).strap = s.strap := by
  unfold State.showPhase; split <;> rfl
@[simp] theorem State.showPhase_mem (p : SeqPhase) : (s.showPhase p).mem = s.mem := by
  unfold State.showPhase; split <;> rfl
@[simp] theorem State.showPhase_panel (p : SeqPhase) : (s.showPhase p).panel = s.panel := by
  unfold State.showPhase; split <;> rfl
@[simp] theorem State.showPhase_drills (p : SeqPhase) : (s.showPhase p).drills = s.drills := by
  unfold State.showPhase; split <;> rfl
@[simp] theorem State.showPhase_scan (p : SeqPhase) : (s.showPhase p).scan = s.scan := by
  unfold State.showPhase; split <;> rfl
@[simp] theorem State.showPhase_alm (p : SeqPhase) : (s.showPhase p).alm = s.alm := by
  unfold State.showPhase; split <;> rfl
@[simp] theorem State.showPhase_pgh (p : SeqPhase) : (s.showPhase p).pgh = s.pgh := by
  unfold State.showPhase; split <;> rfl
@[simp] theorem State.showPhase_therm (p : SeqPhase) : (s.showPhase p).therm = s.therm := by
  unfold State.showPhase; split <;> rfl
@[simp] theorem State.showPhase_ledger (p : SeqPhase) : (s.showPhase p).ledger = s.ledger := by
  unfold State.showPhase; split <;> rfl
@[simp] theorem State.showPhase_rw (p : SeqPhase) : (s.showPhase p).rw = s.rw := by
  unfold State.showPhase; split <;> rfl
@[simp] theorem State.showPhase_clock (p : SeqPhase) : (s.showPhase p).clock = s.clock := by
  unfold State.showPhase; split <;> rfl
@[simp] theorem State.showPhase_tree (p : SeqPhase) : (s.showPhase p).tree = s.tree := by
  unfold State.showPhase; split <;> rfl
@[simp] theorem State.showPhase_pwr (p : SeqPhase) : (s.showPhase p).pwr = s.pwr := by
  unfold State.showPhase; split <;> rfl
@[simp] theorem State.showPhase_link (p : SeqPhase) : (s.showPhase p).link = s.link := by
  unfold State.showPhase; split <;> rfl
@[simp] theorem State.showPhase_acc (p : SeqPhase) : (s.showPhase p).acc = s.acc := by
  unfold State.showPhase; split <;> rfl
@[simp] theorem State.showPhase_rtc (p : SeqPhase) : (s.showPhase p).rtc = s.rtc := by
  unfold State.showPhase; split <;> rfl
@[simp] theorem State.showPhase_otp (p : SeqPhase) : (s.showPhase p).otp = s.otp := by
  unfold State.showPhase; split <;> rfl
@[simp] theorem State.showPhase_flt (p : SeqPhase) : (s.showPhase p).flt = s.flt := by
  unfold State.showPhase; split <;> rfl
@[simp] theorem State.showPhase_up (p : SeqPhase) : (s.showPhase p).up = s.up := by
  unfold State.showPhase; split <;> rfl

/-! ### The first supervisor event -/

@[simp] theorem State.supFirst_pending (a b : Nat) : (s.supFirst a b).pending = s.pending := by
  unfold State.supFirst; split <;> rfl
@[simp] theorem State.supFirst_now (a b : Nat) : (s.supFirst a b).now = s.now := by
  unfold State.supFirst; split <;> rfl
@[simp] theorem State.supFirst_free (a b : Nat) : (s.supFirst a b).free = s.free := by
  unfold State.supFirst; split <;> rfl
@[simp] theorem State.supFirst_strap (a b : Nat) : (s.supFirst a b).strap = s.strap := by
  unfold State.supFirst; split <;> rfl
@[simp] theorem State.supFirst_mem (a b : Nat) : (s.supFirst a b).mem = s.mem := by
  unfold State.supFirst; split <;> rfl
@[simp] theorem State.supFirst_panel (a b : Nat) : (s.supFirst a b).panel = s.panel := by
  unfold State.supFirst; split <;> rfl
@[simp] theorem State.supFirst_drills (a b : Nat) : (s.supFirst a b).drills = s.drills := by
  unfold State.supFirst; split <;> rfl
@[simp] theorem State.supFirst_scan (a b : Nat) : (s.supFirst a b).scan = s.scan := by
  unfold State.supFirst; split <;> rfl
@[simp] theorem State.supFirst_alm (a b : Nat) : (s.supFirst a b).alm = s.alm := by
  unfold State.supFirst; split <;> rfl
@[simp] theorem State.supFirst_pgh (a b : Nat) : (s.supFirst a b).pgh = s.pgh := by
  unfold State.supFirst; split <;> rfl
@[simp] theorem State.supFirst_therm (a b : Nat) : (s.supFirst a b).therm = s.therm := by
  unfold State.supFirst; split <;> rfl
@[simp] theorem State.supFirst_ledger (a b : Nat) : (s.supFirst a b).ledger = s.ledger := by
  unfold State.supFirst; split <;> rfl
@[simp] theorem State.supFirst_rw (a b : Nat) : (s.supFirst a b).rw = s.rw := by
  unfold State.supFirst; split <;> rfl
@[simp] theorem State.supFirst_clock (a b : Nat) : (s.supFirst a b).clock = s.clock := by
  unfold State.supFirst; split <;> rfl
@[simp] theorem State.supFirst_tree (a b : Nat) : (s.supFirst a b).tree = s.tree := by
  unfold State.supFirst; split <;> rfl
@[simp] theorem State.supFirst_pwr (a b : Nat) : (s.supFirst a b).pwr = s.pwr := by
  unfold State.supFirst; split <;> rfl
@[simp] theorem State.supFirst_link (a b : Nat) : (s.supFirst a b).link = s.link := by
  unfold State.supFirst; split <;> rfl
@[simp] theorem State.supFirst_rtc (a b : Nat) : (s.supFirst a b).rtc = s.rtc := by
  unfold State.supFirst; split <;> rfl
@[simp] theorem State.supFirst_otp (a b : Nat) : (s.supFirst a b).otp = s.otp := by
  unfold State.supFirst; split <;> rfl
@[simp] theorem State.supFirst_flt (a b : Nat) : (s.supFirst a b).flt = s.flt := by
  unfold State.supFirst; split <;> rfl
@[simp] theorem State.supFirst_up (a b : Nat) : (s.supFirst a b).up = s.up := by
  unfold State.supFirst; split <;> rfl

/-! ### A sticky bit written -/

@[simp] theorem State.stickyWrite_pending (n : Nat) (b : Bool) : (s.stickyWrite n b).pending = s.pending := by
  unfold State.stickyWrite; repeat (first | rfl | split)
@[simp] theorem State.stickyWrite_now (n : Nat) (b : Bool) : (s.stickyWrite n b).now = s.now := by
  unfold State.stickyWrite; repeat (first | rfl | split)
@[simp] theorem State.stickyWrite_free (n : Nat) (b : Bool) : (s.stickyWrite n b).free = s.free := by
  unfold State.stickyWrite; repeat (first | rfl | split)
@[simp] theorem State.stickyWrite_strap (n : Nat) (b : Bool) : (s.stickyWrite n b).strap = s.strap := by
  unfold State.stickyWrite; repeat (first | rfl | split)
@[simp] theorem State.stickyWrite_mem (n : Nat) (b : Bool) : (s.stickyWrite n b).mem = s.mem := by
  unfold State.stickyWrite; repeat (first | rfl | split)
@[simp] theorem State.stickyWrite_panel (n : Nat) (b : Bool) : (s.stickyWrite n b).panel = s.panel := by
  unfold State.stickyWrite; repeat (first | rfl | split)
@[simp] theorem State.stickyWrite_drills (n : Nat) (b : Bool) : (s.stickyWrite n b).drills = s.drills := by
  unfold State.stickyWrite; repeat (first | rfl | split)
@[simp] theorem State.stickyWrite_scan (n : Nat) (b : Bool) : (s.stickyWrite n b).scan = s.scan := by
  unfold State.stickyWrite; repeat (first | rfl | split)
@[simp] theorem State.stickyWrite_alm (n : Nat) (b : Bool) : (s.stickyWrite n b).alm = s.alm := by
  unfold State.stickyWrite; repeat (first | rfl | split)
@[simp] theorem State.stickyWrite_pgh (n : Nat) (b : Bool) : (s.stickyWrite n b).pgh = s.pgh := by
  unfold State.stickyWrite; repeat (first | rfl | split)
@[simp] theorem State.stickyWrite_therm (n : Nat) (b : Bool) : (s.stickyWrite n b).therm = s.therm := by
  unfold State.stickyWrite; repeat (first | rfl | split)
@[simp] theorem State.stickyWrite_ledger (n : Nat) (b : Bool) : (s.stickyWrite n b).ledger = s.ledger := by
  unfold State.stickyWrite; repeat (first | rfl | split)
@[simp] theorem State.stickyWrite_rw (n : Nat) (b : Bool) : (s.stickyWrite n b).rw = s.rw := by
  unfold State.stickyWrite; repeat (first | rfl | split)
@[simp] theorem State.stickyWrite_clock (n : Nat) (b : Bool) : (s.stickyWrite n b).clock = s.clock := by
  unfold State.stickyWrite; repeat (first | rfl | split)
@[simp] theorem State.stickyWrite_tree (n : Nat) (b : Bool) : (s.stickyWrite n b).tree = s.tree := by
  unfold State.stickyWrite; repeat (first | rfl | split)
@[simp] theorem State.stickyWrite_seq (n : Nat) (b : Bool) : (s.stickyWrite n b).seq = s.seq := by
  unfold State.stickyWrite; repeat (first | rfl | split)
@[simp] theorem State.stickyWrite_pwr (n : Nat) (b : Bool) : (s.stickyWrite n b).pwr = s.pwr := by
  unfold State.stickyWrite; repeat (first | rfl | split)
@[simp] theorem State.stickyWrite_link (n : Nat) (b : Bool) : (s.stickyWrite n b).link = s.link := by
  unfold State.stickyWrite; repeat (first | rfl | split)
@[simp] theorem State.stickyWrite_acc (n : Nat) (b : Bool) : (s.stickyWrite n b).acc = s.acc := by
  unfold State.stickyWrite; repeat (first | rfl | split)
@[simp] theorem State.stickyWrite_otp (n : Nat) (b : Bool) : (s.stickyWrite n b).otp = s.otp := by
  unfold State.stickyWrite; repeat (first | rfl | split)
@[simp] theorem State.stickyWrite_up (n : Nat) (b : Bool) : (s.stickyWrite n b).up = s.up := by
  unfold State.stickyWrite; repeat (first | rfl | split)

/-! ### The end of an entry marked -/

@[simp] theorem State.markState_pending : (s.markState).pending = s.pending := by
  unfold State.markState; split <;> rfl
@[simp] theorem State.markState_now : (s.markState).now = s.now := by
  unfold State.markState; split <;> rfl
@[simp] theorem State.markState_free : (s.markState).free = s.free := by
  unfold State.markState; split <;> rfl
@[simp] theorem State.markState_strap : (s.markState).strap = s.strap := by
  unfold State.markState; split <;> rfl
@[simp] theorem State.markState_mem : (s.markState).mem = s.mem := by
  unfold State.markState; split <;> rfl
@[simp] theorem State.markState_panel : (s.markState).panel = s.panel := by
  unfold State.markState; split <;> rfl
@[simp] theorem State.markState_drills : (s.markState).drills = s.drills := by
  unfold State.markState; split <;> rfl
@[simp] theorem State.markState_scan : (s.markState).scan = s.scan := by
  unfold State.markState; split <;> rfl
@[simp] theorem State.markState_alm : (s.markState).alm = s.alm := by
  unfold State.markState; split <;> rfl
@[simp] theorem State.markState_pgh : (s.markState).pgh = s.pgh := by
  unfold State.markState; split <;> rfl
@[simp] theorem State.markState_therm : (s.markState).therm = s.therm := by
  unfold State.markState; split <;> rfl
@[simp] theorem State.markState_ledger : (s.markState).ledger = s.ledger := by
  unfold State.markState; split <;> rfl
@[simp] theorem State.markState_rw : (s.markState).rw = s.rw := by
  unfold State.markState; split <;> rfl
@[simp] theorem State.markState_clock : (s.markState).clock = s.clock := by
  unfold State.markState; split <;> rfl
@[simp] theorem State.markState_tree : (s.markState).tree = s.tree := by
  unfold State.markState; split <;> rfl
@[simp] theorem State.markState_seq : (s.markState).seq = s.seq := by
  unfold State.markState; split <;> rfl
@[simp] theorem State.markState_pwr : (s.markState).pwr = s.pwr := by
  unfold State.markState; split <;> rfl
@[simp] theorem State.markState_rtc : (s.markState).rtc = s.rtc := by
  unfold State.markState; split <;> rfl
@[simp] theorem State.markState_otp : (s.markState).otp = s.otp := by
  unfold State.markState; split <;> rfl
@[simp] theorem State.markState_flt : (s.markState).flt = s.flt := by
  unfold State.markState; split <;> rfl
@[simp] theorem State.markState_up : (s.markState).up = s.up := by
  unfold State.markState; split <;> rfl

/-! ### A return begun -/

@[simp] theorem State.beginReturn_pending (b : Bool) : (s.beginReturn b).pending = s.pending := rfl
@[simp] theorem State.beginReturn_now (b : Bool) : (s.beginReturn b).now = s.now := rfl
@[simp] theorem State.beginReturn_free (b : Bool) : (s.beginReturn b).free = s.free := rfl
@[simp] theorem State.beginReturn_strap (b : Bool) : (s.beginReturn b).strap = s.strap := rfl
@[simp] theorem State.beginReturn_mem (b : Bool) : (s.beginReturn b).mem = s.mem := rfl
@[simp] theorem State.beginReturn_panel (b : Bool) : (s.beginReturn b).panel = s.panel := rfl
@[simp] theorem State.beginReturn_drills (b : Bool) : (s.beginReturn b).drills = s.drills := rfl
@[simp] theorem State.beginReturn_scan (b : Bool) : (s.beginReturn b).scan = s.scan := rfl
@[simp] theorem State.beginReturn_alm (b : Bool) : (s.beginReturn b).alm = s.alm := rfl
@[simp] theorem State.beginReturn_pgh (b : Bool) : (s.beginReturn b).pgh = s.pgh := rfl
@[simp] theorem State.beginReturn_therm (b : Bool) : (s.beginReturn b).therm = s.therm := rfl
@[simp] theorem State.beginReturn_ledger (b : Bool) : (s.beginReturn b).ledger = s.ledger := rfl
@[simp] theorem State.beginReturn_rw (b : Bool) : (s.beginReturn b).rw = s.rw := rfl
@[simp] theorem State.beginReturn_clock (b : Bool) : (s.beginReturn b).clock = s.clock := rfl
@[simp] theorem State.beginReturn_tree (b : Bool) : (s.beginReturn b).tree = s.tree := rfl
@[simp] theorem State.beginReturn_seq (b : Bool) : (s.beginReturn b).seq = s.seq := rfl
@[simp] theorem State.beginReturn_link (b : Bool) : (s.beginReturn b).link = s.link := rfl
@[simp] theorem State.beginReturn_acc (b : Bool) : (s.beginReturn b).acc = s.acc := rfl
@[simp] theorem State.beginReturn_rtc (b : Bool) : (s.beginReturn b).rtc = s.rtc := rfl
@[simp] theorem State.beginReturn_otp (b : Bool) : (s.beginReturn b).otp = s.otp := rfl
@[simp] theorem State.beginReturn_up (b : Bool) : (s.beginReturn b).up = s.up := rfl

/-! ### A wake event -/

@[simp] theorem State.wakeEvent_pending (w : WakeBy) : (s.wakeEvent w).pending = s.pending := by
  unfold State.wakeEvent; repeat (first | rfl | simp only [State.heldEvent, State.countRace, State.abandonEntry, State.beginReturn_pending] | split)
@[simp] theorem State.wakeEvent_now (w : WakeBy) : (s.wakeEvent w).now = s.now := by
  unfold State.wakeEvent; repeat (first | rfl | simp only [State.heldEvent, State.countRace, State.abandonEntry, State.beginReturn_now] | split)
@[simp] theorem State.wakeEvent_free (w : WakeBy) : (s.wakeEvent w).free = s.free := by
  unfold State.wakeEvent; repeat (first | rfl | simp only [State.heldEvent, State.countRace, State.abandonEntry, State.beginReturn_free] | split)
@[simp] theorem State.wakeEvent_strap (w : WakeBy) : (s.wakeEvent w).strap = s.strap := by
  unfold State.wakeEvent; repeat (first | rfl | simp only [State.heldEvent, State.countRace, State.abandonEntry, State.beginReturn_strap] | split)
@[simp] theorem State.wakeEvent_mem (w : WakeBy) : (s.wakeEvent w).mem = s.mem := by
  unfold State.wakeEvent; repeat (first | rfl | simp only [State.heldEvent, State.countRace, State.abandonEntry, State.beginReturn_mem] | split)
@[simp] theorem State.wakeEvent_panel (w : WakeBy) : (s.wakeEvent w).panel = s.panel := by
  unfold State.wakeEvent; repeat (first | rfl | simp only [State.heldEvent, State.countRace, State.abandonEntry, State.beginReturn_panel] | split)
@[simp] theorem State.wakeEvent_drills (w : WakeBy) : (s.wakeEvent w).drills = s.drills := by
  unfold State.wakeEvent; repeat (first | rfl | simp only [State.heldEvent, State.countRace, State.abandonEntry, State.beginReturn_drills] | split)
@[simp] theorem State.wakeEvent_scan (w : WakeBy) : (s.wakeEvent w).scan = s.scan := by
  unfold State.wakeEvent; repeat (first | rfl | simp only [State.heldEvent, State.countRace, State.abandonEntry, State.beginReturn_scan] | split)
@[simp] theorem State.wakeEvent_alm (w : WakeBy) : (s.wakeEvent w).alm = s.alm := by
  unfold State.wakeEvent; repeat (first | rfl | simp only [State.heldEvent, State.countRace, State.abandonEntry, State.beginReturn_alm] | split)
@[simp] theorem State.wakeEvent_pgh (w : WakeBy) : (s.wakeEvent w).pgh = s.pgh := by
  unfold State.wakeEvent; repeat (first | rfl | simp only [State.heldEvent, State.countRace, State.abandonEntry, State.beginReturn_pgh] | split)
@[simp] theorem State.wakeEvent_therm (w : WakeBy) : (s.wakeEvent w).therm = s.therm := by
  unfold State.wakeEvent; repeat (first | rfl | simp only [State.heldEvent, State.countRace, State.abandonEntry, State.beginReturn_therm] | split)
@[simp] theorem State.wakeEvent_ledger (w : WakeBy) : (s.wakeEvent w).ledger = s.ledger := by
  unfold State.wakeEvent; repeat (first | rfl | simp only [State.heldEvent, State.countRace, State.abandonEntry, State.beginReturn_ledger] | split)
@[simp] theorem State.wakeEvent_rw (w : WakeBy) : (s.wakeEvent w).rw = s.rw := by
  unfold State.wakeEvent; repeat (first | rfl | simp only [State.heldEvent, State.countRace, State.abandonEntry, State.beginReturn_rw] | split)
@[simp] theorem State.wakeEvent_clock (w : WakeBy) : (s.wakeEvent w).clock = s.clock := by
  unfold State.wakeEvent; repeat (first | rfl | simp only [State.heldEvent, State.countRace, State.abandonEntry, State.beginReturn_clock] | split)
@[simp] theorem State.wakeEvent_tree (w : WakeBy) : (s.wakeEvent w).tree = s.tree := by
  unfold State.wakeEvent; repeat (first | rfl | simp only [State.heldEvent, State.countRace, State.abandonEntry, State.beginReturn_tree] | split)
@[simp] theorem State.wakeEvent_seq (w : WakeBy) : (s.wakeEvent w).seq = s.seq := by
  unfold State.wakeEvent; repeat (first | rfl | simp only [State.heldEvent, State.countRace, State.abandonEntry, State.beginReturn_seq] | split)
@[simp] theorem State.wakeEvent_link (w : WakeBy) : (s.wakeEvent w).link = s.link := by
  unfold State.wakeEvent; repeat (first | rfl | simp only [State.heldEvent, State.countRace, State.abandonEntry, State.beginReturn_link] | split)
@[simp] theorem State.wakeEvent_acc (w : WakeBy) : (s.wakeEvent w).acc = s.acc := by
  unfold State.wakeEvent; repeat (first | rfl | simp only [State.heldEvent, State.countRace, State.abandonEntry, State.beginReturn_acc] | split)
@[simp] theorem State.wakeEvent_rtc (w : WakeBy) : (s.wakeEvent w).rtc = s.rtc := by
  unfold State.wakeEvent; repeat (first | rfl | simp only [State.heldEvent, State.countRace, State.abandonEntry, State.beginReturn_rtc] | split)
@[simp] theorem State.wakeEvent_otp (w : WakeBy) : (s.wakeEvent w).otp = s.otp := by
  unfold State.wakeEvent; repeat (first | rfl | simp only [State.heldEvent, State.countRace, State.abandonEntry, State.beginReturn_otp] | split)
@[simp] theorem State.wakeEvent_up (w : WakeBy) : (s.wakeEvent w).up = s.up := by
  unfold State.wakeEvent; repeat (first | rfl | simp only [State.heldEvent, State.countRace, State.abandonEntry, State.beginReturn_up] | split)

/-! ### Level events -/

@[simp] theorem State.attend_pending : (s.attend).pending = s.pending := by
  unfold State.attend; repeat (first | rfl | simp only [State.wakeEvent_pending] | split)
@[simp] theorem State.attend_now : (s.attend).now = s.now := by
  unfold State.attend; repeat (first | rfl | simp only [State.wakeEvent_now] | split)
@[simp] theorem State.attend_free : (s.attend).free = s.free := by
  unfold State.attend; repeat (first | rfl | simp only [State.wakeEvent_free] | split)
@[simp] theorem State.attend_strap : (s.attend).strap = s.strap := by
  unfold State.attend; repeat (first | rfl | simp only [State.wakeEvent_strap] | split)
@[simp] theorem State.attend_mem : (s.attend).mem = s.mem := by
  unfold State.attend; repeat (first | rfl | simp only [State.wakeEvent_mem] | split)
@[simp] theorem State.attend_panel : (s.attend).panel = s.panel := by
  unfold State.attend; repeat (first | rfl | simp only [State.wakeEvent_panel] | split)
@[simp] theorem State.attend_drills : (s.attend).drills = s.drills := by
  unfold State.attend; repeat (first | rfl | simp only [State.wakeEvent_drills] | split)
@[simp] theorem State.attend_scan : (s.attend).scan = s.scan := by
  unfold State.attend; repeat (first | rfl | simp only [State.wakeEvent_scan] | split)
@[simp] theorem State.attend_alm : (s.attend).alm = s.alm := by
  unfold State.attend; repeat (first | rfl | simp only [State.wakeEvent_alm] | split)
@[simp] theorem State.attend_pgh : (s.attend).pgh = s.pgh := by
  unfold State.attend; repeat (first | rfl | simp only [State.wakeEvent_pgh] | split)
@[simp] theorem State.attend_therm : (s.attend).therm = s.therm := by
  unfold State.attend; repeat (first | rfl | simp only [State.wakeEvent_therm] | split)
@[simp] theorem State.attend_ledger : (s.attend).ledger = s.ledger := by
  unfold State.attend; repeat (first | rfl | simp only [State.wakeEvent_ledger] | split)
@[simp] theorem State.attend_rw : (s.attend).rw = s.rw := by
  unfold State.attend; repeat (first | rfl | simp only [State.wakeEvent_rw] | split)
@[simp] theorem State.attend_clock : (s.attend).clock = s.clock := by
  unfold State.attend; repeat (first | rfl | simp only [State.wakeEvent_clock] | split)
@[simp] theorem State.attend_tree : (s.attend).tree = s.tree := by
  unfold State.attend; repeat (first | rfl | simp only [State.wakeEvent_tree] | split)
@[simp] theorem State.attend_seq : (s.attend).seq = s.seq := by
  unfold State.attend; repeat (first | rfl | simp only [State.wakeEvent_seq] | split)
@[simp] theorem State.attend_link : (s.attend).link = s.link := by
  unfold State.attend; repeat (first | rfl | simp only [State.wakeEvent_link] | split)
@[simp] theorem State.attend_acc : (s.attend).acc = s.acc := by
  unfold State.attend; repeat (first | rfl | simp only [State.wakeEvent_acc] | split)
@[simp] theorem State.attend_rtc : (s.attend).rtc = s.rtc := by
  unfold State.attend; repeat (first | rfl | simp only [State.wakeEvent_rtc] | split)
@[simp] theorem State.attend_otp : (s.attend).otp = s.otp := by
  unfold State.attend; repeat (first | rfl | simp only [State.wakeEvent_otp] | split)
@[simp] theorem State.attend_up : (s.attend).up = s.up := by
  unfold State.attend; repeat (first | rfl | simp only [State.wakeEvent_up] | split)

/-! ### An auxiliary rail's start -/

@[simp] theorem State.auxStart_pending (n : Nat) : (s.auxStart n).pending = s.pending := rfl
@[simp] theorem State.auxStart_now (n : Nat) : (s.auxStart n).now = s.now := rfl
@[simp] theorem State.auxStart_free (n : Nat) : (s.auxStart n).free = s.free := rfl
@[simp] theorem State.auxStart_strap (n : Nat) : (s.auxStart n).strap = s.strap := rfl
@[simp] theorem State.auxStart_mem (n : Nat) : (s.auxStart n).mem = s.mem := rfl
@[simp] theorem State.auxStart_panel (n : Nat) : (s.auxStart n).panel = s.panel := rfl
@[simp] theorem State.auxStart_drills (n : Nat) : (s.auxStart n).drills = s.drills := rfl
@[simp] theorem State.auxStart_scan (n : Nat) : (s.auxStart n).scan = s.scan := rfl
@[simp] theorem State.auxStart_alm (n : Nat) : (s.auxStart n).alm = s.alm := rfl
@[simp] theorem State.auxStart_pgh (n : Nat) : (s.auxStart n).pgh = s.pgh := rfl
@[simp] theorem State.auxStart_therm (n : Nat) : (s.auxStart n).therm = s.therm := rfl
@[simp] theorem State.auxStart_ledger (n : Nat) : (s.auxStart n).ledger = s.ledger := rfl
@[simp] theorem State.auxStart_rw (n : Nat) : (s.auxStart n).rw = s.rw := rfl
@[simp] theorem State.auxStart_clock (n : Nat) : (s.auxStart n).clock = s.clock := rfl
@[simp] theorem State.auxStart_seq (n : Nat) : (s.auxStart n).seq = s.seq := rfl
@[simp] theorem State.auxStart_pwr (n : Nat) : (s.auxStart n).pwr = s.pwr := rfl
@[simp] theorem State.auxStart_link (n : Nat) : (s.auxStart n).link = s.link := rfl
@[simp] theorem State.auxStart_acc (n : Nat) : (s.auxStart n).acc = s.acc := rfl
@[simp] theorem State.auxStart_rtc (n : Nat) : (s.auxStart n).rtc = s.rtc := rfl
@[simp] theorem State.auxStart_otp (n : Nat) : (s.auxStart n).otp = s.otp := rfl
@[simp] theorem State.auxStart_flt (n : Nat) : (s.auxStart n).flt = s.flt := rfl
@[simp] theorem State.auxStart_up (n : Nat) : (s.auxStart n).up = s.up := rfl

/-! ### An auxiliary rail's stop -/

@[simp] theorem State.auxStop_pending (n e : Nat) : (s.auxStop n e).pending = s.pending := rfl
@[simp] theorem State.auxStop_now (n e : Nat) : (s.auxStop n e).now = s.now := rfl
@[simp] theorem State.auxStop_free (n e : Nat) : (s.auxStop n e).free = s.free := rfl
@[simp] theorem State.auxStop_strap (n e : Nat) : (s.auxStop n e).strap = s.strap := rfl
@[simp] theorem State.auxStop_mem (n e : Nat) : (s.auxStop n e).mem = s.mem := rfl
@[simp] theorem State.auxStop_panel (n e : Nat) : (s.auxStop n e).panel = s.panel := rfl
@[simp] theorem State.auxStop_drills (n e : Nat) : (s.auxStop n e).drills = s.drills := rfl
@[simp] theorem State.auxStop_scan (n e : Nat) : (s.auxStop n e).scan = s.scan := rfl
@[simp] theorem State.auxStop_alm (n e : Nat) : (s.auxStop n e).alm = s.alm := rfl
@[simp] theorem State.auxStop_pgh (n e : Nat) : (s.auxStop n e).pgh = s.pgh := rfl
@[simp] theorem State.auxStop_therm (n e : Nat) : (s.auxStop n e).therm = s.therm := rfl
@[simp] theorem State.auxStop_ledger (n e : Nat) : (s.auxStop n e).ledger = s.ledger := rfl
@[simp] theorem State.auxStop_rw (n e : Nat) : (s.auxStop n e).rw = s.rw := rfl
@[simp] theorem State.auxStop_clock (n e : Nat) : (s.auxStop n e).clock = s.clock := rfl
@[simp] theorem State.auxStop_seq (n e : Nat) : (s.auxStop n e).seq = s.seq := rfl
@[simp] theorem State.auxStop_pwr (n e : Nat) : (s.auxStop n e).pwr = s.pwr := rfl
@[simp] theorem State.auxStop_link (n e : Nat) : (s.auxStop n e).link = s.link := rfl
@[simp] theorem State.auxStop_acc (n e : Nat) : (s.auxStop n e).acc = s.acc := rfl
@[simp] theorem State.auxStop_rtc (n e : Nat) : (s.auxStop n e).rtc = s.rtc := rfl
@[simp] theorem State.auxStop_otp (n e : Nat) : (s.auxStop n e).otp = s.otp := rfl
@[simp] theorem State.auxStop_flt (n e : Nat) : (s.auxStop n e).flt = s.flt := rfl
@[simp] theorem State.auxStop_up (n e : Nat) : (s.auxStop n e).up = s.up := rfl

/-! ### Reading back -/

@[simp] theorem Trip.maj_all {w : Nat} (x : BitVec w) : (Trip.all x).maj = x := by
  simp [Trip.maj, Trip.all]

/-- The word in force after a bit was written. -/
theorem State.setEnable_maj (s : State) (k : Nat) (b : Bool) : (s.setEnable k b).seq.enable.maj = setBit s.seq.acted k b := by
  simp

theorem setBit_getLsbD {n : Nat} (w : BitVec n) (i j : Nat) (b : Bool) (h : i < n) :
    (setBit w i b).getLsbD j = if j = i then b else w.getLsbD j := by
  have k : (BitVec.ofNat n (2 ^ i)).getLsbD j = decide (j = i) := by
    rw [BitVec.getLsbD_ofNat, Nat.testBit_two_pow]
    by_cases e : j = i
    · simp [e, h]
    · simp [e, Ne.symm e]
  by_cases hj : j < n
  · cases b <;>
      simp only [setBit, BitVec.getLsbD_or, BitVec.getLsbD_and, BitVec.getLsbD_not, k, hj, if_true, if_false, Bool.false_eq_true] <;>
      by_cases e : j = i <;> simp [e]
  · have e : j ≠ i := by omega
    rw [BitVec.getLsbD_of_ge _ _ (Nat.le_of_not_lt hj), BitVec.getLsbD_of_ge _ _ (Nat.le_of_not_lt hj), if_neg e]

/-- A bit of the rail-enable word that E0 acts on after another, or the same, was written. -/
theorem State.setEnable_enabled (s : State) (k j : Nat) (b : Bool) (h : k < 9) :
    (s.setEnable k b).enabled j = if j = k then b else s.enabled j := by
  simp only [State.enabled, State.setEnable_acted]
  exact setBit_getLsbD _ _ _ _ h

end Sys2Proof.Machine
end

