-- ==== Sys2Proof/Tests/Slice0.lean ====
section
/-! SUPPORT. Checks of the model: worked values of the spec, ill-formed commands, and for every statement with hypotheses a state
and operands that meet them. -/

namespace Sys2Proof.Tests

set_option Elab.async false

open Sys2Proof Sys2Proof.Machine

/-! ### States -/

/-- The device running after start-up, its link open in version 2.1. -/
def live : State :=
  { State.reset with
    up := { State.reset.up with stage := .complete, planDone := true, rstOut := false }
    clock := { State.reset.clock with pllLock := true, xtalOk := true }
    tree := { State.reset.tree with vinValid := true }
    pwr := { State.reset.pwr with st := .run }
    link := { State.reset.link with version := 3 }
    acc := { State.reset.acc with helloSeen := true }
    rtc := { State.reset.rtc with onBackup := false } }

/-- The same with the panel rails up. -/
def railed : State :=
  { live with seq := { live.seq with enable := Trip.all 0x1FF, acted := 0x1FF }, tree := { live.tree with railsUp := true, pg := 0xFF, disch := 0 } }

/-- The railed device while it scans, at a frame's row slot. -/
def scanning (slot : Nat) : State :=
  { railed with scan := { railed.scan with scanning := true, slot := slot, rowT := 1200, fresh := false, firstFrame := false } }

/-- The railed device at a step of rail-up or rail-down. -/
def stepped (up : Bool) (k : Nat) : State := { railed with seq := { railed.seq with railStep := k, rising := up } }

/-- A letter to every device. -/
def all : Via := { tag := 5, kind := 2, number := 0, framing := .v2 }

/-- A letter to the device's house number. -/
def house : Byte := BitVec.ofNat 8 live.house

/-- A letter of the given type and body. -/
def letter (typ addr : Byte) (body : List Byte) : Letter :=
  let l : Letter := { framing := .v2, rises := 2 * (10 + body.length), typ := typ, addr := addr, tag := 5, res := 0
                      length := BitVec.ofNat 32 body.length, body := body, crc := 0 }
  { l with crc := crc16 l.bytes }

/-! ### Worked values of the spec -/

/-- R364's check value. -/
theorem test_crc16_check : crc16 [0x31, 0x32, 0x33, 0x34, 0x35, 0x36, 0x37, 0x38, 0x39] = 0x29B1 := by decide +kernel

/-- R179's check value. -/
theorem test_crc32_check : crc32 [0x31, 0x32, 0x33, 0x34, 0x35, 0x36, 0x37, 0x38, 0x39] = 0xCBF43926 := by decide +kernel

/-- FIPS 180-4's published digest of "abc". -/
theorem test_sha256 : sha256 [0x61, 0x62, 0x63] = 0xba7816bf8f01cfea414140de5dae2223b00361a396177a9cb410ff61f20015ad := by
  decide +kernel

/-- RFC 6979's published P-256 signature of "sample". -/
theorem test_signature :
    verifySig [0x73, 0x61, 0x6d, 0x70, 0x6c, 0x65]
      0xEFD48B2AACB6A8FD1140DD9CD45E81D69D2C877B56AAF991C34D0EA84EAF3716
      0xF7CB1C942D657C41D436C7A1B6E29F65F3E900DBB9AFF4064DC4AB2F843ACDA8
      (0x60FED4BA255A9D31C961EB74C6356D68C049B8923B61FA6CE669622E60F29FB6,
       0x7903FE1008B8BC99A41AE9E95628BC64F2F1B20C2D7E9F5177A3C294D4462299) = true := by
  decide +kernel

/-- R426's worked command: forward at 23:30:11 on 2024-03-31. -/
theorem test_summer_time_forward :
    Calendar.step { sec := 11, min := 30, hour := 23, day := 31, month := 3, year := 24, weekday := 7 } 1
      = { sec := 11, min := 30, hour := 0, day := 1, month := 4, year := 24, weekday := 1 } := by decide

/-- R430's worked example: T = -10.0 °C under TURN 25, COEF 34, OFFSET +10 gives ADJ 77, and 13 seconds of 32,766 cycles. -/
theorem test_compensation : adjOf 0x1922000A (-160) = 77
    ∧ ((List.range 64).filter (fun k => secondCycles 77 k == 32766)).length = 13 := by decide +kernel

/-- R60 at a nominal resistor and at the ends. -/
theorem test_strap_bins : strapBin 0 = 0 ∧ strapBin 200 = 1 ∧ strapBin 11520 = 14 ∧ strapBin 16383 = 15 := by decide

/-! ### Ill-formed commands -/

theorem test_repeated_house_refused : (Instr.collectArbitration [1, 1]).wf = false ∧ (Instr.collectArbitration [1, 2]).wf = true := by
  decide

def row0 : RowInput :=
  { repeats := 0, bridgeFail := none, missing := 0, heartbeats := [], flips := [], lateFlips := [], ledgerFlips := [], charge := []
    late := [] }

theorem test_row_flips_refused :
    (Instr.rowLatch { row0 with flips := [⟨1572864, 0⟩] }).wf = false
      ∧ (Instr.rowLatch { row0 with lateFlips := [⟨1572864, 87⟩] }).wf = false
      ∧ (Instr.rowLatch { row0 with flips := [⟨1572863, 87⟩] }).wf = true := by decide

theorem test_row_ledger_refused : (Instr.rowLatch { row0 with ledgerFlips := [⟨393216, 16⟩] }).wf = false := by decide

theorem test_row_charge_refused : (Instr.rowLatch { row0 with charge := [⟨0, 1, 5⟩, ⟨0, 1, 6⟩] }).wf = false := by decide

theorem test_row_heartbeats_refused :
    (Instr.rowLatch { row0 with heartbeats := [⟨3, none⟩, ⟨3, none⟩] }).wf = false := by decide

theorem test_bridge_failure_needs_a_repeat :
    (Instr.rowLatch { row0 with bridgeFail := some .codes }).wf = false
      ∧ (Instr.rowLatch { row0 with bridgeFail := some .other, repeats := 1 }).wf = true := by decide

theorem test_start_set_places_refused :
    (Instr.startSet { flips := [⟨1572864, 1⟩], ledgerFlips := [] }).wf = false
      ∧ (Instr.startSet { flips := [], ledgerFlips := [⟨393216, 0⟩] }).wf = false := by decide

theorem test_aging_flips_refused : (Instr.agingTick [⟨1572864, 4⟩]).wf = false := by decide

theorem test_slot_reading_refused :
    (Instr.slowRoundSlot { reading := 65536, boostOv := false, upsets := [] }).wf = false
      ∧ (Instr.slowRoundSlot { reading := -32769, boostOv := true, upsets := [] }).wf = false := by decide

/-- R385's frame for house 6, and R386's count of rises. -/
theorem test_wake_frame : ({ live with pwr := { live.pwr with mHouse := 6 } } : State).frameMatches 16 0xA589 = true
    ∧ ({ live with pwr := { live.pwr with mHouse := 6 } } : State).frameMatches 15 0xA589 = false := by decide +kernel

/-! ### Meeting the hypotheses: the invariants and the link -/

theorem test_meets_EmptyQueue : State.reset.pending = [] := rfl

theorem test_meets_Step : step State.reset = .next { State.reset with now := State.reset.now + 1 } := rfl

theorem test_meets_Memory : State.reset.memoryOk = true := by decide

theorem test_meets_OtpWordsOnlyGain :
    let s : State := { State.reset with otp := { State.reset.otp with words := [(3, { bits := 5, marginal := 0 })] } }
    s.memoryOk = true ∧ (s.otpWord 3).bits.getLsbD 2 = true := by decide +kernel

/-- A tick that flips one bit of a sound group. -/
theorem test_meets_IdlePixelsAgree :
    let s : State := { live with pending := [.agingTick [⟨5, 1⟩]] }
    s.memoryOk = true ∧ s.idleOk ∧ s.flipsLow := by
  refine ⟨by decide +kernel, ?_, ?_⟩
  · intro k _
    show (pixelOf unknownWord).target = (pixelOf unknownWord).current
    decide +kernel
  · intro c rest g h _
    cases h
    have hc : (flipsOf (.agingTick [⟨5, 1⟩])).countP (fun x => x.group == g) ≤ 1 := List.countP_le_length
    have hb : bitCount (sget 0 live.mem.flips g) = 0 := by
      show bitCount 0 = 0
      decide +kernel
    show bitCount (sget 0 live.mem.flips g) + _ ≤ 2
    omega

def starting (g : Stage) : State :=
  { State.reset with up := { State.reset.up with stage := g }, tree := live.tree, clock := live.clock }

/-- The factory region as programmed passes its check, and one with two bits of a word gone does not, whatever the tester wrote. -/
theorem test_meets_delivery :
    ((starting .otp).senseFactory []).criticalOk = true ∧ ((starting .otp).senseFactory [0, 1]).criticalOk = false := by
  refine ⟨by decide +kernel, ?_⟩
  have h0 : ((starting .otp).senseFactory [0, 1]).factoryFlips 0 = 3 := by decide +kernel
  have ha : allTo 64 (fun k => (((starting .otp).senseFactory [0, 1]).factoryWord k).good) = false := by
    rw [allTo, List.all_eq_false]
    refine ⟨0, by decide, ?_⟩
    have hb := otpWrong_bad (factoryData 0) 3 (by decide +kernel) (by decide +kernel)
    rw [Bool.not_eq_true, State.factoryWord, h0]
    exact hb
  unfold State.criticalOk
  rw [ha, Bool.false_and, Bool.or_false]
  decide +kernel

theorem test_meets_BackupComesAlive : ({ live with rtc := { live.rtc with alive := false } } : State).rtc.alive = false
    ∧ (starting .otp).up.stage = .otp := ⟨rfl, rfl⟩

def hello : Letter := letter 0x01 0x20 [0x21, 0x10, 0, 0]

theorem test_meets_BadLetters :
    let l' : Letter := { hello with body := hello.body.set 3 1 }
    hello.sound = true ∧ 3 < hello.body.length ∧ byteAt hello.body 3 ≠ 1 ∧ live.hears l' = true ∧ l'.framed = true
      ∧ live.hears { hello with rises := 29 } = true ∧ (29 : Nat) ≠ ({ hello with rises := 29 } : Letter).risesDue := by decide +kernel

theorem test_meets_HelloOpens : live.takes hello = true ∧ hello.typ = 0x01 ∧ chooseVersion false 0x10 0x21 = 0x21
    ∧ live.takes (letter 0x01 0x20 [0x30, 0x22, 0, 0]) = true ∧ chooseVersion false 0x22 0x30 = 0 := by decide +kernel

theorem test_meets_WhyServed : live.takes (letter 0x07 house []) = true := by decide +kernel

theorem test_meets_StageTaken :
    live.takes (letter 0x12 house [0, 0, 0, 0, 7]) = true
      ∧ ({ live with alm := { live.alm with load := .staging } } : State).takes (letter 0x12 house [0, 0, 0, 0, 7]) = true := by
  decide +kernel

/-- An update of eight pixels of one row, and one that fails R196's first check. -/
def updateOf (typ : Byte) (n : Byte) : Letter := letter typ 0x20 [n, 0, 0, 0, 8, 0, 0, 0, 1, 0, 0, 0, 0, 0, 0, 0, 0xA5]

theorem test_meets_UpdateTaken :
    live.takes (updateOf 0x10 1) = true ∧ live.updateCheck (updateFields (updateOf 0x10 1).body) = 0
      ∧ live.takes (updateOf 0x11 0) = true ∧ live.updateCheck (updateFields (updateOf 0x11 0).body) = 1 := by decide +kernel

def collect : Letter := letter 0x05 0x30 []

theorem test_meets_CollectionRound :
    live.hears collect = true ∧ collect.framed = true ∧ collect.sound = true ∧ collect.collects = true
      ∧ (let s : State := { live with link := { live.link with inRound := true, attnFault := true } }
         s.linkLive = true ∧ s.link.winner = false ∧ s.attnWord ≠ 0 ∧ s.link.replied = false ∧ (15#4).toNat < 16 ∧ s.house ≤ 15)
      ∧ (let s : State := { live with link := { live.link with inRound := true, winner := true } }
         s.linkLive = true ∧ s.link.winner = true) := by decide +kernel

/-! ### Registers -/

theorem test_meets_ReadServed :
    let l := letter 0x02 house [0x00, 0x05, 2, 0]
    live.takes l = true ∧ live.quiet = true ∧ half l.body 0 = 0x500 ∧ l.count = 2 ∧ live.decodeAddr 0x500 = some 0x500
      ∧ (rowAt 0x500).isSome = true ∧ live.decodeAddr 0x3FFF = none
      ∧ live.takes (letter 0x02 house [0x00, 0x40, 1, 0]) = true := by decide +kernel

/-- A register that no wake stands before is read at one place whatever the link's records hold. -/
theorem test_reads_alike (w : State) (h : live.heardOnly w) (ha : w.acc = live.acc) :
    w.readAt 0x912 = (live.therm.group0, w) := by
  rw [show w = { live with link := w.link, acc := live.acc, rtc.quietAt := w.rtc.quietAt } by rw [← ha]; exact h]
  rfl

theorem test_meets_WriteServed :
    live.quiet = true
      ∧ (heldRegisters.map (fun x => live.takes (viaWrite all x.1 1))).all (fun b => b) = true
      ∧ live.takes (viaWrite all (4096 * opCode .toggle + 0x912) 1) = true := by decide +kernel

theorem test_meets_MultiGuardRefused :
    let l := letter 0x03 house [0x00, 0x07, 2, 0, 1, 0, 0, 0, 0, 0, 0, 0]
    live.takes l = true ∧ half l.body 0 < 0x4000 ∧ 1 < l.count ∧ live.rangeGuarded (half l.body 0) l.count = true := by
  decide +kernel

theorem test_meets_RequestDecided :
    live.takes (reqLetter all .scan .slow) = true ∧ live.takes (reqLetter all (.write 0x100) .dormant) = true
      ∧ live.quiet = true ∧ (live.withForm (.write 0x100)).levelQuiet = true
      ∧ live.refuserOf .hold = none ∧ ({ live with seq := { live.seq with hedge := true } } : State).refuserOf .hold = some 1
      ∧ live.entering = none := by decide +kernel

theorem test_meets_LinkEventsCounted :
    let r : Reply := { bytes := [1], readyAt := 7, short := false }
    live.linkLive = true ∧ ({ live with link := { live.link with reply := some r } } : State).linkLive = true := by decide +kernel

def dormant : State :=
  { State.reset with
    up := { State.reset.up with stage := .off }, pwr := { State.reset.pwr with st := .dormant, mHouse := 6 }
    clock := { State.reset.clock with xtalOk := true }, rtc := { State.reset.rtc with armed := true } }

theorem test_meets_WakeFrameActs :
    dormant.frameMatches 16 0xA589 = true ∧ dormant.rtc.armed = true ∧ dormant.rtc.alive = true ∧ dormant.rtc.resetN = false
      ∧ dormant.up.stage = .off ∧ dormant.tree.vinValid = false ∧ dormant.frameMatches 16 0 = false
      ∧ ({ dormant with tree := { dormant.tree with vinValid := true } } : State).clock.xtalOk = true
      ∧ live.linkLive = true := by decide +kernel

/-! ### Keys, almanac, pigeonholes -/

theorem test_meets_SecKeyArms : live.takes (viaWrite all 0x210 0x5EED) = true ∧ live.lcNow = 0 ∧ live.fullDecode = false := by
  decide +kernel

/-- Every operation of `ALM_CTL`, refused without its key; the conditions under which CLOSE and ABORT are not. -/
theorem test_meets_AlmOperations :
    (List.range 4).all (fun k => live.takes (viaWrite all 0x700 (wd k))) = true ∧ live.almWhy false 1 ≠ none
      ∧ ({ live with acc := { live.acc with armed := some Group.almanac, sealIn := true }
                     alm := { live.alm with load := .staging } } : State).almWhy true 2 = none
      ∧ live.quiet = true := by decide +kernel

/-- The railed device with three drills at work, a container waiting for its D. -/
def drainingThree : State :=
  let d := (Vector.range 14).map (fun i => { (default : Drill) with role := if i < 3 then DrillRole.active else .failed })
  let s := scanning 0
  { s with alm := { s.alm with load := .draining, drainOn := true }, drills := { s.drills with drill := d }
           scan := { s.scan with cleanLast := true, startSetDone := false } }

theorem test_meets_AlmEvents :
    ({ live with alm := { live.alm with load := .checking } } : State).alm.load = .checking
      ∧ ({ scanning 0 with alm := { live.alm with load := .draining, drainOn := true }
                           scan := { (scanning 0).scan with cleanLast := true, startSetDone := false } } : State).drainDone = true
      ∧ live.almReadable = true ∧ live.alm.suspect = false
      ∧ (let s : State := { live with alm := { live.alm with suspect := true } }
         s.almReadable = true ∧ s.flt.react = none ∧ s.flt.dark = false ∧ s.seq.hedge = false ∧ s.resetOrder = false
           ∧ s.rtc.deliveryAt = none ∧ s.pwr.st ≠ .enterDormant ∧ s.flt.history.length < 2)
      ∧ ({ live with alm := { live.alm with copyAt := some 9 } } : State).alm.copyAt = some 9 ∧ live.clock.pllLock = true
      ∧ State.reset.clock.pllLock = false
      ∧ drainingThree.drainDone = true ∧ drainingThree.recording = true ∧ drainingThree.shortFor drainingThree.aNow = false
      ∧ drainingThree.atDrain.shortFor drainingThree.aNow = true ∧ drainingThree.anyRail = true := by decide +kernel

def holed (n : Nat) (p : Pgh) : State := { live with pgh := { live.pgh with tab := [(n, p)], index := BitVec.ofNat 32 n } }

theorem test_meets_PghActions :
    live.takes (viaWrite all 0x805 1) = true ∧ live.takes (viaWrite all 0x806 2) = true ∧ live.takes (viaWrite all 0x807 3) = true
      ∧ live.quiet = true := by decide +kernel

theorem test_meets_PghActionOnOne :
    (holed 1 { Pgh.free with state := .pending }).pghSelected = 1
      ∧ (holed 2047 { Pgh.free with state := .done }).pghSelected = 2047
      ∧ (holed 1 { Pgh.free with state := .pending }).takes (viaWrite all 0x805 1) = true
      ∧ ((holed 1 { Pgh.free with state := .pending }).pgh_ 1).state = .pending
      ∧ (((holed 1 { Pgh.free with state := .running }).pgh_ 1).going && ((holed 1 { Pgh.free with state := .running })
          |>.freeWindow).isSome) = true
      ∧ ((holed 2047 { Pgh.free with state := .done }).pgh_ 2047).state = .done
      ∧ ((holed 2047 { Pgh.free with state := .done }).pgh_ 2047).kept = none := by decide +kernel

/-! ### Scan, drills and panel -/

def drilled (r : DrillRole) : State := { live with drills := { live.drills with drill := Vector.replicate 14 { (default : Drill) with role := r } } }

theorem test_meets_TestRequested :
    live.takes (viaWrite all (4096 * opCode .base + 0x404) 2) = true ∧ live.quiet = true
      ∧ live.takes (viaWrite all (4096 * opCode .toggle + 0x404) 15) = true
      ∧ (drilled .spare).testBusy = false ∧ (drilled .spare).inHold = false
      ∧ (vget (drilled .spare).drills.drill 13).role = .spare ∧ (vget (drilled .active).drills.drill 0).role = .active
      ∧ (drilled .active).spare = none ∧ (vget (drilled .failed).drills.drill 0).role = .failed := by decide +kernel

theorem test_meets_SelfTests :
    (let s : State := { drilled .spare with drills := { (drilled .spare).drills with ctl := 1 } }
     bit s.drills.ctl 0 = true ∧ s.clocked = true ∧ s.rotateNext.isSome = true)
      ∧ (let s : State := { live with drills := { live.drills with ctl := 1 } }
         bit s.drills.ctl 0 = true ∧ s.clocked = true ∧ s.rotateNext = none)
      ∧ (let s : State := { live with drills := { live.drills with running := [(2, 0), (15, 9)], asked := some 2 } }
         s.drills.startTest = false ∧ s.drills.asked = some 2 ∧ s.clocked = true ∧ (2, 0) ∈ s.drills.running ∧ (0x0004#16).getLsbD 2 = true ∧ (0x0004#16).getLsbD 15 = false)
      ∧ (let s : State := { live with drills := { live.drills with startTest := true }, scan := { live.scan with rowT := 1138 } }
         let ok := (List.range 14).filter (fun i => (0xFFFC#16).getLsbD (i + 2))
         s.drills.startTest = true ∧ s.shortFor (min (14 - scanSpares (s.bin 9)) ok.length) = false ∧ s.clocked = true
           ∧ s.flt.injecting = []) := by decide +kernel

/-- A frame's end, and the start of a scan, with fourteen drills at work. -/
theorem test_meets_FrameBegins :
    (let s : State := { scanning 2080 with drills := (drilled .active).drills, alm := { live.alm with wordsDue := true } }
     s.steady = true ∧ s.drillsKeep = true ∧ s.spanKept = true ∧ s.dieAtLeast 2000 = false ∧ s.frameOver = true)
      ∧ (let s : State := { railed with scan := { railed.scan with startDue := some 5 }, drills := (drilled .active).drills
                                        panel := { railed.panel with words := { railed.panel.words with rowT := 1138 } } }
         s.steady = true ∧ s.drillsKeep = true ∧ s.spanKept = true ∧ s.dieAtLeast 2000 = false ∧ s.scan.scanning = false) := by
  decide +kernel

def restating : Pgh := { Pgh.free with state := .pending, restate := true, height := 1, widg := 1 }

theorem test_meets_StartSetStarts :
    let s : State := { scanning 0 with pgh := { live.pgh with tab := [(1, restating)] }
                                       therm := { live.therm with wbudNow := 1500 } }
    s.memoryOk = true ∧ s.scan.scanning = true ∧ s.scan.startSetDone = false ∧ s.scan.slot ≤ 32
      ∧ (s.flipBits [⟨3, 2⟩]).lostGroups (fun _ => true) = []
      ∧ s.eligibleHost (s.openEnergy (s.frameBudget s.workingBudget)) 1 restating = true ∧ restating.state = .pending ∧ restating.split = false ∧ restating.units = []
      ∧ 2 ≤ s.openEnergy (s.frameBudget s.workingBudget)
      ∧ (s.forecast 1 restating restating.rect : Int) ≤ s.openEnergy (s.frameBudget s.workingBudget) := by decide +kernel

/-- A blanking row, the first and the last row of the panel; a row whose codes are missing, and failures of the bridge. -/
theorem test_meets_RowSlotRuns :
    (∀ k ∈ [0, 31, 32, 2079], (scanning k).scan.scanning = true ∧ (scanning k).scan.slot < (scanning k).frameRows)
      ∧ row0.bridgeFail = none ∧ (scanning 32).flt.injecting = [] ∧ (scanning 32).anyRail = true ∧ (scanning 32).rtc.deliveryAt = none ∧ (scanning 32).memoryOk = true
      ∧ (scanning 32).mem.ageWait = none ∧ (scanning 32).recording = true ∧ (scanning 32).rowMisses row0 = false
      ∧ ({ scanning 32 with drills := (drilled .active).drills } : State).rowMisses { row0 with missing := 1 } = true
      ∧ (scanning 32).rowMisses { row0 with bridgeFail := some .codes } = true
      ∧ (scanning 2079).rowMisses { row0 with bridgeFail := some .other } = false := by decide +kernel

def aged : State := { drilled .active with mem := { live.mem with tickBase := some 7 } }

theorem test_meets_AgingPass :
    aged.clocked = true ∧ aged.nextTickAt = some 7 ∧ aged.pgh.deferAge = false ∧ aged.inHold = false ∧ aged.aNow = 14
      ∧ aged.memoryOk = true
      ∧ ({ live with mem := { live.mem with tickBase := some 7 } } : State).aNow = 0
      ∧ (let a : AgeVisit := { rows := [8, 9], tick := 3, hold := none }
         let s : State := { scanning 40 with mem := { live.mem with ageWait := some a } }
         s.mem.ageWait = some a ∧ s.flt.injecting = [] ∧ s.scan.slot - 32 ∈ a.rows ∧ s.rowMisses { row0 with missing := 1 } = false
           ∧ ({ s with drills := (drilled .active).drills } : State).rowMisses { row0 with missing := 1 } = true
           ∧ 8 < s.rows ∧ (s.flipBits []).lostGroups (fun g => g / 768 == 8) = []) := by decide +kernel

/-- R91: a stored group reads good, with one flipped bit corrected, with two uncorrectable, whatever its data. -/
theorem test_secded :
    let w := encodeGroup 0xFFC06FFC06FFC06FFC06#80
    classOf w = .good ∧ classOf (w ^^^ 1#88 <<< 20) = .corrected ∧ classOf (w ^^^ 1#88 <<< 87) = .corrected
      ∧ classOf (w ^^^ 1#88 <<< 3 ^^^ 1#88 <<< 81) = .lost := by decide +kernel

theorem test_meets_TrimsTaken :
    live.quiet = true ∧ live.takes (viaWrite all (4096 * opCode .base + 0xD01) 0x7F) = true
      ∧ live.takes (viaWrite all (4096 * opCode .set + 0xD08) 1) = true
      ∧ live.takes (viaWrite all (4096 * opCode .base + selAddr (n := 8) 0x308 0x310 0x311 (.one 0)) 3) = true
      ∧ live.takes (viaWrite all (4096 * opCode .clear + selAddr (n := 8) 0x308 0x310 0x311 .group) 3) = true
      ∧ ({ live with acc := { live.acc with armed := some Group.trims } } : State).takes (viaWrite all 0xD01 1) = true := by
  decide +kernel

theorem test_meets_HeadlandRead :
    let h := Vector.replicate 8 { (vget live.panel.headland 0) with cls := .open, suspect := true }
    let s : State := { live with panel := { live.panel with hlNow := some 7, headland := h } }
    s.panel.hlNow = some 7 ∧ s.loopClass 7 4095 = .open ∧ (vget s.panel.headland 7).cls = .open ∧ s.recording = true := by decide +kernel

def vcomAt (p : VcomPhase) : State :=
  let v := Vector.replicate 8 { (vget live.panel.vcom 0) with phase := p }
  { railed with panel := { railed.panel with vcom := v } }

theorem test_meets_VcomRampsEnd :
    (let s : State := { railed with seq := { railed.seq with railStep := 9, rising := true } }
     s.seq.railStep = 9 ∧ s.seq.rising = true)
      ∧ (let s : State := { railed with seq := { railed.seq with railStep := 1, rising := false } }
         s.seq.railStep = 1 ∧ s.seq.rising = false ∧ s.seq.lone = false ∧ s.enabled 0 = true)
      ∧ (let s : State := { railed with seq := { railed.seq with railStep := 1, rising := false, lone := true } }
         s.seq.railStep = 1 ∧ s.seq.lone = true ∧ s.anyRail = true)
      ∧ (vcomAt (.rampUp 9)).seq.railStep = 0 ∧ (vcomAt (.rampUp 9)).vcomRampEndAt = some 9 := by decide +kernel

theorem test_meets_OverloadsRecorded :
    let s := vcomAt .atTrim
    s.tree.railsUp = true ∧ s.seq.gateBlankTo ≤ s.now ∧ s.seq.vcomBlankTo ≤ s.now ∧ s.recording = true
      ∧ s.anyRail = true ∧ (vget s.panel.vcom 7).phase ≠ .off ∧ s.seq.railStep = 0 ∧ live.tree.railsUp = false := by
  decide +kernel

/-! ### Supplies, temperatures, calendar, cells, faults -/

theorem test_meets_EnablesLand :
    live.quiet = true ∧ live.planAwaits = none ∧ live.takes (viaWrite all (4096 * opCode .base + 0x300) 0xFF) = true
      ∧ live.takes (viaWrite all (4096 * opCode .set + selAddr (n := 4) 0xD40 0xD44 0xD45 (.one 3)) 1) = true
      ∧ live.takes (viaWrite all (4096 * opCode .base + selAddr (n := 4) 0xD40 0xD44 0xD45 .broadcast) 1) = true
      ∧ live.takes (viaWrite all (4096 * opCode .base + selAddr (n := 4) 0xD48 0xD4C 0xD4D .group) 1) = true := by decide +kernel

theorem test_meets_FrontLightLands :
    live.quiet = true ∧ live.takes (viaWrite all (4096 * opCode .base + selAddr (n := 8) 0xD50 0xD58 0xD59 (.one 7)) 1) = true
      ∧ live.takes (viaWrite all (4096 * opCode .base + selAddr (n := 8) 0xD50 0xD58 0xD59 .broadcast) 1) = true
      ∧ live.takes (viaWrite all 0xD5B 0xFFFF) = true := by decide +kernel

theorem test_meets_ThermalWrites :
    live.quiet = true ∧ live.takes (viaWrite all (4096 * opCode .toggle + 0x900) 0xFFFF) = true
      ∧ live.takes (viaWrite all (4096 * opCode .base + selAddr (n := 64) 0x9C0 0x910 0x911 (.one 63)) 1) = true
      ∧ live.takes (viaWrite all (4096 * opCode .base + selAddr (n := 64) 0x9C0 0x910 0x911 .group) 1) = true := by decide +kernel

theorem test_meets_CalendarCommands :
    live.quiet = true ∧ live.takes (viaWrite all 0xC14 1) = true ∧ live.takes (viaWrite all 0xC14 2) = true
      ∧ live.takes (viaWrite all 0xC14 3) = true := by decide +kernel

theorem test_meets_OtpOperations :
    live.quiet = true ∧ live.takes (viaWrite all 0x222 1) = true ∧ live.takes (viaWrite all 0x222 2) = true
      ∧ live.takes (viaWrite all 0x222 3) = true ∧ live.takes (viaWrite all (4096 * opCode .base + 0x230) 1) = true
      ∧ live.otpWhy false (.life 1) ≠ none
      ∧ ({ live with acc := { live.acc with sealIn := true }, otp := { live.otp with supplyOk := true } } : State).otpWhy true
          (.life 1) = none := by decide +kernel

theorem test_meets_OtpOperationEnds :
    let s : State := { live with otp := { live.otp with op := some (.program 4 0) } }
    s.memoryOk = true ∧ s.otp.op = some (.program 4 0) ∧ (s.otpWord 4).blank = true ∧ s.otp.openings = 0 ∧ s.otp.commitTo = none
      ∧ s.otp.healDue = false ∧ s.levelQuiet = true ∧ live.otp.op = none ∧ live.levelQuiet = true
      ∧ ({ live with otp := { live.otp with op := some (.margin 6 4) } } : State).otp.openings = 0
      ∧ (let s : State := { live with otp := { live.otp with op := some (.raise 0 0 1) } }
         s.memoryOk = true ∧ s.otp.op = some (.raise 0 0 1) ∧ (1 : Nat) ≤ counterSteps 0 ∧ s.otp.shownAt ≤ s.now) := by
  decide +kernel

theorem test_meets_InjectionGuarded :
    live.quiet = true ∧ live.takes (viaWrite all (4096 * opCode .base + 0x610) 0x128) = true
      ∧ (let s : State := { live with acc := { live.acc with testMode := true, armed := some Group.test } }
         s.takes (viaWrite all (4096 * opCode .base + 0x610) (wd (0x100 + fltNtc))) = true ∧ s.lcNow = 0 ∧ s.quiet = true)
      ∧ injectable 127 = false
      ∧ (let s : State := { stepped true 7 with flt := { live.flt with injecting := [(fltRailUv, 9)] } }
         s.railRising = true ∧ upRail s.seq.railStep = 0 ∧ s.flt.injecting = [(fltRailUv, 9)] ∧ vget s.seq.blankTo 0 ≤ s.now
           ∧ s.recording = true ∧ s.rtc.deliveryAt = none) := by decide +kernel

theorem test_meets_FaultsClear :
    live.quiet = true ∧ live.takes (viaWrite all 0x608 0xFFFFFF) = true ∧ live.takes (viaWrite all 0x609 0xFFFFF) = true
      ∧ live.takes (viaWrite all 0x60B 0x1F) = true := by decide +kernel

/-! ### Accesses, slow round, supply and reset -/

def posted (b : Fin 16) : Posted := { (default : Posted) with block := b }

theorem test_meets_AccessEvents :
    ({ live with acc := { live.acc with posted := [posted 13] } } : State).acc.posted = [posted 13]
      ∧ (∀ p ∈ [posted 13], p.block ≠ 12)
      ∧ (let x : Guarded := { (default : Guarded) with why := some 0x22 }
         let s : State := { live with acc := { live.acc with guarded := [x] } }
         s.acc.guarded = [x] ∧ s.clock.pllLock = true ∧ s.link.serving = [] ∧ x.why = some 0x22)
      ∧ (let s : State := { live with pwr := { live.pwr with st := .hold } }
         let l := letter 0x02 house [0x12, 0x04, 1, 0]
         let m := letter 0x02 house [0x1F, 0x04, 1, 0]
         s.takes l = true ∧ s.quiet = true ∧ half l.body 0 = 0x412 ∧ l.count = 1 ∧ s.takes m = true ∧ half m.body 0 = 0x412 + 13
           ∧ s.pwr.waking = Vector.replicate 3 none ∧ s.pwr.awake = Vector.replicate 3 none)
      ∧ (let s : State := { live with pwr := { live.pwr with awake := Vector.replicate 3 (some 4) } }
         vget s.pwr.awake 0 = some 4 ∧ vget s.pwr.awake 2 = some 4)
      ∧ live.recording = true ∧ live.levelQuiet = true ∧ live.acc.sealIn = false ∧ live.lcNow < 2
      ∧ (let s : State := { live with acc := { live.acc with sealIn := true }
                                      otp := { live.otp with lc := Trip.all 2 } }
         s.acc.sealIn = true ∧ s.recording = true ∧ s.levelQuiet = true)
      ∧ (let s : State := { live with otp := { live.otp with lc := Trip.all 2 } }
         s.acc.sealIn = false ∧ 2 ≤ s.lcNow ∧ s.counter ctrSeal + s.otp.openings < 1024 ∧ s.otp.op ≠ some .heal
           ∧ s.recording = true ∧ s.levelQuiet = true)
      ∧ (let s : State := { live with otp := { live.otp with lc := Trip.all 2, supplyOk := true, op := some .heal } }
         s.acc.sealIn = false ∧ 2 ≤ s.lcNow ∧ s.counter ctrSeal + s.otp.openings < 1024 ∧ s.otp.op = some .heal ∧ s.progOk = true
           ∧ s.recording = true ∧ s.levelQuiet = true) := by decide +kernel

theorem test_meets_SlowRoundRuns :
    (∀ k ∈ [0, 3, 4, 9, 10, 30],
      let s : State := { live with therm := { live.therm with slowOn := true, slot := k } }
      s.therm.slowOn = true ∧ s.clock.pllLock = true ∧ s.flt.injecting = [] ∧ s.flt.react = none ∧ s.therm.slot < 31 ∧ s.recording = true)
      ∧ (let s : State := { scanning 40 with therm := { live.therm with slowOn := true, slot := 31 } }
         s.therm.slot = 31 ∧ s.scan.scanning = true ∧ s.clocked = true ∧ s.clock.pllLock = true ∧ s.flt.injecting = [])
      ∧ (let c : GracedCond := { inForce := true, graceTo := some 5, ripe := false, enforced := false, broke := false }
         let s : State := { live with therm := { live.therm with plotC := c, dieC := c } }
         s.clocked = true ∧ s.therm.plotC.inForce = true ∧ s.therm.plotC.graceTo = some 5 ∧ s.therm.dieC.graceTo = some 5) := by decide +kernel

def session : State := { railed with rw := { live.rw with session := some 7, present := true } }

theorem test_meets_VinEvents :
    live.rtc.vbakConn = true ∧ ({ live with rtc := { live.rtc with vbakConn := false } } : State).tree.vinValid = true
      ∧ live.resetOrder = false ∧ (∀ g ∈ [Stage.held, .wait, .otp, .boot], (starting g).rtc.vbakConn = true
          ∧ (starting g).tree.vinValid = true ∧ (starting g).rtc.resetDue = false ∧ (starting g).rtc.resetN = false
          ∧ (starting g).pwr.held = false ∧ (starting g).pwr.heldAlarm = 0)
      ∧ (starting .off).up.stage = .off ∧ railed.anyRail = true
      ∧ live.rtc.alive = true ∧ live.tree.vinValid = true ∧ live.delivers = false ∧ session.delivers = true
      ∧ (scanning 40).delivers = false ∧ (scanning 40).scan.scanning = true ∧ (scanning 40).pwr.st ≠ .enterDormant
      ∧ live.rtc.resetN = false ∧ live.rtc.resetDue = false ∧ live.pwr.held = false ∧ live.pwr.heldAlarm = 0
      ∧ State.reset.up.stage = .wait ∧ dormant.tree.vinValid = false ∧ dormant.up.stage = .off ∧ dormant.clock.xtalOk = true
      ∧ ({ State.reset with clock := dormant.clock } : State).tree.vinValid = false ∧ State.reset.rtc.resetN = false
      ∧ ({ live with tree := State.reset.tree } : State).rtc.backupRun = false ∧ live.rtc.deliveryAt = none
      ∧ live.recording = true ∧ dormant.recording = false ∧ live.flt.react = none ∧ session.link.serving = [] := by decide +kernel

theorem test_meets_ResetPin :
    ({ railed with seq := { railed.seq with after := .reset } } : State).resetOrder = true ∧ live.resetOrder = false
      ∧ railed.resetOrder = false ∧ railed.rtc.resetN = false ∧ railed.rtc.alive = true ∧ railed.e0Runs = true ∧ railed.rtc.deliveryAt = none
      ∧ railed.seq.hedge = false ∧ railed.anyRail = true ∧ live.anyRail = false ∧ live.seq.railStep = 0 ∧ live.e0Runs = true
      ∧ ({ live with rtc := { live.rtc with deliveryAt := some 3 } } : State).rtc.deliveryAt.isSome = true
      ∧ (let s : State := { live with seq := { live.seq with hedge := true, hedgeStep := 3 } }
         s.seq.hedge = true ∧ s.seq.hedgeStep ≠ 6 ∧ s.e0Runs = true ∧ s.rtc.deliveryAt = none)
      ∧ State.reset.e0Runs = false ∧ dormant.e0Runs = false
      ∧ ({ live with rtc := { live.rtc with alive := false } } : State).rtc.alive = false
      ∧ (let s : State := { dormant with rtc := { dormant.rtc with resetN := true }, up := { dormant.up with stage := .held }
                                         tree := { dormant.tree with vinValid := true } }
         s.rtc.resetN = true ∧ s.rtc.alive = true ∧ s.up.stage = .held ∧ s.clock.xtalOk = true ∧ s.supplied = true)
      ∧ dormant.supplied = false ∧ live.up.stage ≠ .held := by decide +kernel

/-! ### Rails, plans and power states -/

def nextDrop (s : State) : Option Nat :=
  (List.range 10).find? (fun j => decide (s.seq.railStep < j) && s.enabled (if j = 1 then 8 else downRail j))

theorem test_meets_RailSteps :
    (∀ k ∈ [1, 8], (stepped true k).railRising = true ∧ (stepped true k).seq.lone = false ∧ (stepped true k).recording = true ∧ (stepped true k).anyRail = true
        ∧ (stepped true k).flt.injecting = [])
      ∧ (∀ k ∈ [2, 8], (stepped false k).railFalling = true ∧ (stepped false k).seq.lone = false
        ∧ (stepped false k).recording = true ∧ nextDrop (stepped false k) = some (k + 1))
      ∧ (∀ b ∈ [true, false],
        let s : State := { stepped b 4 with seq := { (stepped b 4).seq with lone := true } }
        (if b then s.railRising else s.railFalling) = true ∧ s.seq.lone = true ∧ s.anyRail = true ∧ s.flt.injecting = [])
      ∧ (setBit (stepped false 8).seq.stuckRails (downRail 8) false).toNat % 64 = 0
      ∧ (let s : State := { stepped false 9 with seq := { (stepped false 9).seq with enable := Trip.all 0, acted := 0 } }
         s.railFalling = true ∧ s.seq.after = .nothing ∧ nextDrop s = none)
      ∧ ({ stepped false 9 with seq := { (stepped false 9).seq with vglHold := true } } : State).seq.vglHold = true := by
  decide +kernel

def planned (l : List PlanStep) (a : Aux) : State :=
  { live with seq := { live.seq with run := .powerUp, steps := l }, tree := { live.tree with aux := Vector.replicate 4 a } }

def aux0 : Aux := vget live.tree.aux 0

theorem test_meets_PlanSteps :
    (let s := planned [.aux 3, .delay 20] { aux0 with ramp := .up 9 }
     s.seq.run = .powerUp ∧ s.seq.steps = [.aux 3, .delay 20] ∧ (vget s.tree.aux 3).ramp = .up 9 ∧ s.flt.injecting = [])
      ∧ (let s := planned [.delay 5, .aux 0] { aux0 with en := true, latched := false, running := false }
         s.seq.steps = [.delay 5, .aux 0] ∧ (vget s.tree.aux 0).en = true ∧ (vget s.tree.aux 0).latched = false
           ∧ (vget s.tree.aux 0).running = false)
      ∧ (let s : State := { live with tree := { live.tree with aux := Vector.replicate 4 { aux0 with ramp := .up 9 } } }
         s.planAwaits = none ∧ firstTo 4 (fun k => (vget s.tree.aux k).riseEnd.isSome) = some 0
           ∧ s.flt.injecting = [])
      ∧ (let s : State := { live with tree := { live.tree with aux := Vector.replicate 4 { aux0 with ramp := .down 9 } } }
         s.seq.run = .none ∧ s.seq.tail = 0 ∧ (vget s.tree.aux 3).ramp = .down 9) := by decide +kernel

theorem test_meets_EntriesCommit :
    (let s : State := { scanning 2080 with pwr := { live.pwr with st := .enterHold } }
     s.pwr.st = .enterHold ∧ s.commitDue = true ∧ s.anyRail = true ∧ s.flt.dark = false ∧ s.flt.injecting = []
       ∧ s.drillsKeep = true ∧ s.dieAtLeast 2000 = false ∧ s.mem.ageWait = none)
      ∧ (let s : State := { scanning 2080 with pwr := { live.pwr with st := .enterDormant } }
         s.pwr.st = .enterDormant ∧ s.commitDue = true ∧ s.anyRail = true ∧ s.flt.dark = false ∧ s.flt.injecting = []
       ∧ s.drillsKeep = true ∧ s.dieAtLeast 2000 = false ∧ s.mem.ageWait = none)
      ∧ (let s : State := { live with pwr := { live.pwr with st := .ret, retAt := some 8 } }
         s.pwr.st = .ret ∧ s.pwr.retAt = some 8 ∧ s.up.firstUp = false ∧ s.flt.react = none ∧ s.tree.pg = 0 ∧ s.seq.skip = 0) := by
  decide +kernel

theorem test_meets_SupervisorsFire :
    railed.recording = true ∧ railed.rtc.deliveryAt = none ∧ railed.tree.pg.getLsbD 7 = true ∧ vget railed.seq.blankTo 7 ≤ railed.now
      ∧ railed.enabled 0 = true ∧ vget railed.seq.blankOv 0 ≤ railed.now ∧ live.tree.pg.getLsbD 0 = false ∧ live.enabled 7 = false
      ∧ State.reset.up.stage ≠ .complete ∧ railed.up.stage = .complete ∧ railed.flt.dark = false ∧ railed.seq.hedge = false
      ∧ railed.resetOrder = false ∧ railed.anyRail = true ∧ live.anyRail = false ∧ live.seq.railStep = 0 := by decide +kernel

theorem test_meets_AuxAndLightEvents :
    (let s := planned [] { aux0 with running := true, pg := true, armed := true }
     let x := vget s.hedgeDue.tree.aux 3
     (x.running && x.armed) = true ∧ x.blankTo ≤ s.now ∧ s.recording = true ∧ x.falling = false)
      ∧ (let s : State := { planned [.aux 3, .delay 5] { aux0 with running := true, armed := true, ramp := .down 8 } with
           seq := { live.seq with run := .holdDrop, steps := [.aux 3, .delay 5] } }
         let x := vget s.hedgeDue.tree.aux 3
         s.seq.run = .holdDrop ∧ s.seq.steps = [.aux 3, .delay 5] ∧ (x.running && x.armed) = true ∧ x.ramp = .down 8)
      ∧ (vget live.hedgeDue.tree.aux 0).armed = false ∧ (vget live.hedgeDue.tree.led 7).driven live.now = false
      ∧ (let l := vget live.tree.led 0
         let s : State := { live with tree := { live.tree with led := Vector.replicate 8 { l with on := true, soft := none } } }
         (vget s.hedgeDue.tree.led 7).driven s.now = true ∧ (vget s.tree.led 7).softNow s.now = false)
      ∧ (let l := vget live.tree.led 0
         let s : State := { live with tree := { live.tree with led := Vector.replicate 8 { l with on := true, soft := some 6 } } }
         (vget s.tree.led 7).soft = some 6 ∧ s.flt.injecting = []) := by decide +kernel

/-! ### Clock, start-up, reactions -/

theorem test_meets_HedgeTakesOver :
    (let s : State := { railed with seq := { railed.seq with kickAt := some 4 } }
     s.seq.kickAt = some 4 ∧ s.e0Runs = true ∧ s.seq.hedge = false ∧ s.anyRail = true)
      ∧ ({ railed with seq := { railed.seq with kickAt := some 4, hedge := true } } : State).seq.hedge = true
      ∧ railed.rtc.alive = true ∧ railed.clock.xtalOk = true ∧ railed.clock.pllLock = true
      ∧ (let s : State := { State.reset with up := { State.reset.up with stage := .boot }, clock := live.clock }
         s.clock.pllLock = true ∧ s.e0Runs = false ∧ s.recording = true)
      ∧ live.link.serving = [] ∧ live.clock.relock ≠ .running
      ∧ ({ live with clock := { live.clock with relock := .running, pllLock := false } } : State).clock.relock = .running
      ∧ ¬ ((1#9) = 1 ∧ (1#9) = 3) ∧ live.enableChanges 0 = []
      ∧ live.enableChanges 0x80 = [7] ∧ live.enableLegal 0x80 = true
      ∧ live.otp.openings = 0 ∧ live.otp.commitTo = none ∧ live.otp.healDue = false
      ∧ railed.enableChanges 0xFF = [8]
      ∧ (let s : State := { railed with seq := { railed.seq with enable := Trip.all 0x80, acted := 0x80 } }
         s.enableChanges 0 = [7] ∧ s.enableLegal 0 = true)
      ∧ (let s : State := { railed with seq := { railed.seq with enable := Trip.all 0x80, acted := 0x80, stuckRails := 1 } }
         s.enableChanges 0 = [7] ∧ s.enableLegal 0 = true ∧ s.sourcesHeld = true)
      ∧ railed.enableLegal 0xFF = true
      ∧ (let s : State := { railed with seq := { railed.seq with enable := Trip.all 0xFF, acted := 0xFF } }
         s.enableChanges 0x1FF = [8] ∧ s.enableLegal 0x1FF = true)
      ∧ railed.enableLegal 0x1FE = false ∧ railed.seq.phase ≠ .delivery
      ∧ live.enableLegal 1 = false ∧ live.rtc.deliveryAt = none := by decide +kernel

theorem test_meets_StartUpSteps :
    (let s : State := { State.reset with tree := live.tree }
     s.rtc.alive = true ∧ s.clock.xtalOk = false ∧ s.up.stage = .wait ∧ s.rtc.resetN = false ∧ s.seq.hedge = false
       ∧ s.tree.vinValid = true)
      ∧ (starting .otp).up.stage = .otp ∧ (starting .straps).up.stage = .straps ∧ (starting .pll).clock.xtalOk = true
      ∧ (starting .boot).flt.sticky0 = 0 ∧ (starting .boot).flt.sticky1 = 0
      ∧ (starting .e0).clock.pllLock = true ∧ (starting .e0).seq.hedge = false ∧ (starting .e0).patchesOk = true
      ∧ (let s : State := { starting .e0 with otp := { State.reset.otp with patch := 1 } }
         s.patchesOk = true ∨ s.patchesOk = false)
      ∧ (starting .linkWait).seq.hedge = false
      ∧ (let s : State := { starting .plan with up := { State.reset.up with stage := .plan, planDone := true } }
         s.up.planDone = true ∧ s.seq.hedge = false ∧ s.resetOrder = false ∧ s.abandoned = false ∧ s.bin 8 = 15
           ∧ s.rw.recheck = false ∧ s.rw.requestDue = none) := by decide +kernel

def reacting (st : ReactStage) (waits later : List Nat) : State :=
  let r : Reacting := { level := .safe, fault := 0, stage := st, at_ := 3, repair := false, later := later, waits := waits }
  { live with flt := { live.flt with react := some r } }

theorem test_meets_ReactionsEnd :
    (let s : State := { reacting .toDecision [6] [] with tree := { live.tree with vinOv := true } }
     s.flt.react.any (fun r => (r.later.filter s.condition).isEmpty && s.mustWait r && !r.repair) = true
       ∧ s.pwr.st ≠ .enterDormant)
      ∧ (let s := reacting .toDecision [6] []
         s.flt.react.any (fun r => (r.later.filter s.condition).isEmpty && !s.mustWait r) = true ∧ s.pwr.st = .run
           ∧ s.tree.railsUp = false ∧ s.seq.railStep = 0 ∧ s.up.planDone = true ∧ s.tree.pg = 0 ∧ s.seq.skip = 0)
      ∧ (let s : State := { reacting .toDecision [6] [] with seq := { live.seq with railStep := 3, rising := true } }
         s.flt.react.any (fun r => (r.later.filter s.condition).isEmpty && !s.mustWait r && r.stage == .toDecision) = true
           ∧ s.tree.railsUp = false ∧ s.seq.railStep ≠ 0 ∧ s.seq.rising = true)
      ∧ (let s : State := { reacting .toDecision [0] [6] with tree := { live.tree with vinOv := true } }
         let u : State := { s with flt := { s.flt with history := [0, 0] } }
         u.flt.react.any (fun r => !(r.later.filter u.condition).isEmpty) = true
           ∧ ({ u with now := max u.now (3 + 201327) } : State).thirdSoon = true)
      ∧ (let s := reacting .frame [0] []
         s.flt.react.any (fun r => (r.later.filter s.condition).isEmpty) = true ∧ s.flt.dark = false ∧ s.seq.hedge = false)
      ∧ (let s : State := { reacting .frame [0] [6] with tree := { live.tree with vinOv := true } }
         s.flt.react.any (fun r => r.later.filter s.condition == [6]) = true ∧ [6].mergeSort (fun a b : Nat => decide (a ≤ b)) = [6]
           ∧ s.rtc.deliveryAt = none ∧ s.pwr.st ≠ .enterDormant
           ∧ ({ s with now := max s.now (3 + s.frameTime) } : State).thirdSoon = false)
      ∧ ReactStage.railDown ≠ .toDecision ∧ ReactStage.railDown ≠ .frame := by decide +kernel

/-! ### Window, calendar, delivery -/

def zeros : List Byte := List.replicate 16 0
def recordFront : List Byte := [0x3C, 0xC3, 0x03, 0x01]

/-- All of a record of type IDLE with no text, but its CRC. -/
def recordHead : List Byte := recordFront ++ (zeros ++ (zeros ++ (zeros ++ (zeros ++ zeros))))

theorem test_crc_head : recordFront.foldl crc32Byte 0xFFFFFFFF#32 = 0xAB852CB6#32 := by decide +kernel
theorem test_crc_zeros0 : zeros.foldl crc32Byte 0xAB852CB6#32 = 0xC0490647#32 := by decide +kernel
theorem test_crc_zeros1 : zeros.foldl crc32Byte 0xC0490647#32 = 0x03756670#32 := by decide +kernel
theorem test_crc_zeros2 : zeros.foldl crc32Byte 0x03756670#32 = 0x6CA493EE#32 := by decide +kernel
theorem test_crc_zeros3 : zeros.foldl crc32Byte 0x6CA493EE#32 = 0x9D54E8D1#32 := by decide +kernel
theorem test_crc_zeros4 : zeros.foldl crc32Byte 0x9D54E8D1#32 = 0x941A6AEB#32 := by decide +kernel

/-- The CRC-32 of R179 over it, as IEEE 802.3's gives it. -/
theorem test_record_crc : crc32 recordHead = 0x6BE59514 := by
  have h : recordHead.foldl crc32Byte 0xFFFFFFFF#32 = 0x941A6AEB#32 := by
    unfold recordHead
    rw [List.foldl_append, test_crc_head, List.foldl_append, test_crc_zeros0, List.foldl_append, test_crc_zeros1, List.foldl_append,
      test_crc_zeros2, List.foldl_append, test_crc_zeros3, test_crc_zeros4]
  rw [crc32, h]
  decide

def blankRecord : Record := recordHead ++ [0x14, 0x95, 0xE5, 0x6B]
def damagedRecord : Record := recordHead ++ [0, 0, 0, 0]

theorem test_record_checks : recCrcOk blankRecord = true ∧ recCrcOk damagedRecord = false := by
  constructor
  · rw [recCrcOk, show blankRecord.take (84 + recLen blankRecord) = recordHead by decide +kernel, test_record_crc]
    decide +kernel
  · rw [recCrcOk, show damagedRecord.take (84 + recLen damagedRecord) = recordHead by decide +kernel, test_record_crc]
    decide +kernel

/-- Records of epoch 1 with SEQ 9, of type IDLE and of type LIVE with session 7, signed with the private key of RFC 6979's A.2.5. -/
def signedIdle : Record :=
  [0x3c, 0xc3, 0x03, 0x01, 0x09, 0x00, 0x00, 0x00, 0x00, 0x00, 0x00, 0x00, 0x00, 0x00, 0x00, 0x00, 0x00, 0x00, 0x00, 0x00,
    0x17, 0xcc, 0x0c, 0xc0, 0xe1, 0x3e, 0xd5, 0x8f, 0xed, 0x5f, 0xdf, 0x41, 0x0c, 0xd2, 0x14, 0xfa, 0x61, 0x6e, 0xfe, 0x88,
    0x47, 0x9a, 0x15, 0x43, 0xa6, 0xaa, 0x53, 0xb8, 0x9f, 0xd4, 0x70, 0xdb, 0xd1, 0x14, 0x5e, 0xa2, 0xa9, 0xe8, 0x7a, 0x0b,
    0x9b, 0xc2, 0xc3, 0x08, 0x4a, 0x57, 0x36, 0xa6, 0x51, 0x12, 0xe8, 0xca, 0x40, 0xf6, 0xb0, 0x90, 0xd9, 0xfd, 0x36, 0xdd,
    0x1a, 0x97, 0x15, 0x54, 0x9c, 0x12, 0x4c, 0xa6]
def signedLive : Record :=
  [0x3c, 0xc3, 0x01, 0x01, 0x09, 0x00, 0x00, 0x00, 0x07, 0x00, 0x00, 0x00, 0x00, 0x00, 0x00, 0x00, 0x00, 0x00, 0x00, 0x00,
    0x17, 0xcc, 0x0c, 0xc0, 0xe1, 0x3e, 0xd5, 0x8f, 0xed, 0x5f, 0xdf, 0x41, 0x0c, 0xd2, 0x14, 0xfa, 0x61, 0x6e, 0xfe, 0x88,
    0x47, 0x9a, 0x15, 0x43, 0xa6, 0xaa, 0x53, 0xb8, 0x9f, 0xd4, 0x70, 0xdb, 0x38, 0x72, 0x52, 0x76, 0xd6, 0x92, 0xba, 0xcd,
    0xd3, 0xea, 0x55, 0xc9, 0x2d, 0xd6, 0xce, 0xb7, 0x95, 0xed, 0x8e, 0x3c, 0x46, 0x78, 0x14, 0x1c, 0xb6, 0x0c, 0xea, 0x17,
    0x8f, 0x12, 0x93, 0x87, 0x9c, 0xba, 0xe4, 0xc1]

/-- A device that holds that key. -/
def keyed : State :=
  { live with rw := { live.rw with
      key := some (0x60FED4BA255A9D31C961EB74C6356D68C049B8923B61FA6CE669622E60F29FB6,
                   0x7903FE1008B8BC99A41AE9E95628BC64F2F1B20C2D7E9F5177A3C294D4462299) } }

theorem test_signed_idle : keyed.sigOk signedIdle = true ∧ recType signedIdle ≠ 1 := by decide +kernel

theorem test_signed_live : keyed.sigOk signedLive = true ∧ recType signedLive = 1 ∧ keyed.rw.session ≠ some (wd (recSession signedLive))
    ∧ keyed.rtc.liveOk = false ∧ ({ keyed with rw := { keyed.rw with session := some 7 } } : State).rw.session
      = some (wd (recSession signedLive)) := by decide +kernel

theorem test_meets_RecordsChecked :
    live.portLive = true ∧ live.rw.rx = [] ∧ live.rw.checking = none ∧ live.rw.requestWaits = false
      ∧ live.rw.txUntil ≤ live.now ∧ live.rw.recheck = false
      ∧ ({ live with rw := { live.rw with txUntil := 9 } } : State).now < 9
      ∧ byteAt blankRecord 0 = 0x3C ∧ byteAt blankRecord 1 = 0xC3 ∧ recLen blankRecord = 0 ∧ blankRecord.length = 88
      ∧ recLen damagedRecord = 0 ∧ byteAt damagedRecord 1 = 0xC3 ∧ damagedRecord.length = 88 ∧ State.reset.portLive = false
      ∧ live.recordArriving = false
      ∧ (let s : State := { live with rw := { live.rw with checking := some (blankRecord, some 0x11, 5) } }
         s.portLive = true ∧ s.rw.waiting = none ∧ (0x11#8) ≠ 0x17)
      ∧ (let s : State := { live with rw := { live.rw with checking := some (blankRecord, none, 5) } }
         s.sigOk blankRecord = false ∧ recType blankRecord ≠ 1)
      ∧ (let s : State := { live with rw := { live.rw with writes := [(blankRecord, 7)] } }
         s.rw.writes = [(blankRecord, 7)] ∧ s.clocked = true ∧ s.keptSlot = none) := by decide +kernel

/-- The window of the smallest descriptor, its status WAIT. -/
def windowed : State :=
  { live with rw := { live.rw with present := true, epoch := 1, key := some (1, 1) } }

theorem test_meets_WindowEvents :
    (let s : State := { windowed with rw := { windowed.rw with requestDue := some 4 } }
     s.rw.requestDue = some 4 ∧ s.portLive = true ∧ s.requestHolds = true ∧ s.recordArriving = false)
      ∧ (let s : State := { windowed with rw := { windowed.rw with requestDue := some 4, rx := [0x3C, 0xC3] } }
         s.requestHolds = true ∧ s.recordArriving = true ∧ s.portLive = true)
      ∧ live.requestHolds = false
      ∧ (let s : State := { live with rw := { live.rw with typesetting := some (4, #[true]) } }
         s.rw.typesetAgain = false ∧ s.clocked = true ∧ (s.pgh_ 0).state ≠ .running)
      ∧ (let s : State := { holed 0 { Pgh.free with state := .running } with rw := { live.rw with typesetting := some (4, #[]) } }
         (s.pgh_ 0).state = .running)
      ∧ (let s : State := { windowed with rw := { windowed.rw with session := some 3, desc := Vector.replicate 8 0x2000 } }
         s.rw.session.isSome = true ∧ s.staleSeconds = 1 ∧ s.rw.stale = false ∧ s.portLive = true ∧ s.rw.checking = none ∧ s.lcNow ≠ 3
           ∧ s.rw.poff = false ∧ s.rw.epoch ≠ 0 ∧ s.rw.key.isSome = true ∧ s.rw.failed = false)
      ∧ (let k : KeptSlot := { record := blankRecord, floor := 7, marker := true, age := 1 }
         let s : State := { windowed with rw := { windowed.rw with recheck := true }, rtc := { live.rtc with kept1 := k } }
         s.rw.recheck = true ∧ s.clocked = true ∧ s.keptSlot = some k) := by decide +kernel

theorem test_meets_CalendarAndReserve :
    live.rtc.alive = true ∧ live.clock.xtalOk = true ∧ live.rtc.dst = 0 ∧ live.rtc.dstNew = 0 ∧ live.rtc.cal.sec < 59 ∧ live.rtc.cal.hour < 24
      ∧ live.rtc.period ≠ 63 ∧ State.reset.clock.xtalOk = false ∧ live.tree.vinValid = true ∧ live.rtc.testing = none
      ∧ live.rtc.deliveryAt = none ∧ live.bakBin = 15 ∧ bakSuper live.bakBin = false ∧ bakSuper 9 = true ∧ live.rtc.gaugeAt = none
      ∧ ({ live with rtc := { live.rtc with gaugeAt := some 3 } } : State).rtc.gaugeAt = some 3
      ∧ ({ live with rtc := { live.rtc with testing := some 3 } } : State).rtc.testing = some 3
      ∧ ({ live with rtc := { live.rtc with charging := true } } : State).rtc.charging = true
      ∧ (let b := vset live.strap.bins 8 (Trip.all 9)
         let s : State := { live with strap := { live.strap with bins := b }, rtc := { live.rtc with full := true } }
         s.rtc.full = true ∧ s.chargerOn = true ∧ s.nimh = false)
      ∧ dormant.tree.vinValid = false ∧ dormant.rtc.alive = true ∧ dormant.otp.op = none := by decide +kernel

theorem test_meets_DeliveryAndRunEnd :
    (let s : State := { railed with rtc := { live.rtc with deliveryAt := some 4 } }
     s.rtc.deliveryAt = some 4 ∧ s.rtc.deliveryDone = false ∧ s.scan.scanning = false ∧ s.seq.hedge = false
       ∧ s.flt.dark = false ∧ s.anyRail = true)
      ∧ (let s : State := { scanning 40 with rtc := { live.rtc with deliveryAt := some 4 } }
         s.rtc.deliveryAt = some 4 ∧ s.scan.scanning = true)
      ∧ (let s : State := { scanning 40 with rtc := { live.rtc with backupRun := true, runDoneAt := some 4 }
                                             pgh := (holed 0 { Pgh.free with state := .done }).pgh }
         s.rtc.backupRun = true ∧ s.e0Runs = true ∧ s.pwr.st ≠ .enterDormant ∧ s.seq.hedge = false ∧ s.flt.dark = false
           ∧ s.scan.scanning = true ∧ (s.pgh_ 0).state = .done ∧ s.rtc.runDoneAt = some 4 ∧ s.rtc.deliveryAt = none
           ∧ s.seqIdle = true)
      ∧ (let s : State := { starting .boot with rtc := { State.reset.rtc with backupRun := true }, tree := State.reset.tree }
         s.rtc.backupRun = true ∧ s.e0Runs = false ∧ s.pwr.st ≠ .enterDormant ∧ s.seq.hedge = false ∧ s.flt.dark = false
           ∧ s.rtc.deliveryAt = none ∧ s.rtc.resetN = false ∧ s.rtc.resetDue = false ∧ s.tree.vinValid = false
           ∧ s.pwr.held = false ∧ s.pwr.heldAlarm = 0)
      ∧ (live.pgh_ 0).state ≠ .done ∧ live.rtc.backupRun = false := by decide +kernel

/-! ### One step of a command -/

/-- HELLO opens the link in the highest version both sides have. -/
theorem test_hello_opens :
    (match exec (.hello hello) { live with link := State.reset.link } with
     | .next t => t.link.version
     | _ => 0) = 3 := by decide +kernel

/-- A PENDING pigeonhole that is cancelled is DONE with CANCELLED. -/
theorem test_cancel_pending :
    (match exec (.pghCancel all .indexed) (holed 1 { Pgh.free with state := .pending }) with
     | .next t => ((t.pgh_ 1).state == .done) && (t.pgh_ 1).cancelled
     | _ => false) = true := by decide +kernel

/-- Power-good of VGL begins the next rail of R329. -/
theorem test_rail_up_goes_on :
    (match exec .railPowerGood { stepped true 1 with tree := { railed.tree with pg := 0 } } with
     | .next t => t.seq.railStep
     | _ => 0) = 2 := by decide +kernel

end Sys2Proof.Tests
end

section
/-! PROOFS. R80 holds after every step: an idle pixel's TARGET is its CURRENT, both a known state or both 31. -/

namespace Sys2Proof.Machine

/-- TARGET is the five highest bits of a 20-bit word (R78). -/
theorem pixelOf_target_lt (w : PixelWord) : (pixelOf w).target < 32 := by
  have bits : w.toNat < 2 ^ 20 := w.isLt
  show w.toNat >>> 15 < 32
  rw [Nat.shiftRight_eq_div_pow]
  omega

/-- What R80 draws from the agreement: 31 is the one value above the known states, so the two fields are known or unknown together. -/
theorem pixel_known_or_unknown {w : PixelWord} (agree : (pixelOf w).target = (pixelOf w).current) :
    ((pixelOf w).target ≤ 30 ∧ (pixelOf w).current ≤ 30) ∨ ((pixelOf w).target = 31 ∧ (pixelOf w).current = 31) := by
  have := pixelOf_target_lt w
  omega

/-- A step from a calm state leaves the idle pixels agreed: the queue's loss of its front touches no memory, and what the command does
is `Key.Goes`. -/
theorem step_keeps_idleOk {s t : State} (memory : s.memoryOk = true) (idle : s.idleOk) (low : s.flipsLow) (h : step s = .next t) :
    t.idleOk := by
  have calmBefore : ({s with pending := t.pending} : State).key.calm s.frontFlips := calm_of memory idle low
  have calmAfter : t.key.calm [] := (step_goes s t h).idle calmBefore
  obtain ⟨_, _, agree, _⟩ := calmAfter
  exact idleOk_of agree

/-- Settles O5: the agreement is kept by every command (`step_goes`), and a five-bit field that is no known state is 31. -/
theorem idlePixelsAgree : Obligations.IdlePixelsAgree := by
  intro s t memory idle low h
  have after := step_keeps_idleOk memory idle low h
  exact ⟨after, fun k inactive => pixel_known_or_unknown (after k inactive)⟩

end Sys2Proof.Machine
end

section
/-! PROOFS. The backup domain comes alive from no supply with the values of R423, and a start-up whose critical block passes its
check delivers the crystal curve (R456). -/

namespace Sys2Proof.Machine

/-! ### Coming alive (R423) -/

section
variable {s : State} (vin : Bool) (dead : s.rtc.alive = false)
include dead

/-- The backup domain takes its reset values; what no supply keeps is the crystal curve and what the leads VBAK and RESET_N show. -/
theorem State.backupAlive_rtc : (s.backupAlive vin).rtc =
    { RtcState.reset with comp := s.rtc.comp, aliveAt := s.now, secondAt := s.now, vbakConn := s.rtc.vbakConn || !vin, onBackup := !vin
                          resetN := s.rtc.resetN } := by
  simp [State.backupAlive, dead]

theorem State.backupAlive_pwr : (s.backupAlive vin).pwr = PwrState.reset := by simp [State.backupAlive, dead]

theorem State.backupAlive_seq : (s.backupAlive vin).seq = SeqState.reset := by simp [State.backupAlive, dead]

theorem State.backupAlive_vinValid : (s.backupAlive vin).tree.vinValid = vin := by simp [State.backupAlive, dead]

end

/-- Time, the memories, the OTP, the link and the fault unit are no part of it. -/
theorem State.backupAlive_frame (s : State) (vin : Bool) : (s.backupAlive vin).now = s.now ∧ (s.backupAlive vin).mem = s.mem
    ∧ (s.backupAlive vin).otp = s.otp ∧ (s.backupAlive vin).link = s.link ∧ (s.backupAlive vin).flt = s.flt := by
  unfold State.backupAlive
  split <;> simp

/-! ### The crystal curve at a start-up (R456) -/

theorem State.openingAtDelivery_rtc (s : State) : s.openingAtDelivery.rtc = s.rtc := by
  unfold State.openingAtDelivery
  split <;> rfl

/-- The check reads nothing but the factory region: the moment of the delivery and the words latched do not bear on it (R457). -/
theorem State.criticalOk_latched {s : State} {l : List (Fin 13312)} (ok : (s.senseFactory l).criticalOk = true) (t : Nat)
    (trims : List Word) : ({ (s.reach t).senseFactory l with otp.trims := trims } : State).criticalOk = true := ok

/-- A start-up whose critical block passes its check delivers the curve of the words just sensed. -/
theorem State.delivered_comp {s : State} {d : DeliverySense} (sensing : s.up.stage = .otp)
    (ok : (s.senseFactory d.flips).criticalOk = true) :
    (s.delivered d).rtc.comp = Config.rtcComp ((List.range 63).map (s.senseFactory d.flips).factoryValue) := by
  unfold State.delivered
  rw [if_pos sensing]
  dsimp only
  rw [State.criticalOk_latched ok, if_neg (by decide), State.openingAtDelivery_rtc]
  rfl

/-- Settles O8: coming alive puts the reset values in the backup domain, the sequencer and the power states (`backupAlive_rtc`,
`backupAlive_seq`, `backupAlive_pwr`), and a passed check at the next start-up delivers the curve (`delivered_comp`). -/
theorem backupComesAlive : Obligations.BackupComesAlive := by
  refine ⟨fun s vin dead => ⟨(s.backupAlive vin).chargeFollow, rfl, ?_⟩,
    fun s d sensing ok => ⟨s.delivered d, rfl, State.delivered_comp sensing ok⟩⟩
  obtain ⟨now, mem, otp, link, flt⟩ := s.backupAlive_frame vin
  simp [State.backupAlive_rtc vin dead, State.backupAlive_pwr vin dead, State.backupAlive_seq vin dead,
    State.backupAlive_vinValid vin dead, now, mem, otp, link, flt, RtcState.reset, PwrState.reset, SeqState.reset, KeptSlot.reset]

end Sys2Proof.Machine
end

section
/-! PROOFS. What every step keeps: the queue, the canonical form of the memories, and the cells of the one-time-programmable memory,
which only ever gain. Each is read off `exec_goes` and `step_goes`. -/

namespace Sys2Proof.Machine

/-! ### The queue -/

/-- Settles O1: `step` is `exec` of the queue's front, or one idle cycle. -/
theorem queueRuns : Obligations.QueueRuns := by
  refine ⟨fun _ _ _ => rfl, fun s idle => ?_⟩
  have ticks : step s = .next s.tick := by simp only [step, idle]
  exact ticks

/-- Settles O2: the queue is one of the parts that every command keeps (`exec_goes`). -/
theorem noCommandTouchesQueue : Obligations.NoCommandTouchesQueue := by
  intro c s t h
  exact (exec_goes c s t h).queue

/-! ### The memories -/

theorem memoryOk_iff (s : State) : s.memoryOk = true ↔
    swf unknownWord s.mem.pixels = true ∧ swf 0 s.mem.ledger = true ∧ swf 0 s.mem.flips = true ∧ swf 0 s.mem.ledgerFlip = true
      ∧ swf default s.otp.words = true ∧ swf Thermo.blank s.otp.thermo = true := by
  simp [State.memoryOk, and_assoc]

/-- Settles O3: every memory of the reset state is empty, an idle pixel of an empty frame store reads unknown in both fields. -/
theorem resetMeetsInvariants : Obligations.ResetMeetsInvariants :=
  ⟨rfl, idleOk_of (fun _ none => absurd none (by simp [State.reset, MemState.reset])), rfl⟩

/-- Settles O4: each memory's canonical form is one of the parts that a step keeps (`step_goes`). -/
theorem memoryStaysCanonical : Obligations.MemoryStaysCanonical := by
  intro s t ok h
  have kept := step_goes s t h
  obtain ⟨pixels, ledger, flips, cells, words, thermo⟩ := (memoryOk_iff s).1 ok
  exact (memoryOk_iff t).2 ⟨kept.pixels pixels, kept.ledger ledger, kept.flips flips, kept.cells cells, (kept.words words).1,
    kept.thermo thermo⟩

/-! ### The one-time-programmable cells -/

/-- Settles O7: a canonical list of words keeps its programmed bits in a step (`wordsKept`). -/
theorem otpWordsOnlyGain : Obligations.OtpWordsOnlyGain := by
  intro s t w i ok h one
  obtain ⟨_, _, _, _, words, _⟩ := (memoryOk_iff s).1 ok
  exact ((step_goes s t h).words words).2 w i one

/-- A counter's value is a bound over the steps whose logical bit reads 1 (R449). -/
theorem counterFold_le (c m n : Nat) (l : SMap Thermo) :
    l.foldl (fun m x => if counterBase c ≤ x.1 ∧ x.1 < counterBase c + counterSteps c ∧ x.2.reads then max m (x.1 - counterBase c + 1)
      else m) m ≤ n
      ↔ m ≤ n ∧ ∀ k, counterBase c ≤ k → k < counterBase c + counterSteps c → readsOne l k → k - counterBase c + 1 ≤ n := by
  induction l generalizing m with
  | nil => simp [readsOne]
  | cons x l ih =>
    have split : ∀ k, readsOne (x :: l) k ↔ (x.1 = k ∧ x.2.reads = true) ∨ readsOne l k := fun k => by simp [readsOne]
    rw [List.foldl_cons, ih]
    simp only [split]
    by_cases step : counterBase c ≤ x.1 ∧ x.1 < counterBase c + counterSteps c ∧ x.2.reads = true
    · rw [if_pos step, Nat.max_le, and_assoc]
      refine and_congr_right fun _ => ⟨fun ⟨here, rest⟩ k lo hi one => ?_, fun all => ⟨all _ step.1 step.2.1 (.inl ⟨rfl, step.2.2⟩),
        fun k lo hi one => all k lo hi (.inr one)⟩⟩
      rcases one with ⟨rfl, _⟩ | one
      · exact here
      · exact rest k lo hi one
    · rw [if_neg step]
      refine and_congr_right fun _ => ⟨fun rest k lo hi one => ?_, fun all k lo hi one => all k lo hi (.inr one)⟩
      rcases one with ⟨rfl, one⟩ | one
      · exact absurd ⟨lo, hi, one⟩ step
      · exact rest k lo hi one

/-- Cells that only gain never lower a counter. -/
theorem counterCells_mono {s t : State} (c : Nat) (ones : ∀ k, readsOne s.otp.thermo k → readsOne t.otp.thermo k) :
    s.counterCells c ≤ t.counterCells c := by
  have bound := (counterFold_le c 0 (t.counterCells c) t.otp.thermo).1 (Nat.le_refl _)
  exact (counterFold_le c 0 (t.counterCells c) s.otp.thermo).2 ⟨Nat.zero_le _, fun k lo hi one => bound.2 k lo hi (ones k one)⟩

/-- A raise in progress can only show more than the cells hold (R450). -/
theorem counterCells_le_counter (s : State) (c : Nat) : s.counterCells c ≤ s.counter c := by
  unfold State.counter
  split
  · split
    · exact Nat.le_max_left _ _
    · exact Nat.le_refl _
  · exact Nat.le_refl _

/-- With no raise shown a counter reads what its cells hold (R449). -/
theorem counter_of_notShown {s : State} (c : Nat) (shown : s.raiseShown = false) : s.counter c = s.counterCells c := by
  unfold State.counter
  split
  · rw [if_neg (by simp [shown])]
  · rfl

/-- Settles O6: logical bits that read 1 still do after a step (`Key.Goes.ones`), so the cells' value never falls, and a counter
reads at least that. -/
theorem countersNeverFall : Obligations.CountersNeverFall := by
  intro s t c h
  have cells : s.counterCells c ≤ t.counterCells c := counterCells_mono c (step_goes s t h).ones
  have reads := counterCells_le_counter t c
  refine ⟨cells, reads, fun shown => ?_⟩
  rw [counter_of_notShown c shown]
  exact cells.trans reads

/-! ### Reset -/

/-- Settles O9: each value stands in the reset state, whose memories and pigeonholes are empty. -/
theorem resetValues : Obligations.ResetValues := by
  refine ⟨rfl, rfl, rfl, rfl, rfl, rfl, rfl, rfl, rfl, rfl, rfl, rfl, rfl, rfl, rfl, rfl, rfl, rfl, rfl, fun _ => rfl, fun _ => rfl,
    fun _ => rfl, rfl⟩

end Sys2Proof.Machine
end

section
/-! PROOFS. The main domains' reset, DORMANT and start-ups: what is kept and what begins (22_start_up, R354, R474, R480 to R482). -/

namespace Sys2Proof.Machine

/-! ### An operation on the cells is cut -/

/-- A cut pulses the cells and ends the operation; nothing else of the state moves. -/
theorem State.cutOp_eq (s : State) : s.cutOp =
    { s with free := s.cutOp.free
             otp := { s.otp with words := s.cutOp.otp.words, thermo := s.cutOp.otp.thermo, op := none } } := by
  unfold State.cutOp State.pulseOp State.draw
  cases h : s.otp.op with
  | none =>
    have same : s.otp = { s.otp with op := none } := by rw [← h]
    exact congrArg (fun o => ({ s with otp := o } : State)) same
  | some o => cases o <;> rfl

theorem State.cutOp_idle {s : State} (idle : s.otp.op = none) : s.cutOp = s := by
  simp [State.cutOp, idle]

/-! ### The main domains' reset (R32, R101, R474) -/

theorem State.mainReset_eq (s : State) : s.mainReset =
    { State.reset with
      pending := s.pending, now := s.now, free := s.cutOp.free, rtc := s.rtc
      otp := { OtpState.reset with words := s.cutOp.otp.words, thermo := s.cutOp.otp.thermo, factory := s.otp.factory
                                   supplyOk := s.otp.supplyOk }
      pwr := { PwrState.reset with wake := s.pwr.wake, mHouse := s.pwr.mHouse, mPostA := s.pwr.mPostA, mPostB := s.pwr.mPostB
                                   mBak := s.pwr.mBak }
      seq := { SeqState.reset with hedgeStep := s.seq.hedgeStep, hedgeCause := s.seq.hedgeCause }
      tree := { TreeState.reset with vinValid := s.tree.vinValid, vinOv := s.tree.vinOv
                                     startReg := s.tree.vinValid || s.rtc.backupRun }
      clock := { ClockState.reset with xtalOk := s.clock.xtalOk, xtalStopped := s.clock.xtalStopped }
      rw := { RwState.reset with sent := s.rw.sent } } := by
  unfold State.mainReset
  rw [State.cutOp_eq]

/-! ### A start-up (R480, R481) -/

/-- Supply and crystal are there and RESET_N is released: time zero can come. -/
def State.mayStart (s : State) : Bool := s.supplied && s.clock.xtalOk && !s.rtc.resetN && s.rtc.alive

/-- A start-up entered: the reset of the main domains, and time zero where it can come. -/
theorem State.enterStartup_eq (s : State) : s.enterStartup =
    { s.mainReset with
      acc.posted := if s.up.stage = .off then s.acc.posted else []
      up := { UpState.reset with stage := if s.mayStart then .otp else .wait, at_ := s.now }
      pwr := { s.mainReset.pwr with wake := if s.mayStart then s.rtc.causes else s.pwr.wake }
      rtc := if s.mayStart then { s.rtc with armed := false, causes := 0, path := s.rtc.path && !s.tree.vinValid
                                             isolated := s.rtc.isolated && !s.tree.vinValid, vinBack := false }
        else { s.rtc with armed := false } } := by
  unfold State.enterStartup State.tryTimeZero
  rw [State.mainReset_eq]
  by_cases h : s.mayStart = true
  · have starts : s.supplied = true ∧ s.clock.xtalOk = true ∧ s.rtc.resetN = false ∧ s.rtc.alive = true := by
      simpa [State.mayStart, and_assoc] using h
    obtain ⟨supplied, xtal, released, alive⟩ := starts
    rw [if_pos]
    · simp only [h, if_true]
    · exact ⟨rfl, supplied, xtal, by simp [released], alive⟩
  · rw [if_neg]
    · simp only [h, if_false, Bool.false_eq_true]
    · rintro ⟨-, supplied, xtal, released, alive⟩
      refine h ?_
      have supplied : s.supplied = true := supplied
      have released : s.rtc.resetN = false := by simpa using released
      have xtal : s.clock.xtalOk = true := xtal
      have alive : s.rtc.alive = true := alive
      simp [State.mayStart, supplied, xtal, released, alive]

end Sys2Proof.Machine
end

section
/-! PROOFS. The link: letters that fail order 1 or 2, HELLO, WHY, STAGE, UPDATE and RESTATE, collection rounds, and the link's own
events (16_novlet_link). -/

namespace Sys2Proof.Machine

/-! ### A letter begins, and fails an early order (R364, R365) -/

/-- A letter's start ends the round and the reply; the counters of NOV_ERR0, the record and the version stay. -/
theorem letterStart_link (s : State) : s.letterStart.link.errFrame = s.link.errFrame ∧ s.letterStart.link.errCrc = s.link.errCrc
    ∧ s.letterStart.link.gap = s.link.gap ∧ s.letterStart.link.letters = s.link.letters
    ∧ s.letterStart.link.recorded = s.link.recorded ∧ s.letterStart.link.version = s.link.version
    ∧ s.letterStart.link.reply = none ∧ s.letterStart.link.inRound = false := by
  unfold State.letterStart State.forgetReplies
  dsimp only
  split <;> exact ⟨rfl, rfl, rfl, rfl, rfl, rfl, rfl, rfl⟩

theorem receive_unframed {s : State} {l : Letter} (hears : s.hears l = true) (bad : l.framed = false) :
    s.receiveLetter l = { s.letterStart with link.errFrame := sat16 s.letterStart.link.errFrame 1 } := by
  simp [State.receiveLetter, hears, bad]

theorem receive_unsound {s : State} {l : Letter} (hears : s.hears l = true) (ok : l.framed = true) (bad : l.sound = false) :
    s.receiveLetter l = { s.letterStart with link.errCrc := sat16 s.letterStart.link.errCrc 1 } := by
  simp [State.receiveLetter, hears, ok, bad]

/-- The CRC finds one damaged byte of a body (R364). -/
theorem damaged_unsound {l : Letter} {i : Nat} {b : Byte} (ok : l.sound = true) (inside : i < l.body.length)
    (other : byteAt l.body i ≠ b) : ({ l with body := l.body.set i b } : Letter).sound = false := by
  simp only [Letter.sound, beq_iff_eq, Letter.bytes] at ok
  simp only [Letter.sound, Letter.bytes, beq_eq_false_iff_ne, ← ok]
  exact crc16_set_ne _ l.body i b inside other

theorem misframed {l : Letter} (rises : l.rises ≠ l.risesDue) : l.framed = false := by
  simp [Letter.framed, rises]

/-- Settles O10: the letter's start, then one counter of `NOV_ERR0`. -/
theorem badLettersDropped : Obligations.BadLettersDropped := by
  refine ⟨fun s l l' i b ok inside other damaged hears framed c mem => ?_, fun s l hears rises c mem => ?_⟩
  · have unsound : l'.sound = false := damaged ▸ damaged_unsound ok inside other
    refine ⟨_, exec_letter mem s, ?_⟩
    rw [receive_unsound hears framed unsound]
    obtain ⟨frame, crc, -, letters, recorded, version, reply, -⟩ := letterStart_link s
    exact ⟨heardOnly_trans (letterStart_served s) rfl, by simp [crc], frame, letters, recorded, version, reply⟩
  · refine ⟨_, exec_letter mem s, ?_⟩
    rw [receive_unframed hears (misframed rises)]
    obtain ⟨frame, crc, -, letters, recorded, version, reply, -⟩ := letterStart_link s
    exact ⟨heardOnly_trans (letterStart_served s) rfl, by simp [frame], crc, letters, recorded, version, reply⟩

/-! ### Letters that are executed (R365) -/

/-- A type that wakes the device is served after its wake event. -/
theorem takes_waking {s : State} {l : Letter} (h : s.takes l = true)
    (wakes : l.typ.toNat = tHello ∨ l.typ.toNat = tUpdate ∨ l.typ.toNat = tRestate ∨ l.typ.toNat = tStage) :
    s.receiveLetter l = ((s.counted l).wakeEvent .letter).order6 l := by
  rw [takes_receive h, passed_counted, if_pos wakes]

theorem takes_still {s : State} {l : Letter} (h : s.takes l = true)
    (still : ¬ (l.typ.toNat = tHello ∨ l.typ.toNat = tUpdate ∨ l.typ.toNat = tRestate ∨ l.typ.toNat = tStage)) :
    s.receiveLetter l = (s.counted l).order6 l := by
  rw [takes_receive h, passed_counted, if_neg still]

/-- A letter counted, and awake where its type wakes: only the link, the accesses and the quiet time differ from the wake event alone. -/
theorem wokenCounted_served (s : State) (l : Letter) : (s.wakeEvent .letter).heardOnly ((s.counted l).wakeEvent .letter) :=
  wakeEvent_served .letter (counted_served s l)

theorem wokenCounted_link (s : State) (l : Letter) : ((s.counted l).wakeEvent .letter).link = (s.counted l).link :=
  (wakeEvent_link _ _).1

/-- The answer to a letter that wakes. -/
theorem wokenCounted_answer_reply {s t : State} {l : Letter} (h : (s.wakeEvent .letter).heardOnly t)
    (none : t.link.reply = none) (st : Byte) (body : List Byte) :
    (t.answer true l.typ l.addr l.tag l.crc st body).link.reply = s.replyTo l st body := by
  refine answer_reply st body none ?_ ?_ <;> rw [h] <;> simp

/-! ### HELLO (R375) -/

theorem order6_hello {s : State} {l : Letter} (typ : l.typ = 0x01) : s.order6 l = s.helloLetter l := by
  simp [State.order6, typ, tHello]

theorem helloLetter_eq (s : State) (l : Letter) : s.helloLetter l =
    let c := chooseVersion (l.framing == .v1) (byteAt l.body 1).toNat (byteAt l.body 0).toNat
    State.sendReply { s with link.recorded := none, link.version := if c = 0 then s.link.version else versionCode c
                             acc.helloSeen := s.acc.helloSeen || decide (c ≠ 0) }
      l.typ l.addr l.tag (if c = 0 then 0xF2 else 0)
      [BitVec.ofNat 8 c, 0x21#8, BitVec.ofNat 8 s.house, BitVec.ofNat 8 (s.postA + 16 * s.postB)] := by
  unfold State.helloLetter
  dsimp only
  split <;> simp [*]

theorem sendReply_link (s : State) (typ addr tag st : Byte) (body : List Byte) : let u := s.sendReply typ addr tag st body
    s.heardOnly u ∧ u.link.version = s.link.version ∧ u.link.recorded = s.link.recorded ∧ u.link.lastTag = s.link.lastTag
      ∧ u.link.letters = s.link.letters ∧ u.acc = s.acc := by
  unfold State.sendReply
  split
  · exact ⟨rfl, rfl, rfl, rfl, rfl, rfl⟩
  · split <;> exact ⟨rfl, rfl, rfl, rfl, rfl, rfl⟩

/-- Settles O11: the letter counted, the version chosen, the record cleared, and the four bytes of R375 sent. -/
theorem helloOpens : Obligations.HelloOpens := by
  intro s l h typ
  refine ⟨s.receiveLetter l, rfl, ?_⟩
  rw [takes_waking h (.inl (by simp [typ, tHello])), order6_hello typ, helloLetter_eq]
  have awake := wokenCounted_served s l
  have link := wokenCounted_link s l
  have acc := (wakeEvent_link (s.counted l) .letter).2.1
  obtain ⟨letters, reply, version, lastTag, hello, -, -⟩ := counted_link s l
  generalize (s.counted l).wakeEvent .letter = w at *
  dsimp only
  generalize chooseVersion _ _ _ = c
  have house : w.house = s.house ∧ w.postA = s.postA ∧ w.postB = s.postB := by rw [awake]; simp [State.house, State.postA, State.postB, State.bin]
  rw [house.1, house.2.1, house.2.2]
  generalize hx : ({ w with link.recorded := none, link.version := if c = 0 then w.link.version else versionCode c
                            acc.helloSeen := w.acc.helloSeen || decide (c ≠ 0) } : State) = x
  obtain ⟨sent, sVersion, sRecorded, sLast, sLetters, sAcc⟩ := sendReply_link x l.typ l.addr l.tag (if c = 0 then 0xF2 else 0)
    [BitVec.ofNat 8 c, 0x21#8, BitVec.ofNat 8 s.house, BitVec.ofNat 8 (s.postA + 16 * s.postB)]
  have opened : (s.wakeEvent .letter).heardOnly x := heardOnly_trans awake (hx ▸ rfl)
  refine ⟨⟨_, rfl, heardOnly_trans opened sent⟩, ?_, ?_, ?_, ?_, ?_, ?_⟩
  · rw [sVersion, ← hx]; simp [link, version]
  · rw [sRecorded, ← hx]
  · rw [sLast, ← hx]; simp [link, lastTag]
  · rw [sLetters, ← hx]; simp [link, letters]
  · rw [sAcc, ← hx]; simp [acc, hello]
  · refine sendReply_reply _ _ ?_ ?_ ?_
    · rw [← hx]; simp [link, reply]
    · rw [opened]; simp
    · rw [opened]; simp

/-! ### WHY (R378) -/

theorem order6_why {s : State} {l : Letter} (typ : l.typ = 0x07) : s.order6 l = s.whyLetter l := by
  simp [State.order6, typ, tHello, tRead, tWrite, tScan, tWhy]

/-- An answer after a counted letter, of a state that has only heard it. -/
theorem answer_counted (s : State) (l : Letter) (st : Byte) (body : List Byte) :
    let t := (s.counted l).answer true l.typ l.addr l.tag l.crc st body
    s.heardOnly t ∧ s.letterCounted t ∧ t.link.reply = s.replyTo l st body := by
  obtain ⟨-, reply, -, -, -, strap, now⟩ := counted_link s l
  exact ⟨heardOnly_trans (counted_served s l) (answer_served ..), letterCounted_answer (letterCounted_counted s l) .., 
    answer_reply st body reply strap now⟩

/-- Settles O12: an answer of two bytes after a counted letter. -/
theorem whyServed : Obligations.WhyServed := by
  intro s l h typ
  refine ⟨s.receiveLetter l, rfl, ?_⟩
  rw [takes_still h (by simp [typ, tHello, tUpdate, tRestate, tStage]), order6_why typ]
  have same : (s.counted l).pwr = s.pwr ∧ (s.counted l).acc.sealIn = s.acc.sealIn ∧ (s.counted l).acc.why = s.acc.why := by
    unfold State.counted State.letterStart State.forgetReplies
    dsimp only
    split <;> split <;> exact ⟨rfl, rfl, rfl⟩
  unfold State.whyLetter
  rw [same.1, same.2.1, same.2.2]
  exact answer_counted s l _ _

/-! ### STAGE (R182, R373) -/

theorem order6_stage {s : State} {l : Letter} (typ : l.typ = 0x12) : s.order6 l =
    (s.stageLetter (quad l.body 0) (l.body.drop 4)).1.answer true l.typ l.addr l.tag l.crc
      (s.stageLetter (quad l.body 0) (l.body.drop 4)).2 [] := by
  simp [State.order6, typ, tHello, tRead, tWrite, tScan, tWhy, tStage]

/-- Settles O13: R182's three checks in order; the bytes of a letter that passes them are staged. -/
theorem stageTaken : Obligations.StageTaken := by
  intro s l h typ
  refine ⟨s.receiveLetter l, rfl, ?_⟩
  rw [takes_waking h (by simp [typ, tStage]), order6_stage typ]
  have awake := wokenCounted_served s l
  have none : ((s.counted l).wakeEvent .letter).link.reply = none := by rw [wokenCounted_link]; exact (counted_link s l).2.1
  generalize (s.counted l).wakeEvent .letter = w at *
  have alm : w.alm = s.alm := by rw [awake]; simp
  have refused (c : Byte) : (∃ u : State, u = s.wakeEvent .letter ∧ u.heardOnly (w.answer true l.typ l.addr l.tag l.crc c []))
      ∧ (w.answer true l.typ l.addr l.tag l.crc c []).link.reply = s.replyTo l c [] :=
    ⟨⟨_, rfl, heardOnly_trans awake (answer_served ..)⟩, wokenCounted_answer_reply awake none c []⟩
  unfold State.stageLetter
  rw [alm, show almLen = 430084 from rfl]
  by_cases staging : s.alm.load = .staging
  · by_cases place : quad l.body 0 = s.alm.stagedBytes
    · by_cases fits : quad l.body 0 + (l.body.drop 4).length ≤ 430084
      · rw [if_pos ⟨staging, place, fits⟩, if_neg (not_not.2 staging), if_neg (not_not.2 place), if_neg (by omega)]
        refine ⟨⟨_, rfl, heardOnly_trans ?_ (answer_served ..)⟩, answer_reply _ _ none ?_ ?_⟩
        · unfold State.heardOnly at awake ⊢
          rw [awake]
        · rw [awake]; simp
        · rw [awake]; simp
      · rw [if_neg (fun x => fits x.2.2), if_neg (not_not.2 staging), if_neg (not_not.2 staging), if_neg (not_not.2 place),
          if_neg (not_not.2 place), if_pos (by omega)]
        exact refused 0x42
    · rw [if_neg (fun x => place x.2.1), if_neg (not_not.2 staging), if_neg (not_not.2 staging), if_pos place, if_pos place]
      exact refused 0x41
  · rw [if_neg (fun x => staging x.1), if_pos staging, if_pos staging]
    exact refused 0x40

/-! ### UPDATE and RESTATE (R194 to R196, R205) -/

theorem order6_update {s : State} {l : Letter} {restate : Bool} (typ : l.typ = if restate then 0x11 else 0x10) : s.order6 l =
    (s.updateLetter l restate).1.answer true l.typ l.addr l.tag l.crc (s.updateLetter l restate).2 [] := by
  cases restate <;> simp [State.order6, typ, tHello, tRead, tWrite, tScan, tWhy, tStage, tUpdate, tRestate]

/-- Storing a payload draws at most a free value. -/
theorem storePayload_state (s : State) (f : UpdateFields) : ∃ k, (s.storePayload f).2 = { s with free := k } := by
  unfold State.storePayload
  split
  · exact ⟨_, rfl⟩
  · split <;> exact ⟨_, rfl⟩

/-- An accepted letter rewrites its pigeonhole and draws a ticket. -/
theorem acceptUpdate_pgh (s : State) (f : UpdateFields) (restate : Bool) : ∃ (p : Pgh) (k : Nat),
    s.acceptUpdate f restate
      = { s with free := k, pgh := { s.pgh with ticket := (s.pgh.ticket + 1) % 32768, tab := sset Pgh.free s.pgh.tab f.n p } }
    ∧ p.state = .pending ∧ p.row0 = f.row0 ∧ p.height = f.height ∧ p.colg0 = f.col0 / 4 ∧ p.widg = f.width / 4
    ∧ p.mode = Fin.ofNat 4 f.mode ∧ p.preempt = f.preempt ∧ p.format = Fin.ofNat 4 f.format ∧ p.prio = Fin.ofNat 4 f.prio
    ∧ p.keep = f.keep ∧ p.ref = f.ref ∧ p.source = (if f.ref then f.source else f.n) ∧ p.ticket = s.pgh.ticket
    ∧ p.restate = restate ∧ p.waited = 0 ∧ p.nextRow = 0 := by
  obtain ⟨k, store⟩ := storePayload_state s f
  unfold State.acceptUpdate
  generalize s.storePayload f = r at store
  obtain ⟨x, u⟩ := r
  dsimp only at store
  subst store
  exact ⟨_, _, rfl, rfl, rfl, rfl, rfl, rfl, rfl, rfl, rfl, rfl, rfl, rfl, rfl, rfl, rfl, rfl, rfl⟩

/-- The checks of R196 read nothing that hearing a letter moves. -/
theorem updateCheck_heard {s t : State} (h : s.heardOnly t) (f : UpdateFields) : t.updateCheck f = s.updateCheck f := by
  rw [h]
  rfl

theorem updateFields_small (b : List Byte) :
    (updateFields b).mode < 4 ∧ (updateFields b).format < 4 ∧ (updateFields b).prio < 4 := by
  refine ⟨?_, ?_, ?_⟩ <;> simp only [updateFields] <;> omega

theorem pending_ne_free {p : Pgh} (pending : p.state = .pending) : p ≠ Pgh.free := by
  rintro rfl
  cases pending

/-- Settles O14: a refused letter is only heard; an accepted one writes its pigeonhole and the ticket. -/
theorem updateTaken : Obligations.UpdateTaken := by
  intro s l restate h typ
  have wakes : l.typ.toNat = tHello ∨ l.typ.toNat = tUpdate ∨ l.typ.toNat = tRestate ∨ l.typ.toNat = tStage := by
    cases restate <;> simp [typ, tUpdate, tRestate]
  refine ⟨s.receiveLetter l, by cases restate <;> rfl, ?_⟩
  rw [takes_waking h wakes, order6_update typ]
  have awake := wokenCounted_served s l
  have none : ((s.counted l).wakeEvent .letter).link.reply = none := by rw [wokenCounted_link]; exact (counted_link s l).2.1
  generalize (s.counted l).wakeEvent .letter = w at *
  have check := updateCheck_heard awake (updateFields l.body)
  obtain ⟨mode, format, prio⟩ := updateFields_small l.body
  have pgh : w.pgh = s.pgh := by rw [awake]; simp
  unfold State.updateLetter
  dsimp only
  rw [check]
  generalize updateFields l.body = f at *
  by_cases accepted : (s.wakeEvent .letter).updateCheck f = 0
  · rw [if_pos accepted, accepted]
    obtain ⟨p, k, run, state, row0, height, colg0, widg, pMode, preempt, pFormat, pPrio, keep, ref, source, ticket, pRestate,
      waited, nextRow⟩ := acceptUpdate_pgh w f restate
    have written : p ≠ Pgh.free := pending_ne_free state
    have taken : ∀ body, ((w.acceptUpdate f restate).answer true l.typ l.addr l.tag l.crc 0 body).pgh
        = { s.pgh with ticket := (s.pgh.ticket + 1) % 32768, tab := sset Pgh.free s.pgh.tab f.n p } := by
      intro body
      rw [answer_link, run, pgh]
    have rest : ∀ body, let t := (w.acceptUpdate f restate).answer true l.typ l.addr l.tag l.crc 0 body
        t.mem = s.mem ∧ t.scan = s.scan ∧ t.alm = s.alm ∧ t.otp = s.otp ∧ t.rw = s.rw := by
      intro body
      dsimp only
      rw [answer_link, run, awake]
      simp
    refine ⟨answer_reply _ _ ?_ ?_ ?_, fun no => absurd rfl no, fun _ => ?_⟩
    · rw [run]; exact none
    · rw [run, awake]; simp
    · rw [run, awake]; simp
    · unfold State.pgh_
      rw [taken, sget_sset_ne _ _ _ written]
      refine ⟨state, row0, height, colg0, widg, ?_, preempt, ?_, ?_, keep, ref, source, ?_, pRestate, waited, nextRow, rfl, ?_, rfl,
        rfl, rfl, rest _⟩
      · rw [pMode]; exact Nat.mod_eq_of_lt mode
      · rw [pFormat]; exact Nat.mod_eq_of_lt format
      · rw [pPrio]; exact Nat.mod_eq_of_lt prio
      · rw [ticket, pgh]
      · exact fun m other => sget_sset_ne_other _ _ _ _ written other _
  · rw [if_neg accepted]
    exact ⟨wokenCounted_answer_reply awake none _ _, fun _ => heardOnly_trans awake (answer_served ..),
      fun yes => absurd yes accepted⟩

/-! ### Collection rounds (R380, R381) -/

theorem receive_collects {s : State} {l : Letter} (hears : s.hears l = true) (framed : l.framed = true) (sound : l.sound = true)
    (collects : l.collects = true) : s.receiveLetter l = s.letterStart.beginRound l := by
  simp [State.receiveLetter, hears, framed, sound, collects]

theorem letterStart_order5 (s : State) (l : Letter) : s.letterStart.order5 l = s.order5 l := by
  unfold State.letterStart State.forgetReplies
  dsimp only
  split <;> rfl

theorem beginRound_served (s : State) (l : Letter) : s.heardOnly (s.beginRound l) := by
  unfold State.beginRound State.heardOnly
  dsimp only
  split <;> rfl

theorem beginRound_link (s : State) (l : Letter) : let k := (s.beginRound l).link
    k.inRound = true ∧ k.replied = false ∧ k.winner = false ∧ k.roundTag = l.tag ∧ k.roundStatus = (s.order5 l).getD 0
      ∧ k.reply = s.link.reply ∧ k.recorded = s.link.recorded := by
  unfold State.beginRound
  dsimp only
  split <;> exact ⟨rfl, rfl, rfl, rfl, rfl, rfl, rfl⟩

/-- The end of an arbitration in a round that the device has not won before. -/
theorem arbitrate_undecided {s : State} (others : List (BitVec 4)) (round : s.link.inRound = true) (live : s.linkLive = true)
    (open_ : s.link.winner = false) : s.arbitrate others =
      let mine := !(s.attnWord == 0) && !s.link.replied
      if !mine && others.isEmpty then { s with link.inRound := false }
      else if mine && others.all (fun h => decide (s.house ≤ h.toNat)) then
        State.sendReply { s with link.winner := true } 0x05 0x30 s.link.roundTag s.link.roundStatus
          (if s.link.roundStatus = 0 then leBytes 4 s.attnWord else [])
      else s := by
  simp [State.arbitrate, round, live, open_]

theorem arbitrate_winner {s : State} (others : List (BitVec 4)) (round : s.link.inRound = true) (live : s.linkLive = true)
    (won : s.link.winner = true) : s.arbitrate others =
      { s with link := { s.link with replied := true, winner := false, reply := none, inRound := !others.isEmpty } } := by
  cases others <;> simp [State.arbitrate, round, live, won]

/-- Settles O15: a round's begin, and the two ends of an arbitration. -/
theorem collectionRound : Obligations.CollectionRound := by
  refine ⟨fun s l hears framed sound collects => ?_, fun s others round live open_ => ?_, fun s others round live won => ?_⟩
  · refine ⟨s.receiveLetter l, rfl, ?_⟩
    rw [receive_collects hears framed sound collects]
    obtain ⟨-, -, -, -, recorded, -, reply, -⟩ := letterStart_link s
    obtain ⟨inRound, replied, winner, tag, status, kept, record⟩ := beginRound_link s.letterStart l
    exact ⟨heardOnly_trans (letterStart_served s) (beginRound_served ..), inRound, replied, winner, tag,
      letterStart_order5 s l ▸ status, kept.trans reply, record.trans recorded⟩
  · refine ⟨s.arbitrate others, rfl, ?_⟩
    rw [arbitrate_undecided others round live open_]
    have mineEq : decide (s.attnWord ≠ 0) = !(s.attnWord == 0) := by cases h : s.attnWord == 0 <;> simp_all
    rw [mineEq]
    dsimp only
    generalize (!(s.attnWord == 0) && !s.link.replied) = mine
    cases mine with
    | false =>
      cases others with
      | nil => exact ⟨rfl, rfl, fun c => absurd c (by decide), fun _ => ⟨open_, rfl⟩⟩
      | cons x l => exact ⟨rfl, round, fun c => absurd c (by decide), fun _ => ⟨open_, rfl⟩⟩
    | true =>
      by_cases lowest : ∀ h ∈ others, s.house ≤ h.toNat
      · have all : (others.all fun h => decide (s.house ≤ h.toNat)) = true := by simpa using lowest
        simp only [all]
        refine ⟨rfl, round, fun _ _ => ⟨rfl, rfl⟩, fun lost => ?_⟩
        rcases lost with no | ⟨h, mem, lower⟩
        · cases no
        · exact absurd (lowest h mem) (by omega)
      · have all : (others.all fun h => decide (s.house ≤ h.toNat)) = false := by simpa using lowest
        simp only [all]
        exact ⟨rfl, round, fun _ low => absurd low lowest, fun _ => ⟨open_, rfl⟩⟩
  · refine ⟨s.arbitrate others, rfl, ?_⟩
    rw [arbitrate_winner others round live won]
    exact ⟨rfl, rfl, rfl, rfl, rfl⟩

/-! ### Gaps, cut and dropped replies (R362, R370, R372) -/

/-- Settles O20: each event counts one, and the reply is gone. -/
theorem linkEventsCounted : Obligations.LinkEventsCounted := by
  refine ⟨fun s live => ?_, fun s driving live ready => ?_, fun s r live ready => ?_⟩
  · refine ⟨s.gap, rfl, ?_⟩
    obtain ⟨frame, -, gap, letters, recorded, version, reply, round⟩ := letterStart_link s
    rw [State.gap, if_pos live]
    exact ⟨heardOnly_trans (letterStart_served s) rfl, by simp [gap], reply, round, letters, recorded, version, frame⟩
  · refine ⟨s.cutShort driving, rfl, ?_⟩
    rw [State.cutShort, if_pos (by simp [live, ready])]
    exact ⟨rfl, rfl, rfl, rfl, rfl, rfl, rfl, rfl⟩
  · have dropped : s.dropReply = { s with now := max s.now (r.readyAt + 2013266), link.reply := none, link.winner := false
                                          link.gap := sat16 s.link.gap 1 } := by
      simp only [State.dropReply, ready, live, if_true]
      rfl
    exact congrArg _ dropped

/-! ### Wake frames (R355, R385, R386) -/

theorem setBit_true {n : Nat} (w : BitVec n) (i : Nat) : setBit w i true = w ||| BitVec.ofNat n (2 ^ i) := rfl

/-- The two causes of a wake frame join those collected: its own bit, and the start from DORMANT or its deferral. -/
theorem addCause_two (s : State) (a b : Nat) : ((s.addCause a).addCause b) =
    { s with rtc.causes := s.rtc.causes ||| (BitVec.ofNat 8 (2 ^ a) ||| BitVec.ofNat 8 (2 ^ b)) } := by
  simp only [State.addCause, setBit_true, BitVec.or_assoc]

/-- Settles O21: in DORMANT a matching frame is a start-up's cause, at once or once VIN is valid; a running link counts it. -/
theorem wakeFrameActs : Obligations.WakeFrameActs := by
  intro s rises f
  refine ⟨fun off dormant armed found vin xtal released alive => ?_, fun off dormant armed found vin => ?_,
    fun off other => ?_, fun live => ?_⟩
  · refine ⟨s.wakeFrame rises f, rfl, ?_⟩
    rw [State.wakeFrame, if_pos off, if_pos ⟨dormant, armed, found⟩, if_pos vin, addCause_two, State.enterStartup_eq]
    have starts : ({ s with rtc.causes := s.rtc.causes ||| (BitVec.ofNat 8 (2 ^ wakeFrameBit) ||| BitVec.ofNat 8 (2 ^ wakeDormantBit)) }
        : State).mayStart = true := by
      simp [State.mayStart, State.supplied, vin, xtal, released, alive]
    rw [starts]
    exact ⟨rfl, rfl, rfl, rfl, rfl, rfl, rfl, rfl, rfl, rfl⟩
  · refine congrArg _ (?_ : s.wakeFrame rises f = _)
    rw [State.wakeFrame, if_pos off, if_pos ⟨dormant, armed, found⟩, if_neg (by simp [vin]), addCause_two]
    rfl
  · refine congrArg _ (?_ : s.wakeFrame rises f = _)
    rw [State.wakeFrame, if_pos off, if_neg (by simp [other])]
  · refine ⟨s.wakeFrame rises f, rfl, ?_⟩
    obtain ⟨frame, -, -, letters, -, -, reply, -⟩ := letterStart_link s
    have up : s.up.stage ≠ .off ∧ ¬ (s.pwr.st = .enterDormant ∧ s.pwr.committed = true) := by
      simp only [State.linkLive, State.linkShut, Bool.and_eq_true, Bool.or_eq_true, beq_iff_eq, Bool.not_eq_true'] at live
      obtain ⟨⟨⟨stage, shut⟩, -⟩, -⟩ := live
      refine ⟨by rcases stage with h | h <;> simp [h], fun ⟨st, c⟩ => ?_⟩
      simp [st, c] at shut
    rw [State.wakeFrame, if_neg up.1, if_neg up.2, if_pos live]
    exact ⟨heardOnly_trans (letterStart_served s) rfl, by simp [frame], letters, reply⟩

end Sys2Proof.Machine
end

section
/-! PROOFS. Register writes of one word, with the state they land in written out: posted, at once in the logic core, or guarded (R390 to
R404). -/

namespace Sys2Proof.Machine

/-! ### Addresses (R396, R408) -/

/-- A listed base address, or an alias that its row has, is decoded to itself, in full decode or not. -/
theorem decodeAddr_listed (s : State) {row : RegRow} {k a : Nat} (place : k < 4) (base : a < 4096) (listed : rowAt a = some row)
    (alias_ : k = 0 ∨ row.aliased = true) (decoded : a % 256 &&& blockMask (a / 256) = a % 256) :
    s.decodeAddr (4096 * k + a) = some (4096 * k + a) := by
  have op : (4096 * k + a) / 4096 = k := by omega
  have block : (4096 * k + a) / 256 % 16 = a / 256 := by omega
  have offset : (4096 * k + a) % 256 = a % 256 := by omega
  have whole : 256 * (a / 256) + a % 256 = a := by omega
  simp only [State.decodeAddr, op, block, offset, decoded, ite_self, whole, listed]
  rw [if_neg (by omega), if_pos alias_]

theorem opCode_lt (op : AliasOp) : opCode op < 4 := by cases op <;> decide

/-! ### What is left of the link -/

/-- An answer leaves the configuration and the letters that wait. -/
theorem answer_keeps (s : State) (w : Bool) (typ addr tag : Byte) (crc : BitVec 16) (st : Byte) (body : List Byte) :
    ∃ k : LinkState, s.answer w typ addr tag crc st body = { s with link := k } ∧ k.serving = s.link.serving
      ∧ k.cfg = s.link.cfg := by
  unfold State.answer State.keepReply State.sendReply
  dsimp only
  repeat' split
  all_goals exact ⟨_, rfl, rfl, rfl⟩

/-- A wanted answer is the reply that the letter's KIND makes. -/
theorem answer_write_reply {s t : State} {v : Via} {a : Nat} {d : Word} (st : Byte) (none : t.link.reply = none)
    (strap : t.strap = s.strap) (now : t.now = s.now) : let l := viaWrite v a d
    (t.answer (!(l.kind == 2)) 0x03 l.addr l.tag l.crc st []).link.reply = s.replyTo l st [] := by
  intro l
  by_cases quiet : l.kind = 2
  · have unsent : (!(l.kind == 2)) = false := by simp [quiet]
    have reply : s.replyTo l st [] = .none := by simp [State.replyTo, quiet]
    rw [unsent, reply]
    unfold State.answer State.keepReply
    dsimp only
    repeat' split
    all_goals first | exact none | contradiction
  · have sent : (!(l.kind == 2)) = true := by simp [quiet]
    rw [sent]
    exact answer_reply (l := l) st [] none strap now

/-! ### The write is heard -/

/-- The clock of the logic core runs when a letter is taken and no relock does. -/
theorem takes_lock {s : State} {l : Letter} (h : s.takes l = true) (q : s.quiet = true) : s.clock.pllLock = true := by
  obtain ⟨-, -, -, steady⟩ := quiet_parts q
  simp only [State.takes, State.hears, State.linkClock, steady, Bool.and_eq_true, Bool.or_eq_true] at h
  obtain ⟨⟨⟨⟨⟨⟨⟨-, clock | no⟩, -⟩, -⟩, -⟩, -⟩, -⟩, -⟩ := h
  · exact clock.1
  · simp at no

section
variable {s : State} {v : Via} {a : Nat} {d : Word} {row : RegRow}

/-- The access of a one-word write, nothing being in its way. -/
theorem access_write (q : s.quiet = true) (listed : s.decodeAddr a = some a) (at_ : rowAt (a % 4096) = some row)
    (awake : wakeOf row.dom = none) : (s.begun (viaWrite v a d)).access (writeServing s v a d) =
      match row.key with
      | some g => ((s.begun (viaWrite v a d)).takeGuarded (writeServing s v a d) g a d, .guarded)
      | none => ((s.begun (viaWrite v a d)).writeStep row a d, .done ((writeServing s v a d).past 0)) := by
  obtain ⟨-, guarded, posted, steady⟩ := quiet_parts q
  generalize hb : s.begun (viaWrite v a d) = b
  have b1 : b.link.serving = [] := by rw [← hb]; rfl
  have b2 : b.acc.guarded = [] := by rw [← hb]; exact guarded
  have b3 : b.acc.posted = [] := by rw [← hb]; exact posted
  have bd : b.decodeAddr a = some a := by rw [← hb]; exact listed
  have br : b.relocking = false := by rw [← hb]; exact steady
  have touch : b.touch row.dom = b := by simp [State.touch, awake]
  cases key : row.key <;>
    simp [State.access, State.accessTo, State.jumpsIn, b2, writeServing, bd, at_, key, br, mustWake_none at_ awake,
      transit_quiet b1 b2 b3, touch]

/-- A write that no key guards: its effect at once or its posting, and its answer. -/
theorem viaWord_unguarded (h : s.takes (viaWrite v a d) = true) (q : s.quiet = true) (ha : a < 0x4000)
    (listed : s.decodeAddr a = some a) (at_ : rowAt (a % 4096) = some row) (awake : wakeOf row.dom = none)
    (free : row.key = none) : let l := viaWrite v a d
    s.viaWord v a d = ((s.begun l).writeStep row a d).answer (!(l.kind == 2)) 0x03 l.addr l.tag l.crc 0 [] := by
  intro l
  have access := access_write (v := v) (d := d) q listed at_ awake
  rw [free] at access
  rw [viaWord_serves h q ha, serve_one rfl access]
  rfl

/-- Cycles from the acceptance of a posted write to its landing (R394). -/
def postSpan (row : RegRow) : Nat := if row.dom == .backup then 18432 else 202

/-- A posted write is accepted: one write is in flight. -/
theorem viaWord_posts (h : s.takes (viaWrite v a d) = true) (q : s.quiet = true) (ha : a < 0x4000)
    (listed : s.decodeAddr a = some a) (at_ : rowAt (a % 4096) = some row) (free : row.key = none) (effect : row.effect = true)
    (posted : row.posted = true) : ∃ k : LinkState, k.serving = [] ∧ k.cfg = s.link.cfg ∧ s.viaWord v a d =
      { s with link := k, rtc.quietAt := s.now
               acc.posted := [{ block := Fin.ofNat 16 (blockOf a), addr := a, data := d, full := s.fullDecode
                                backup := row.dom == .backup, due := s.now + postSpan row }] } := by
  obtain ⟨-, -, none, -⟩ := quiet_parts q
  have awake : wakeOf row.dom = .none := by
    simp only [RegRow.posted, Bool.or_eq_true, beq_iff_eq] at posted
    rcases posted with e | e <;> simp [e, wakeOf]
  rw [viaWord_unguarded h q ha listed at_ awake free]
  have step : (s.begun (viaWrite v a d)).writeStep row a d = (s.begun (viaWrite v a d)).post a d (row.dom == .backup) := by
    simp [State.writeStep, effect, posted]
  rw [step]
  obtain ⟨k, run, serving, cfg⟩ := answer_keeps ((s.begun (viaWrite v a d)).post a d (row.dom == .backup))
    (!((viaWrite v a d).kind == 2)) 0x03 (viaWrite v a d).addr (viaWrite v a d).tag (viaWrite v a d).crc 0 []
  refine ⟨k, serving, cfg, run.trans ?_⟩
  simp only [State.post, State.begun, none, List.nil_append]
  rfl

/-- The one posted write lands in the state it was accepted in, but for the time and the link. -/
theorem viaWord_lands (h : s.takes (viaWrite v a d) = true) (q : s.quiet = true) (ha : a < 0x4000)
    (listed : s.decodeAddr a = some a) (at_ : rowAt (a % 4096) = some row) (free : row.key = none) (effect : row.effect = true)
    (posted : row.posted = true) : ∃ k : LinkState, k.serving = [] ∧ k.cfg = s.link.cfg
      ∧ (s.viaWord v a d).postedLand (blockOf a) =
        State.pump (State.land { s with now := s.now + postSpan row, link := k, rtc.quietAt := s.now } a d s.fullDecode) := by
  obtain ⟨k, serving, cfg, run⟩ := viaWord_posts h q ha listed at_ free effect posted
  obtain ⟨-, -, none, -⟩ := quiet_parts q
  refine ⟨k, serving, cfg, ?_⟩
  have block : (Fin.ofNat 16 (blockOf a)).val = blockOf a := by simp [blockOf]
  have acc : ({ s.acc with posted := [] } : AccessState) = s.acc := by rw [← none]
  rw [run]
  simp only [State.postedLand, List.find?_cons, block, beq_self_eq_true, State.reach, List.erase_cons_head]
  rw [acc, Nat.max_eq_right (Nat.le_add_right _ _)]

/-- A write of the logic core lands at once, and is answered. -/
theorem viaWord_landsNow (h : s.takes (viaWrite v a d) = true) (q : s.quiet = true) (ha : a < 0x4000)
    (listed : s.decodeAddr a = some a) (at_ : rowAt (a % 4096) = some row) (free : row.key = none) (effect : row.effect = true)
    (core : row.dom = .core) : let l := viaWrite v a d
    s.viaWord v a d = ((s.begun l).land a d s.fullDecode).answer (!(l.kind == 2)) 0x03 l.addr l.tag l.crc 0 [] := by
  have direct : row.posted = false := by simp [RegRow.posted, core]
  rw [viaWord_unguarded h q ha listed at_ (by simp [core, wakeOf]) free]
  simp only [State.writeStep, effect, direct, Bool.not_true, Bool.false_eq_true, if_false]
  rfl

/-! ### Guarded writes (R400 to R404) -/

/-- The guarded write that a one-word write becomes, with the reason found at the letter. -/
def guardedOf (s : State) (v : Via) (g : Group) (a : Nat) (d : Word) : Guarded :=
  let l := viaWrite v a d
  { typ := 0x03, addr := l.addr, tag := l.tag, crc := l.crc, reg := a, data := d, full := s.fullDecode, reply := !(l.kind == 2)
    why := (s.begun l).guardWhy g a d, needsSeal := (s.begun l).guardSeal g a d, sealed := s.acc.sealIn, due := s.now + 201327 }

/-- The state in which a guarded write's reply comes: its group's arming consumed. -/
def State.replyDue (s : State) (l : Letter) (g : Group) : State :=
  { s.begun l with now := s.now + 201327, acc.armed := if s.acc.armed = some g then none else s.acc.armed }

/-- The state in which its outcome is decided: it still waits. -/
def State.outcomeDue (s : State) (v : Via) (g : Group) (a : Nat) (d : Word) : State :=
  { s.replyDue (viaWrite v a d) g with acc.guarded := [guardedOf s v g a d] }

/-- A guarded write is taken, and its reply comes 1.000 ms later. -/
theorem viaWord_waits {g : Group} (h : s.takes (viaWrite v a d) = true) (q : s.quiet = true) (ha : a < 0x4000)
    (listed : s.decodeAddr a = some a) (at_ : rowAt (a % 4096) = some row) (awake : wakeOf row.dom = none)
    (key : row.key = some g) : (s.viaWord v a d).acc.guarded = [guardedOf s v g a d] ∧ (s.viaWord v a d).clock.pllLock = true
      ∧ (s.viaWord v a d).reach (s.now + 201327) = s.outcomeDue v g a d := by
  obtain ⟨-, none, -, -⟩ := quiet_parts q
  have lock : s.clock.pllLock = true := takes_lock h q
  have access := access_write (v := v) (d := d) q listed at_ awake
  rw [key] at access
  have run : s.viaWord v a d = { s.begun (viaWrite v a d) with
      acc.guarded := [guardedOf s v g a d], acc.armed := if s.acc.armed = some g then .none else s.acc.armed } := by
    rw [viaWord_serves h q ha]
    have todo : (writeServing s v a d).todo = [d] := rfl
    have waits : (s.begun (viaWrite v a d)).acc.guarded = [] := none
    simp only [State.serveLetter, State.serve, todo, List.length_singleton, List.isEmpty_cons, access, State.takeGuarded, waits,
      List.nil_append, Bool.false_eq_true, if_false]
    rfl
  rw [run]
  have due : max s.now (s.now + 201327) = s.now + 201327 := Nat.max_eq_right (Nat.le_add_right _ _)
  exact ⟨rfl, lock, congrArg (fun n => ({ s.outcomeDue v g a d with now := n } : State)) due⟩

theorem replyDue_guarded (q : s.quiet = true) (l : Letter) (g : Group) :
    ({ (s.replyDue l g).acc with guarded := [] } : AccessState) = (s.replyDue l g).acc := by
  have none : (s.replyDue l g).acc.guarded = [] := (quiet_parts q).2.1
  rw [← none]

/-- The lone guarded write refused at its reply. -/
theorem viaWord_refused {g : Group} {c : Nat} (h : s.takes (viaWrite v a d) = true) (q : s.quiet = true) (ha : a < 0x4000)
    (listed : s.decodeAddr a = some a) (at_ : rowAt (a % 4096) = some row) (awake : wakeOf row.dom = none)
    (key : row.key = some g) (outcome : (s.outcomeDue v g a d).guardOutcome (guardedOf s v g a d) = some c) :
    let l := viaWrite v a d
    let w := s.replyDue l g
    (s.viaWord v a d).guardedReply = State.pump (State.answer { w with acc.refusals := sat16 s.acc.refusals 1, acc.why := c }
      (!(l.kind == 2)) 0x03 l.addr l.tag l.crc 0x30 []) := by
  intro l w
  obtain ⟨waiting, clock, reach⟩ := viaWord_waits h q ha listed at_ awake key
  have empty := replyDue_guarded q l g
  have due : (guardedOf s v g a d).due = s.now + 201327 := rfl
  simp only [State.guardedReply, waiting, clock, due, reach, outcome, if_true]
  exact congrArg (fun x => State.pump (State.answer ({ w with acc := { x with refusals := sat16 s.acc.refusals 1, why := c } } : State)
    (!(l.kind == 2)) 0x03 l.addr l.tag l.crc 0x30 [])) empty

/-- The lone guarded write of a logic core register lands at its reply where nothing refuses it. -/
theorem viaWord_accepted {g : Group} (h : s.takes (viaWrite v a d) = true) (q : s.quiet = true) (ha : a < 0x4000)
    (listed : s.decodeAddr a = some a) (at_ : rowAt (a % 4096) = some row) (core : row.dom = .core)
    (key : row.key = some g) (outcome : (s.outcomeDue v g a d).guardOutcome (guardedOf s v g a d) = none) :
    let l := viaWrite v a d
    (s.viaWord v a d).guardedReply = State.pump (State.answer ((s.replyDue l g).land a d s.fullDecode)
      (!(l.kind == 2)) 0x03 l.addr l.tag l.crc 0 []) := by
  intro l
  obtain ⟨waiting, clock, reach⟩ := viaWord_waits h q ha listed at_ (by simp [core, wakeOf]) key
  have empty := replyDue_guarded q l g
  have due : (guardedOf s v g a d).due = s.now + 201327 := rfl
  have reg : (guardedOf s v g a d).reg = a := rfl
  have kept : (s.outcomeDue v g a d).bridgeLost (guardedOf s v g a d) = false := by
    simp [State.bridgeLost, reg, at_, RegRow.posted, core]
  simp only [State.guardedReply, waiting, clock, due, reach, outcome, kept, if_true, Bool.false_eq_true, if_false]
  exact congrArg (fun x => State.pump (State.answer (({ s.replyDue l g with acc := x } : State).land a d s.fullDecode)
    (!(l.kind == 2)) 0x03 l.addr l.tag l.crc 0 [])) empty
end

/-! ### A write lands (R391, R392, R397) -/

theorem land_single {s : State} {k base : Nat} (place : base < 4096) (single : s.members base = [base]) (d : Word) (full : Bool) :
    s.land (4096 * k + base) d full = s.landOne k d full base := by
  have low : (4096 * k + base) % 4096 = base := by omega
  have high : (4096 * k + base) / 4096 = k := by omega
  rw [State.land, low, high, single]
  rfl

/-- Reserved bits reach the test controls or their count alone. -/
theorem writeTest_acc (s : State) (base rsv : Nat) (d : Word) : ∃ (n : Nat) (l : SMap Word),
    s.writeTest base rsv d = { s with acc.rsvdDiff := n, acc.testCtl := l } := by
  unfold State.writeTest
  split
  · exact ⟨_, _, rfl⟩
  · split <;> exact ⟨_, _, rfl⟩

/-- What a landed write leaves of the test controls' part: all of it, outside full decode. -/
theorem landOne_cases {s : State} {row : RegRow} {op base : Nat} {d : Word} {full : Bool} (at_ : rowAt base = some row) (t : State)
    (run : (let r := row.reg base
      let s1 := if row.rw = 0 then s else s.putField row.dom r (s.written base op d)
      let s2 := if row.w1c = 0 ∨ op = 1 ∨ op = 3 then s1
        else s1.clearBits r (d &&& wd row.w1c &&& ~~~(s1.hwFresh base (if row.dom == .backup then cycle else 1)))
      if row.wo then s2.act r d else s2) = t) :
    ∃ (n : Nat) (l : SMap Word), s.landOne op d full base = { t with acc.rsvdDiff := n, acc.testCtl := l }
      ∧ (full = false → n = t.acc.rsvdDiff ∧ l = t.acc.testCtl) := by
  subst run
  unfold State.landOne
  rw [at_]
  dsimp only
  split
  · rename_i on
    obtain ⟨n, l, e⟩ := writeTest_acc (if row.wo then _ else _) base row.rsv d
    exact ⟨n, l, e, fun off => absurd on.1 (by simp [off])⟩
  · exact ⟨_, _, rfl, fun _ => ⟨rfl, rfl⟩⟩

/-- A register of written fields alone takes its value. -/
theorem landOne_field {s : State} {row : RegRow} {op base : Nat} {d : Word} {full : Bool} (at_ : rowAt base = some row)
    (written : row.rw ≠ 0) (sticky : row.w1c = 0) (readable : row.wo = false) : ∃ (n : Nat) (l : SMap Word),
    let t := s.putField row.dom (row.reg base) (s.written base op d)
    s.landOne op d full base = { t with acc.rsvdDiff := n, acc.testCtl := l } := by
  obtain ⟨n, l, e, -⟩ := landOne_cases (s := s) (op := op) (d := d) (full := full) at_ _ rfl
  refine ⟨n, l, e.trans ?_⟩
  simp only [if_neg written, if_pos (Or.inl sticky), readable, Bool.false_eq_true, if_false]

/-- A register of bits cleared by a 1 alone, written at its base address. -/
theorem landOne_clear {s : State} {row : RegRow} {base : Nat} {d : Word} {full : Bool} (at_ : rowAt base = some row)
    (written : row.rw = 0) (sticky : row.w1c ≠ 0) (readable : row.wo = false) : ∃ (n : Nat) (l : SMap Word),
    let t := s.clearBits (row.reg base) (d &&& wd row.w1c &&& ~~~(s.hwFresh base (if row.dom == .backup then cycle else 1)))
    s.landOne 0 d full base = { t with acc.rsvdDiff := n, acc.testCtl := l } := by
  obtain ⟨n, l, e, -⟩ := landOne_cases (s := s) (op := 0) (d := d) (full := full) at_ _ rfl
  refine ⟨n, l, e.trans ?_⟩
  simp only [if_pos written, sticky, readable, Bool.false_eq_true, if_false, OfNat.zero_ne_ofNat]
  rfl

/-- A write-only register acts. -/
theorem landOne_act {s : State} {row : RegRow} {op base : Nat} {d : Word} {full : Bool} (at_ : rowAt base = some row)
    (written : row.rw = 0) (sticky : row.w1c = 0) (actsOn : row.wo = true) : ∃ (n : Nat) (l : SMap Word),
    let t := s.act (row.reg base) d
    s.landOne op d full base = { t with acc.rsvdDiff := n, acc.testCtl := l }
      ∧ (full = false → n = t.acc.rsvdDiff ∧ l = t.acc.testCtl) := by
  obtain ⟨n, l, e, f⟩ := landOne_cases (s := s) (op := op) (d := d) (full := full) at_ _ rfl
  simp only [if_pos written, if_pos (Or.inl sticky), actsOn, if_true] at e f
  exact ⟨n, l, e, f⟩

end Sys2Proof.Machine
end

section
/-! PROOFS. Register letters: a guarded register in a range of several, reads, the registers that only hold a value, and `SEC_KEY`
(R373, R376, R390 to R401). -/

namespace Sys2Proof.Machine

/-! ### A register letter is counted -/

/-- Being counted touches the link, the guarded writes' replies and the quiet time alone. -/
theorem counted_parts (s : State) (l : Letter) : ∃ (k : LinkState) (g : List Guarded),
    s.counted l = { s with link := k, acc.guarded := g, rtc.quietAt := s.now } := by
  unfold State.counted State.letterStart State.forgetReplies
  dsimp only
  split <;> split <;> exact ⟨_, _, rfl⟩

theorem order6_register {s : State} {l : Letter} (typ : l.typ = 0x02 ∨ l.typ = 0x03) : s.order6 l = s.registerLetter l := by
  rcases typ with typ | typ <;> simp [State.order6, typ, tHello, tRead, tWrite]

theorem takes_register {s : State} {l : Letter} (h : s.takes l = true) (typ : l.typ = 0x02 ∨ l.typ = 0x03) :
    s.receiveLetter l = (s.counted l).registerLetter l := by
  rw [takes_still h (by rcases typ with typ | typ <;> simp [typ, tHello, tUpdate, tRestate, tStage]), order6_register typ]

/-- Settles O18: the range's check comes before any access. -/
theorem multiGuardRefused : Obligations.MultiGuardRefused := by
  intro s l h typ low several guarded
  refine ⟨s.receiveLetter l, rfl, ?_⟩
  rw [takes_register h (.inr typ)]
  have ranged : (s.counted l).rangeGuarded (half l.body 0) l.count = true := by
    obtain ⟨k, g, e⟩ := counted_parts s l
    rw [e]
    exact guarded
  have write : (l.typ.toNat == tWrite) = true := by simp [typ, tWrite]
  unfold State.registerLetter
  dsimp only
  rw [if_neg (by omega), if_pos ⟨write, several, ranged⟩]
  exact answer_counted s l _ _

/-! ### READ (R376, R390) -/

/-- A READ as it is served. -/
def readServing (s : State) (l : Letter) : Serving :=
  { typ := l.typ, addr := l.addr, tag := l.tag, crc := l.crc, write := false, at_ := s.now, reply := !(l.kind == 2), held := false
    next := half l.body 0, todo := List.replicate l.count 0, got := [] }

/-- A READ is allowed with a house number alone (R366, R374). -/
theorem takes_read_kind {s : State} {l : Letter} (h : s.takes l = true) (typ : l.typ = 0x02) : l.kind = 0 := by
  simp only [State.takes, Bool.and_eq_true, Option.isNone_iff_eq_none] at h
  obtain ⟨-, order5⟩ := h
  have ok : l.kindOk = true := by
    by_contra no
    simp only [Bool.not_eq_true] at no
    simp only [State.order5, no, Bool.false_and, Bool.not_false, if_true] at order5
    split_ifs at order5
  simpa [Letter.kindOk, typ, tCollect, tRead] using ok

/-- The quiet device serves its reads in the state the letter was counted in. -/
theorem counted_quiet {s : State} (q : s.quiet = true) (l : Letter) : (s.counted l).acc = s.acc ∧ (s.counted l).link.serving = [] := by
  unfold State.counted
  rw [letterStart_quiet q]
  obtain ⟨-, guarded, -, -⟩ := quiet_parts q
  have acc : ({ s.acc with guarded := [] } : AccessState) = s.acc := by rw [← guarded]
  dsimp only
  split <;> exact ⟨acc, rfl⟩

/-- A read of the word at an address leaves the state: no register lies there, or nothing must wake and reading moves nothing. -/
def State.readsAs (s : State) (a : Nat) (x : Word) : Prop :=
  (s.decodeAddr a = none ∧ x = 0)
  ∨ ∃ b row, s.decodeAddr a = some b ∧ rowAt (b % 4096) = some row
      ∧ (wakeOf row.dom = none ∨ s.pwr.st ≠ .hold ∧ s.mustWake b = none) ∧ s.readAt b = (x, s)

theorem access_read {s : State} {v : Serving} {x : Word} (read : v.write = false) (h1 : s.link.serving = [])
    (q : s.quiet = true) (reads : s.readsAs v.next x) : s.access v = (s, .done (v.past x)) := by
  obtain ⟨-, h2, h3, steady⟩ := quiet_parts q
  rcases reads with ⟨unlisted, rfl⟩ | ⟨b, row, listed, at_, awake, value⟩
  · simp [State.access, unlisted]
  · have wakes : s.mustWake b = none := by
      rcases awake with awake | awake
      · exact mustWake_none at_ awake
      · exact awake.2
    have touch : s.touch row.dom = s := by
      unfold State.touch
      rcases awake with awake | awake
      · rw [awake]
      · split
        · exact if_neg awake.1
        · rfl
    simp only [State.access, listed, at_, State.accessTo, State.jumpsIn, read, Bool.false_and]
    cases row.key <;> simp [steady, wakes, transit_quiet h1 h2 h3, touch, value]

/-- A run of reads gathers their words. -/
theorem serve_reads {s : State} (h1 : s.link.serving = []) (q : s.quiet = true) (x : Nat → Word) : ∀ (m : Nat) (v : Serving) (j a : Nat),
    v.write = false → v.next = a + j → v.todo = List.replicate m 0 → (∀ i, i < j + m → s.readsAs (a + i) (x i)) →
    ∃ v', s.serve m v = s.servedTo v' ∧ v' = { v with next := v'.next, todo := v'.todo, held := v'.held
                                                      got := v.got ++ (List.range' j m).map x }
  | 0, v, j, a, _, _, _, _ => ⟨v, rfl, by simp⟩
  | m + 1, v, j, a, read, next, todo, reads => by
    have access := access_read read h1 q (next ▸ reads j (by omega))
    have past : (v.past (x j)) = { v with next := v.next + 1, todo := v.todo.tail, got := v.got ++ [x j], held := false } := by
      simp [Serving.past, read]
    obtain ⟨v', run, form⟩ := serve_reads h1 q x m (v.past (x j)) (j + 1) a (by rw [past]; exact read)
      (by rw [past]; simp only [next]; omega) (by rw [past]; simp [todo, List.replicate_succ]) (fun i below => reads i (by omega))
    refine ⟨v', ?_, ?_⟩
    · rw [State.serve, todo, if_neg (by simp [List.replicate_succ]), access]
      exact run
    · rw [form, past]
      simp [List.range'_succ]

theorem counted_readsAs {s : State} (q : s.quiet = true) (l : Letter) {a : Nat} {x : Word} (reads : (s.decodeAddr a = none ∧ x = 0)
    ∨ ∃ b row, s.decodeAddr a = some b ∧ rowAt (b % 4096) = some row ∧ (wakeOf row.dom = none ∨ s.pwr.st ≠ .hold ∧ s.mustWake b = none)
      ∧ ∀ w, s.heardOnly w → w.acc = s.acc → w.readAt b = (x, w)) : (s.counted l).readsAs a x := by
  have acc := (counted_quiet q l).1
  have heard := counted_served s l
  obtain ⟨k, g, e⟩ := counted_parts s l
  have decode : ∀ a, (s.counted l).decodeAddr a = s.decodeAddr a := fun a => by rw [e]; rfl
  have wake : ∀ b, (s.counted l).mustWake b = s.mustWake b := fun b => by rw [e]; rfl
  have st : (s.counted l).pwr = s.pwr := by rw [e]
  rcases reads with ⟨unlisted, zero⟩ | ⟨b, row, listed, at_, awake, value⟩
  · exact .inl ⟨(decode a).trans unlisted, zero⟩
  · exact .inr ⟨b, row, (decode a).trans listed, at_, by rw [wake, st]; exact awake, value _ heard acc⟩

/-- Settles O16: the words of the range are gathered one access at a time (`serve_reads`), and answered together. -/
theorem readServed : Obligations.ReadServed := by
  intro s l h q typ
  refine ⟨fun high => ⟨s.receiveLetter l, rfl, ?_⟩, fun low x reads => ⟨s.receiveLetter l, rfl, ?_⟩⟩
  · rw [takes_register h (.inl typ)]
    unfold State.registerLetter
    dsimp only
    rw [if_pos high]
    exact answer_counted s l _ _
  · rw [takes_register h (.inl typ)]
    have read : (l.typ.toNat == tWrite) = false := by simp [typ, tWrite]
    have house : l.kind = 0 := takes_read_kind h typ
    obtain ⟨acc, idle⟩ := counted_quiet q l
    have quiet : (s.counted l).quiet = true := by
      obtain ⟨-, guarded, posted, steady⟩ := quiet_parts q
      obtain ⟨k, g, e⟩ := counted_parts s l
      have clock : (s.counted l).relocking = s.relocking := by rw [e]; rfl
      simp [State.quiet, idle, acc, guarded, posted, clock, steady]
    have served := serve_reads idle quiet x l.count (readServing (s.counted l) l) 0 (half l.body 0) rfl rfl rfl
      (fun i below => counted_readsAs q l (reads i (by omega)))
    obtain ⟨v', run, form⟩ := served
    have answered : (s.counted l).registerLetter l = (s.counted l).answer true l.typ l.addr l.tag l.crc 0
        ((List.range l.count).flatMap (fun i => leBytes 4 (x i).toNat)) := by
      unfold State.registerLetter
      dsimp only
      rw [if_neg (by omega), read, if_neg (by simp)]
      have todo : (if false = true then l.words else List.replicate l.count 0) = List.replicate l.count 0 := rfl
      rw [todo]
      have length : (List.replicate l.count (0 : Word)).length = l.count := by simp
      show State.serve (List.replicate l.count (0 : Word)).length (s.counted l) (readServing (s.counted l) l) = _
      rw [length, run, form]
      simp [State.servedTo, readServing, house, List.flatMap_map, List.range_eq_range']
    rw [answered]
    obtain ⟨heard, count, reply⟩ := answer_counted s l 0 ((List.range l.count).flatMap (fun i => leBytes 4 (x i).toNat))
    refine ⟨heard, count, ?_, reply⟩
    rw [answer_link]
    exact acc

/-! ### SEC_KEY (R400, R401) -/

/-- A one-word write that the logic core has answered, whatever it left outside the link. -/
theorem begun_answer {s t : State} {v : Via} {a : Nat} {d : Word} (link : t.link = (s.begun (viaWrite v a d)).link)
    (strap : t.strap = s.strap) (now : t.now = s.now) : let l := viaWrite v a d
    let u := t.answer (!(l.kind == 2)) 0x03 l.addr l.tag l.crc 0 []
    t.heardOnly u ∧ u.acc = t.acc ∧ s.letterCounted u ∧ u.link.reply = s.replyTo l 0 [] := by
  intro l u
  refine ⟨answer_served .., ?_, letterCounted_answer ?_ .., answer_write_reply 0 ?_ strap now⟩
  · show (t.answer _ _ _ _ _ _ _).acc = _
    rw [answer_link]
  · unfold State.letterCounted
    rw [link]
    rfl
  · rw [link]
    rfl

/-- Settles O22: `SEC_KEY` is a write-only register of the logic core, whose action arms a group (`writeKey`). -/
theorem secKeyArms : Obligations.SecKeyArms := by
  intro s v d h q
  refine ⟨s.viaWord v 0x210 d, rfl, ?_⟩
  have listed : s.decodeAddr 0x210 = some 0x210 :=
    decodeAddr_listed s (k := 0) (a := 0x210) (by decide) (by decide) (by rfl) (.inl rfl) (by decide)
  rw [viaWord_landsNow h q (by decide) listed (by rfl) rfl rfl rfl]
  have single : (s.begun (viaWrite v 0x210 d)).members 0x210 = [0x210] := rfl
  have land := land_single (k := 0) (by decide) single d s.fullDecode
  obtain ⟨n, l, run, plain⟩ := landOne_act (s := s.begun (viaWrite v 0x210 d)) (op := 0) (base := 0x210) (d := d)
    (full := s.fullDecode) (by rfl) rfl rfl rfl
  have landed : (s.begun (viaWrite v 0x210 d)).land 0x210 d s.fullDecode = _ := land.trans run
  generalize (s.begun (viaWrite v 0x210 d)).land 0x210 d s.fullDecode = t at landed
  obtain ⟨heard, acc, count, reply⟩ := begun_answer (s := s) (t := t) (v := v) (a := 0x210) (d := d) (by rw [landed]; rfl)
    (by rw [landed]; rfl) (by rw [landed]; rfl)
  have armed : s.heardOnly t := by rw [landed]; rfl
  refine ⟨heardOnly_trans armed heard, count, reply, ?_, fun off => ?_⟩
  · have fallow : ((s.begun (viaWrite v 0x210 d)).lcNow == 0) = decide (s.lcNow = 0) := rfl
    rw [acc, landed]
    simp only [RegRow.reg, woRow, State.act, State.writeKey, fallow, decide_eq_true_eq]
    rfl
  · rw [acc, landed]
    exact plain off

end Sys2Proof.Machine
end

section
/-! PROOFS. The registers that only hold a value: what each reads, takes and leaves (R390, R394, R396). -/

namespace Sys2Proof.Machine

/-! ### What the hedge's order leaves of the supplies -/

/-- What every step of a fold keeps, the fold keeps. -/
theorem foldl_related {α β : Type} (R : β → β → Prop) (refl : ∀ s, R s s) (trans : ∀ {s t u}, R s t → R t u → R s u)
    (f : β → α → β) (step : ∀ s a, R s (f s a)) : ∀ (l : List α) (s : β), R s (l.foldl f s)
  | [], s => refl s
  | a :: l, s => trans (step s a) (foldl_related R refl trans f step l (f s a))

/-- Only the auxiliary rails and the load switches differ. -/
def State.itemsOnly (s t : State) : Prop := t = { s with tree.aux := t.tree.aux, tree.lsw := t.tree.lsw }

theorem State.itemsOnly.trans {s t u : State} (h : s.itemsOnly t) (g : t.itemsOnly u) : s.itemsOnly u := by
  unfold State.itemsOnly at *
  rw [g, h]

theorem State.itemsOnly.refl (s : State) : s.itemsOnly s := rfl

theorem modAux_items (s : State) (n : Nat) (f : Aux → Aux) : s.itemsOnly (s.modAux n f) := rfl

theorem modLsw_items (s : State) (n : Nat) (f : Lsw → Lsw) : s.itemsOnly (s.modLsw n f) := rfl

theorem dropItem_items (s : State) (n e : Nat) : s.itemsOnly ((s.dropLsw n).dropAux n e) := by
  unfold State.dropLsw State.lswFollow State.dropAux State.auxStop
  exact (((modLsw_items _ _ _).trans (modLsw_items _ _ _)).trans (modAux_items _ _ _)).trans (modAux_items _ _ _)

theorem dropItems_items (s : State) (keep : Bool) (e : Nat) : s.itemsOnly (s.dropItems keep e) := by
  unfold State.dropItems
  refine foldl_related State.itemsOnly State.itemsOnly.refl State.itemsOnly.trans _ (fun t n => ?_) _ s
  split
  · exact State.itemsOnly.refl t
  · exact dropItem_items t n e

/-- Dropping the front light and the items that are due leaves the rest of the supplies. -/
theorem hedgeDue_parts (s : State) : ∃ (x : Vector Aux 4) (l : Vector Lsw 4) (d : Vector Led 8) (b : Bool) (m n : Nat), s.hedgeDue =
    { s with tree.aux := x, tree.lsw := l, tree.led := d, tree.boostOv := b, seq.tail := m, seq.hedgeStep := n } := by
  have dropped : ∀ (t : State) (keep : Bool) (e : Nat), ∃ x l, t.dropItems keep e = { t with tree.aux := x, tree.lsw := l } :=
    fun t keep e => ⟨_, _, dropItems_items t keep e⟩
  unfold State.hedgeDue
  dsimp only
  split <;> split
  · obtain ⟨x, l, e⟩ := dropped { s.lightsOff with seq.tail := 1 } (s.lightsOff.seq.run == .hedgeDrop) s.lightsOff.seq.hedgeEnd
    rw [e]
    exact ⟨_, _, _, _, _, _, rfl⟩
  · exact ⟨_, _, _, _, _, _, rfl⟩
  · obtain ⟨x, l, e⟩ := dropped s (s.seq.run == .hedgeDrop) s.seq.hedgeEnd
    rw [e]
    exact ⟨_, _, _, _, _, _, rfl⟩
  · exact ⟨_, _, _, _, _, _, rfl⟩

theorem hedgeDue_groups (s : State) : s.hedgeDue.tree.auxGroup = s.tree.auxGroup ∧ s.hedgeDue.tree.lswGroup = s.tree.lswGroup
    ∧ s.hedgeDue.tree.ledGroup = s.tree.ledGroup := by
  obtain ⟨x, l, d, b, m, n, e⟩ := hedgeDue_parts s
  rw [e]
  exact ⟨rfl, rfl, rfl⟩

/-! ### Registers that hold their value -/

/-- Everything that a write of a held register's value leaves as it was. -/
def State.heldFrame (s u : State) : Prop :=
  u.mem = s.mem ∧ u.scan = s.scan ∧ u.alm = s.alm ∧ u.clock = s.clock ∧ u.seq = s.seq ∧ u.flt = s.flt ∧ u.up = s.up
    ∧ u.strap = s.strap ∧ u.drills = s.drills ∧ u.pwr = s.pwr ∧ u.link.serving = s.link.serving ∧ u.acc = s.acc
    ∧ (u.link.reply = s.link.reply)

/-- A register whose written fields only hold what is written: its row, what it reads, and the state `put` that a written value
gives. -/
structure HeldRegister (a : Nat) (f : State → Word) (row : RegRow) (put : State → Word → State) : Prop where
  base : a < 4096 := by decide
  listed : rowAt a = some row := by rfl
  decoded : a % 256 &&& blockMask (a / 256) = a % 256 := by decide
  single : ∀ s : State, s.members a = [a] := by intro s; rfl
  free : row.key = none := by rfl
  written : row.rw ≠ 0 := by decide
  sticky : row.w1c = 0 := by rfl
  readable : row.wo = false := by rfl
  place : row.dom = .core ∧ a / 256 ∈ [5, 8, 9, 10, 11] ∨ row.posted = true ∧ a / 256 ∉ [5, 8, 9, 10, 11] := by decide
  reads : ∀ s : State, s.fields (a / 256) (row.reg a) = f s
  puts : ∀ (s : State) (v : Word), s.putField row.dom (row.reg a) v = put s v := by intro s v; rfl
  takes : ∀ (s : State) (v : Word), f (put s (v &&& wd row.rw)) = v &&& wd row.rw
  others : ∀ (s : State) (v : Word), ∀ x ∈ heldRegisters, x.1 ≠ a → x.2 (put s v) = x.2 s := by intro s v; simp [heldRegisters]
  frame : ∀ (s : State) (v : Word), s.heldFrame (put s v) := by
    intro s v; exact ⟨rfl, rfl, rfl, rfl, rfl, rfl, rfl, rfl, rfl, rfl, rfl, rfl, rfl⟩

/-- The row of a listed address. -/
def heldRow (a : Nat) : RegRow := (rowAt a).getD (ro a 1 (fun _ => .idPart) .core 0)

theorem wd_toNat (w : Word) : wd w.toNat = w := by simp [wd]

theorem wd_toNat_narrow {n : Nat} (w : BitVec n) : wd w.toNat = w.setWidth 32 := by simp [wd, BitVec.ofNat_toNat]

/-- A field narrower than a word gives back a value within its mask. -/
theorem setWidth_masked (n : Nat) (v m : Word) (low : m.toNat < 2 ^ n) : ((v &&& m).setWidth n).setWidth 32 = v &&& m := by
  apply BitVec.eq_of_toNat_eq
  have small : (v &&& m).toNat ≤ m.toNat := by rw [BitVec.toNat_and]; exact Nat.and_le_right
  rw [BitVec.toNat_setWidth, BitVec.toNat_setWidth, Nat.mod_eq_of_lt (Nat.lt_of_le_of_lt small low), Nat.mod_eq_of_lt (v &&& m).isLt]

/-- Each of them is one. -/
theorem heldRegister_of_mem {a : Nat} {f : State → Word} (mem : (a, f) ∈ heldRegisters) : ∃ put, HeldRegister a f (heldRow a) put := by
  simp only [heldRegisters, List.mem_cons, List.not_mem_nil, or_false, Prod.mk.injEq] at mem
  rcases mem with ⟨rfl, rfl⟩ | ⟨rfl, rfl⟩ | ⟨rfl, rfl⟩ | ⟨rfl, rfl⟩ | ⟨rfl, rfl⟩ | ⟨rfl, rfl⟩ | ⟨rfl, rfl⟩ | ⟨rfl, rfl⟩ | ⟨rfl, rfl⟩
    | ⟨rfl, rfl⟩ | ⟨rfl, rfl⟩ | ⟨rfl, rfl⟩ | ⟨rfl, rfl⟩ | ⟨rfl, rfl⟩ | ⟨rfl, rfl⟩ | ⟨rfl, rfl⟩ | ⟨rfl, rfl⟩ | ⟨rfl, rfl⟩ | ⟨rfl, rfl⟩
    | ⟨rfl, rfl⟩ | ⟨rfl, rfl⟩
  · exact ⟨fun s v => { s with otp.addr := v }, { reads := fun _ => wd_toNat _, takes := fun _ _ => rfl }⟩
  · exact ⟨fun s v => { s with otp.data := v }, { reads := fun _ => wd_toNat _, takes := fun _ _ => rfl }⟩
  · exact ⟨fun s v => { s with panel.vcomGroup := v.setWidth 8 },
      { reads := fun _ => wd_toNat_narrow _, takes := fun _ v => setWidth_masked 8 v _ (by decide) }⟩
  · exact ⟨fun s v => { s with panel.qcSel := v }, { reads := fun _ => wd_toNat _, takes := fun _ _ => rfl }⟩
  · exact ⟨fun s v => { s with link.cfg := v.setWidth 2 },
      { reads := fun _ => wd_toNat_narrow _, takes := fun _ v => setWidth_masked 2 v _ (by decide) }⟩
  · exact ⟨fun s v => { s with pgh.index := v }, { reads := fun _ => wd_toNat _, takes := fun _ _ => rfl }⟩
  · exact ⟨fun s v => { s with pgh.cfg := v }, { reads := fun _ => wd_toNat _, takes := fun _ _ => rfl }⟩
  · exact ⟨fun s v => { s with therm.group0 := v }, { reads := fun _ => wd_toNat _, takes := fun _ _ => rfl }⟩
  · exact ⟨fun s v => { s with therm.group1 := v }, { reads := fun _ => wd_toNat _, takes := fun _ _ => rfl }⟩
  · exact ⟨fun s v => { s with ledger.cellSel := v }, { reads := fun _ => wd_toNat _, takes := fun _ _ => rfl }⟩
  · exact ⟨fun s v => { s with rw.cfg := v }, { reads := fun _ => wd_toNat _, takes := fun _ _ => rfl }⟩
  · exact ⟨fun s v => { s with rw.recSel := v }, { reads := fun _ => wd_toNat _, takes := fun _ _ => rfl }⟩
  · exact ⟨fun s v => { s with rtc.stageT := v }, { reads := fun _ => wd_toNat _, takes := fun _ _ => rfl }⟩
  · exact ⟨fun s v => { s with rtc.stageD := v }, { reads := fun _ => wd_toNat _, takes := fun _ _ => rfl }⟩
  · exact ⟨fun s v => { s with rtc.alm1 := v }, { reads := fun _ => wd_toNat _, takes := fun _ _ => rfl }⟩
  · exact ⟨fun s v => { s with rtc.alm1D := v }, { reads := fun _ => wd_toNat _, takes := fun _ _ => rfl }⟩
  · exact ⟨fun s v => { s with rtc.alm2 := v }, { reads := fun _ => wd_toNat _, takes := fun _ _ => rfl }⟩
  · exact ⟨fun s v => { s with rtc.alm2D := v }, { reads := fun _ => wd_toNat _, takes := fun _ _ => rfl }⟩
  · exact ⟨fun s v => { s with tree.auxGroup := v.setWidth 4 },
      { reads := fun s => by
          obtain ⟨aux, lsw, led⟩ := hedgeDue_groups s
          exact (wd_toNat_narrow s.hedgeDue.tree.auxGroup).trans (by rw [aux]), takes := fun _ v => setWidth_masked 4 v _ (by decide) }⟩
  · exact ⟨fun s v => { s with tree.lswGroup := v.setWidth 4 },
      { reads := fun s => by
          obtain ⟨aux, lsw, led⟩ := hedgeDue_groups s
          exact (wd_toNat_narrow s.hedgeDue.tree.lswGroup).trans (by rw [lsw]), takes := fun _ v => setWidth_masked 4 v _ (by decide) }⟩
  · exact ⟨fun s v => { s with tree.ledGroup := v.setWidth 8 },
      { reads := fun s => by
          obtain ⟨aux, lsw, led⟩ := hedgeDue_groups s
          exact (wd_toNat_narrow s.hedgeDue.tree.ledGroup).trans (by rw [led]), takes := fun _ v => setWidth_masked 8 v _ (by decide) }⟩

/-- A held register reads through time, accesses and the link's records. -/
theorem held_heard {s t : State} {n q : Nat} {k : LinkState} {x : AccessState}
    (e : t = { s with now := n, link := k, rtc.quietAt := q, acc := x }) (cfg : k.cfg = s.link.cfg) :
    ∀ y ∈ heldRegisters, y.2 t = y.2 s := by
  subst e
  simp [heldRegisters, cfg]

namespace HeldRegister

variable {a : Nat} {f : State → Word} {row : RegRow} {put : State → Word → State}

theorem lands (r : HeldRegister a f row put) (s : State) (k : Nat) (d : Word) (full : Bool) : ∃ x : AccessState,
    s.land (4096 * k + a) d full = { put s (aliasOp k (f s) d &&& wd row.rw) with acc := x } ∧ x.posted = s.acc.posted := by
  obtain ⟨n, l, e⟩ := landOne_field (s := s) (op := k) (d := d) (full := full) r.listed r.written r.sticky r.readable
  have value : s.written a k d = aliasOp k (f s) d &&& wd row.rw := by
    simp only [State.written, r.listed, r.reads]
  obtain ⟨-, -, -, -, -, -, -, -, -, -, -, acc, -⟩ := r.frame s (aliasOp k (f s) d &&& wd row.rw)
  rw [land_single r.base (r.single s), e, r.puts, value]
  refine ⟨_, rfl, ?_⟩
  change (put s (aliasOp k (f s) d &&& wd row.rw)).acc.posted = s.acc.posted
  rw [acc]

theorem mask (r : HeldRegister a f row put) : heldMask a = wd row.rw := by
  simp only [heldMask, r.listed]

theorem effect (r : HeldRegister a f row put) : row.effect = true := by
  simp [RegRow.effect, r.written]

theorem decode (r : HeldRegister a f row put) (s : State) (op : AliasOp) :
    s.decodeAddr (4096 * opCode op + a) = some (4096 * opCode op + a) :=
  decodeAddr_listed s (opCode_lt op) r.base r.listed (.inr (by simp [RegRow.aliased, r.written])) r.decoded

end HeldRegister

/-- What the obligation says of the state `u` after a held register's write, from the state `s` before its letter. -/
def State.onlyHeld (s u : State) (a : Nat) (f : State → Word) (w : Word) : Prop :=
  f u = w ∧ (∀ c g, (c, g) ∈ heldRegisters → c ≠ a → g u = g s)
    ∧ u.mem = s.mem ∧ u.scan = s.scan ∧ u.alm = s.alm ∧ u.clock = s.clock ∧ u.seq = s.seq ∧ u.flt = s.flt ∧ u.up = s.up
    ∧ u.strap = s.strap ∧ u.drills = s.drills ∧ u.pwr = s.pwr

/-- A value landed between two stretches of the link's own work. -/
theorem HeldRegister.served {a : Nat} {f : State → Word} {row : RegRow} {put : State → Word → State} (r : HeldRegister a f row put)
    (mem : (a, f) ∈ heldRegisters) {s b u : State} {n m q p : Nat} {k j : LinkState} {x y : AccessState} {op : Nat} {d : Word}
    (before : b = { s with now := n, link := k, rtc.quietAt := q, acc := x }) (cfg : k.cfg = s.link.cfg)
    (after : u = { put b (aliasOp op (f b) d &&& wd row.rw) with now := m, link := j, rtc.quietAt := p, acc := y })
    (cfg' : j.cfg = (put b (aliasOp op (f b) d &&& wd row.rw)).link.cfg) : s.onlyHeld u a f (aliasOp op (f s) d &&& heldMask a) := by
  have heard := held_heard before cfg
  have told := held_heard after cfg'
  have same : f b = f s := heard (a, f) mem
  obtain ⟨mem', scan, alm, clock, seq, flt, up, strap, drills, pwr, -⟩ := r.frame b (aliasOp op (f b) d &&& wd row.rw)
  refine ⟨?_, fun c g other ne => ?_, ?_⟩
  · have value := told (a, f) mem
    have taken := r.takes b (aliasOp op (f b) d)
    rw [r.mask, ← same]
    exact value.trans taken
  · exact (told (c, g) other).trans ((r.others b _ (c, g) other ne).trans (heard (c, g) other))
  · rw [after]
    refine ⟨mem'.trans ?_, scan.trans ?_, alm.trans ?_, clock.trans ?_, seq.trans ?_, flt.trans ?_, up.trans ?_, strap.trans ?_,
      drills.trans ?_, pwr.trans ?_⟩ <;> rw [before]

/-- Settles O17: a posted register takes its value when the write lands, one of the logic core in the letter itself. -/
theorem writeServed : Obligations.WriteServed := by
  intro s v op d a f mem h q
  obtain ⟨put, r⟩ := heldRegister_of_mem mem
  generalize heldRow a = row at r
  have low : 4096 * opCode op + a < 0x4000 := by have := opCode_lt op; have := r.base; omega
  have at_ : rowAt ((4096 * opCode op + a) % 4096) = some row := by
    rw [show (4096 * opCode op + a) % 4096 = a by have := r.base; omega]
    exact r.listed
  have block : (Fin.ofNat 16 (a / 256)).val = blockOf (4096 * opCode op + a) := by
    have := r.base
    simp only [blockOf, Fin.val_ofNat]
    omega
  refine ⟨s.viaWord v (4096 * opCode op + a) d, (s.viaWord v (4096 * opCode op + a) d).postedLand (Fin.ofNat 16 (a / 256)).val, rfl, rfl, ?_⟩
  rw [block]
  rcases r.place with ⟨core, inside⟩ | ⟨posted, outside⟩
  · obtain ⟨x, land, settled⟩ := r.lands (s.begun (viaWrite v (4096 * opCode op + a) d)) (opCode op) d s.fullDecode
    have run := viaWord_landsNow h q low (r.decode s op) at_ r.free r.effect core
    dsimp only at run
    rw [land] at run
    obtain ⟨k, answered, -, cfg⟩ := answer_keeps
      { put (s.begun (viaWrite v (4096 * opCode op + a) d))
          (aliasOp (opCode op) (f (s.begun (viaWrite v (4096 * opCode op + a) d))) d &&& wd row.rw) with acc := x }
      (!((viaWrite v (4096 * opCode op + a) d).kind == 2)) 0x03 (viaWrite v (4096 * opCode op + a) d).addr
      (viaWrite v (4096 * opCode op + a) d).tag (viaWrite v (4096 * opCode op + a) d).crc 0 []
    rw [answered] at run
    have idle : ∀ b, (s.viaWord v (4096 * opCode op + a) d).postedLand b = s.viaWord v (4096 * opCode op + a) d := by
      intro b
      have none : (s.viaWord v (4096 * opCode op + a) d).acc.posted = [] := by
        rw [run]
        exact settled.trans (quiet_parts q).2.2.1
      rw [State.postedLand, none]
      rfl
    rw [idle]
    obtain ⟨value, others, same⟩ := r.served mem (b := s.begun (viaWrite v (4096 * opCode op + a) d)) rfl rfl run cfg
    exact ⟨value, fun _ => rfl, fun no => absurd inside no, others, same⟩
  · obtain ⟨k, -, cfg, accepted⟩ := viaWord_posts h q low (r.decode s op) at_ r.free r.effect posted
    obtain ⟨k', serving, cfg', landed⟩ := viaWord_lands h q low (r.decode s op) at_ r.free r.effect posted
    generalize hb : ({ s with now := s.now + postSpan row, link := k', rtc.quietAt := s.now } : State) = b at landed
    obtain ⟨x, land, -⟩ := r.lands b (opCode op) d s.fullDecode
    have idle : (put b (aliasOp (opCode op) (f b) d &&& wd row.rw)).link.serving = [] := by
      obtain ⟨-, -, -, -, -, -, -, -, -, -, kept, -⟩ := r.frame b (aliasOp (opCode op) (f b) d &&& wd row.rw)
      rw [kept, ← hb, serving]
    rw [land, pump_nil (s := { put b (aliasOp (opCode op) (f b) d &&& wd row.rw) with acc := x }) idle] at landed
    obtain ⟨value, others, same⟩ := r.served mem hb.symm cfg' landed rfl
    exact ⟨value, fun yes => absurd yes outside, fun _ => held_heard accepted cfg _ mem, others, same⟩

end Sys2Proof.Machine
end

section
/-! PROOFS. Vectors; writes of the logic core that act at once: the pigeonholes' actions, the self-test request, WBUD and FORCE_HOT
(R155, R200, R204, R218, R231, R234). -/

namespace Sys2Proof.Machine

/-! ### Places of a vector -/

section
variable {α β : Type} [Inhabited α] [Inhabited β] {n : Nat}

theorem vget_of_lt (v : Vector α n) {i : Nat} (h : i < n) : vget v i = v[i] := by
  simp [vget, Array.getD, h]

@[simp] theorem vget_vset_self (v : Vector α n) {i : Nat} (x : α) (h : i < n) : vget (vset v i x) i = x := by
  rw [vget_of_lt _ h, vset, Vector.getElem_setIfInBounds_self]

@[simp] theorem vget_vset_other (v : Vector α n) {i j : Nat} (x : α) (ne : j ≠ i) : vget (vset v i x) j = vget v j := by
  by_cases h : j < n
  · rw [vget_of_lt _ h, vget_of_lt _ h, vset, Vector.getElem_setIfInBounds_ne h ne.symm]
  · simp [vget, Array.getD, h]

@[simp] theorem vget_vmod_self (v : Vector α n) {i : Nat} (f : α → α) (h : i < n) : vget (vmod v i f) i = f (vget v i) :=
  vget_vset_self v _ h

@[simp] theorem vget_vmod_other (v : Vector α n) {i j : Nat} (f : α → α) (ne : j ≠ i) : vget (vmod v i f) j = vget v j :=
  vget_vset_other v _ ne

theorem vget_vmapIdx (v : Vector α n) (f : Nat → α → β) {i : Nat} (h : i < n) : vget (vmapIdx f v) i = f i (vget v i) := by
  rw [vget_of_lt _ h, vget_of_lt _ h]
  simp [vmapIdx]

theorem vget_vgen (f : Nat → α) {i : Nat} (h : i < n) : vget (vgen n f) i = f i := by
  rw [vget_of_lt _ h]
  simp [vgen]

/-- Places rewritten one after another, each once. -/
theorem vget_foldl_vmod (f : Nat → α → α) (i : Nat) : ∀ (l : List Nat) (v : Vector α n), l.Nodup → (∀ k ∈ l, k < n) →
    vget (l.foldl (fun v k => vmod v k (f k)) v) i = if i ∈ l then f i (vget v i) else vget v i
  | [], v, _, _ => by simp
  | k :: l, v, once, below => by
    rw [List.foldl_cons, vget_foldl_vmod f i l _ (List.nodup_cons.1 once).2 (fun j h => below j (List.mem_cons_of_mem k h))]
    by_cases e : i = k
    · subst e
      simp [(List.nodup_cons.1 once).1, below i List.mem_cons_self]
    · simp [e]
end

/-! ### A write of the logic core -/

/-- A write that the logic core serves at once: t is what the landing makes of the letter's state, but for the test controls. -/
theorem core_letter {s t : State} {v : Via} {a : Nat} {d : Word} {row : RegRow} {x : AccessState} (h : s.takes (viaWrite v a d) = true)
    (q : s.quiet = true) (ha : a < 0x4000) (listed : s.decodeAddr a = some a) (at_ : rowAt (a % 4096) = some row) (free : row.key = none)
    (effect : row.effect = true) (core : row.dom = .core)
    (land : (s.begun (viaWrite v a d)).land a d s.fullDecode = { t with acc := x })
    (link : t.link = (s.begun (viaWrite v a d)).link) (strap : t.strap = s.strap) (now : t.now = s.now) :
    t.heardOnly (s.viaWord v a d) ∧ s.letterCounted (s.viaWord v a d)
      ∧ (s.viaWord v a d).link.reply = s.replyTo (viaWrite v a d) 0 [] := by
  have run := viaWord_landsNow h q ha listed at_ free effect core
  dsimp only at run
  rw [land] at run
  obtain ⟨heard, -, count, reply⟩ := begun_answer (s := s) (t := { t with acc := x }) (v := v) (a := a) (d := d) link strap now
  rw [← run] at heard count reply
  exact ⟨heardOnly_trans (s := t) (t := { t with acc := x }) rfl heard, count, reply⟩

/-- The same for a register written by itself, at a listed address or an alias. -/
theorem core_field {s : State} {v : Via} {k base : Nat} {d : Word} {row : RegRow} (h : s.takes (viaWrite v (4096 * k + base) d) = true)
    (q : s.quiet = true) (place : k < 4) (low : base < 4096) (at_ : rowAt base = some row) (decoded : base % 256 &&& blockMask (base / 256) = base % 256)
    (free : row.key = none) (core : row.dom = .core) (written : row.rw ≠ 0) (sticky : row.w1c = 0) (readable : row.wo = false)
    (single : ∀ s : State, s.members base = [base]) {t : State}
    (put : (s.begun (viaWrite v (4096 * k + base) d)).putField row.dom (row.reg base)
      ((s.begun (viaWrite v (4096 * k + base) d)).written base k d) = t)
    (link : t.link = (s.begun (viaWrite v (4096 * k + base) d)).link) (strap : t.strap = s.strap) (now : t.now = s.now) :
    t.heardOnly (s.viaWord v (4096 * k + base) d) ∧ s.letterCounted (s.viaWord v (4096 * k + base) d)
      ∧ (s.viaWord v (4096 * k + base) d).link.reply = s.replyTo (viaWrite v (4096 * k + base) d) 0 [] := by
  subst put
  obtain ⟨n, l, run⟩ := landOne_field (s := s.begun (viaWrite v (4096 * k + base) d)) (op := k) (d := d) (full := s.fullDecode) at_ written sticky readable
  have effect : row.effect = true := by simp [RegRow.effect, written]
  have listed := decodeAddr_listed s place low at_ (.inr (by simp [RegRow.aliased, written])) decoded
  have same : rowAt ((4096 * k + base) % 4096) = some row := by
    rw [show (4096 * k + base) % 4096 = base by omega]
    exact at_
  exact core_letter (t := _) h q (by omega) listed same free effect core ((land_single low (single _) d s.fullDecode).trans run)
    link strap now

/-- The same for a write-only register at its address. -/
theorem core_act {s : State} {v : Via} {base : Nat} {d : Word} {row : RegRow} (h : s.takes (viaWrite v base d) = true)
    (q : s.quiet = true) (low : base < 4096) (at_ : rowAt base = some row) (decoded : base % 256 &&& blockMask (base / 256) = base % 256)
    (free : row.key = none) (core : row.dom = .core) (written : row.rw = 0) (sticky : row.w1c = 0) (acts : row.wo = true)
    (single : ∀ s : State, s.members base = [base]) {t : State} (act : (s.begun (viaWrite v base d)).act (row.reg base) d = t)
    (link : t.link = (s.begun (viaWrite v base d)).link) (strap : t.strap = s.strap) (now : t.now = s.now) :
    t.heardOnly (s.viaWord v base d) ∧ s.letterCounted (s.viaWord v base d)
      ∧ (s.viaWord v base d).link.reply = s.replyTo (viaWrite v base d) 0 [] := by
  subst act
  obtain ⟨n, l, run, -⟩ := landOne_act (s := s.begun (viaWrite v base d)) (op := 0) (d := d) (full := s.fullDecode) at_ written sticky acts
  have effect : row.effect = true := by simp [RegRow.effect, acts]
  have whole : 4096 * 0 + base = base := by omega
  have listed := decodeAddr_listed s (k := 0) (by decide) low at_ (.inl rfl) decoded
  have land := land_single (k := 0) low (single (s.begun (viaWrite v base d))) d s.fullDecode
  rw [whole] at listed land
  have same : rowAt (base % 4096) = some row := by
    rw [Nat.mod_eq_of_lt low]
    exact at_
  exact core_letter (t := _) h q (by omega) listed same free effect core (land.trans run) link strap now

theorem begun_served (s : State) (l : Letter) : s.heardOnly (s.begun l) := rfl

end Sys2Proof.Machine
end

section
/-! PROOFS. The self-test request, WBUD and FORCE_HOT (R155, R231, R234). -/

namespace Sys2Proof.Machine

/-! ### The self-test request (O27) -/

/-- An alias works bit by bit: the low bits of the value depend on the low bits of what was there. -/
theorem aliasOp_low (op n : Nat) (a b d : Word) (low : a.toNat % 2 ^ n = b.toNat % 2 ^ n) :
    (aliasOp op a d).toNat % 2 ^ n = (aliasOp op b d).toNat % 2 ^ n := by
  have bits : ∀ i, i < n → a.getLsbD i = b.getLsbD i := by
    intro i h
    have := congrArg (fun x => x.testBit i) low
    simpa [Nat.testBit_mod_two_pow, h, BitVec.getLsbD] using this
  apply Nat.eq_of_testBit_eq
  intro i
  rw [Nat.testBit_mod_two_pow, Nat.testBit_mod_two_pow]
  by_cases h : i < n
  · simp only [h, decide_true, Bool.true_and]
    have e := bits i h
    change (aliasOp op a d).getLsbD i = (aliasOp op b d).getLsbD i
    unfold aliasOp
    split_ifs <;> simp [e]
  · simp [h]

/-- The drill number that a write of `DRL_TEST` gives. -/
theorem drlTest_written (s : State) (k : Nat) (d : Word) :
    fld (s.written 0x404 k d) 0 4 = (aliasOp k (wd s.drills.testDrill) d).toNat % 16 := by
  have value : s.written 0x404 k d = aliasOp k (wd (s.drills.result.code * 256 + s.drills.testDrill)) d &&& wd 0xF := rfl
  have low := aliasOp_low k 4 (wd (s.drills.result.code * 256 + s.drills.testDrill)) (wd s.drills.testDrill) d (by
    simp only [wd, BitVec.toNat_ofNat]
    omega)
  have mask : ∀ x : Word, (x &&& wd 0xF).toNat = x.toNat % 16 := by
    intro x
    rw [BitVec.toNat_and]
    exact Nat.and_two_pow_sub_one_eq_mod x.toNat 4
  rw [value, fld, mask]
  simp only [Nat.shiftRight_zero]
  omega

theorem requestTest_parts (s : State) (e : Nat) : (s.requestTest e).link = s.link ∧ (s.requestTest e).strap = s.strap
    ∧ (s.requestTest e).now = s.now := by
  unfold State.requestTest
  dsimp only
  (repeat' split) <;> exact ⟨rfl, rfl, rfl⟩

/-- A request is answered NOT_ELIGIBLE by the drill's number, HOLD or the drill's role (R155, R157). -/
def State.notTestable (s : State) (e : Nat) : Prop :=
  e < 2 ∨ s.inHold = true ∨ (vget s.drills.drill (e - 2)).role ≠ .spare ∧ (vget s.drills.drill (e - 2)).role ≠ .active

section
variable {s : State} {e : Nat}

theorem requestTest_notEligible (no : s.notTestable e) :
    s.requestTest e = { s with drills.testDrill := e, drills.result := .notEligible } := by
  have first : e < 2 ∨ 15 < e ∨ s.inHold = true
      ∨ (!((vget s.drills.drill (e - 2)).role == .spare || (vget s.drills.drill (e - 2)).role == .active)) = true := by
    rcases no with small | hold | ⟨spare, active⟩
    · exact .inl small
    · exact .inr (.inr (.inl hold))
    · exact .inr (.inr (.inr (by simp [spare, active])))
  rw [State.requestTest, if_pos first]

theorem requestTest_eligible (below : e < 16) (yes : ¬ s.notTestable e) : s.requestTest e =
    if s.testBusy then { s with drills.testDrill := e, drills.result := .busy }
    else if (vget s.drills.drill (e - 2)).role == .spare then State.clearStores (State.modDrill
        { s with drills.testDrill := e, drills.result := .running, drills.asked := some e
                 drills.running := s.drills.running ++ [(e, s.now)] } (e - 2) (fun d => { d with role := .testing })) (fun k => k == e)
    else if s.spare.isSome then { s with drills.testDrill := e, drills.swap := some e, drills.asked := some e, drills.result := .running }
    else { s with drills.testDrill := e, drills.result := .noSpare } := by
  have first : ¬ (e < 2 ∨ 15 < e ∨ s.inHold = true
      ∨ (!((vget s.drills.drill (e - 2)).role == .spare || (vget s.drills.drill (e - 2)).role == .active)) = true) := by
    rintro (small | big | hold | role)
    · exact yes (.inl small)
    · omega
    · exact yes (.inr (.inl hold))
    · exact yes (.inr (.inr (by simpa using role)))
  rw [State.requestTest, if_neg first]
end

/-- Settles O27: the request's answers are the branches of `requestTest`. -/
theorem testRequested : Obligations.TestRequested := by
  intro s v op d l h q e role w
  refine ⟨s.viaWord v (4096 * opCode op + 0x404) d, rfl, ?_⟩
  have at_ : rowAt 0x404 = some (rwRow 0x404 1 (fun _ => .drlTest) .core 0xF 0 0xFFFFF8F0) := rfl
  have value : fld ((s.begun l).written 0x404 (opCode op) d) 0 4 = e := drlTest_written _ _ _
  have put : (s.begun l).putField .core .drlTest ((s.begun l).written 0x404 (opCode op) d) = (s.begun l).requestTest e :=
    congrArg (s.begun l).requestTest value
  obtain ⟨link, strap, now⟩ := requestTest_parts (s.begun l) e
  obtain ⟨heard, count, reply⟩ := core_field (k := opCode op) (base := 0x404) h q (opCode_lt op) (by decide) at_ (by decide) rfl rfl
    (by decide) rfl rfl (fun _ => rfl) put link strap now
  refine ⟨count, reply, ?_⟩
  have below : e < 16 := Nat.mod_lt _ (by decide)
  have same : ∀ {t : State}, t.heardOnly ((s.begun l).requestTest e) → t.heardOnly (s.viaWord v (4096 * opCode op + 0x404) d) :=
    fun first => heardOnly_trans first heard
  by_cases no : e < 2 ∨ s.inHold = true ∨ role ≠ .spare ∧ role ≠ .active
  · rw [if_pos no]
    exact same (requestTest_notEligible (s := s.begun l) no ▸ rfl)
  rw [if_neg no]
  have run : (s.begun l).requestTest e = _ := requestTest_eligible (s := s.begun l) below no
  by_cases busy : s.testBusy = true
  · rw [if_pos busy]
    exact same ((run.trans (if_pos busy)) ▸ rfl)
  rw [if_neg busy]
  replace run := run.trans (if_neg busy)
  by_cases spare : role = .spare
  · rw [if_pos spare]
    replace run := run.trans (if_pos (beq_iff_eq.2 spare))
    have stores : (s.viaWord v (4096 * opCode op + 0x404) d).up.stores = vmapIdx (fun k x => if k == e then Store.clear else x) s.up.stores := by
      have up := congrArg State.up heard
      rw [run] at up
      exact congrArg UpState.stores up
    refine ⟨?_, ?_, fun k small ne => ?_⟩
    · rw [stores]
      exact same (run ▸ rfl)
    · rw [stores, vget_vmapIdx _ _ below]
      simp [Store.clear]
    · rw [stores, vget_vmapIdx _ _ small]
      simp [ne]
  rw [if_neg spare]
  replace run := run.trans (if_neg (mt beq_iff_eq.1 spare))
  by_cases ready : s.spare.isSome = true
  · rw [if_pos ready]
    exact same ((run.trans (if_pos ready)) ▸ rfl)
  · rw [if_neg ready]
    exact same ((run.trans (if_neg ready)) ▸ rfl)

/-! ### Writes to an array (R397) -/

/-- The channels that an address of an array chooses, in the order in which they are written. -/
def selNumbers {n : Nat} (mask : Nat) : Sel n → List Nat
  | .one i => [i.val]
  | .broadcast => List.range n
  | .group => maskList n mask

section
variable {n : Nat} (mask : Nat) (sel : Sel n)

theorem selNumbers_lt : ∀ i ∈ selNumbers mask sel, i < n := by
  intro i mem
  cases sel with
  | one j =>
    rw [List.mem_singleton.1 mem]
    exact j.isLt
  | broadcast => exact List.mem_range.1 mem
  | group => exact List.mem_range.1 (List.mem_of_mem_filter mem)

theorem selNumbers_nodup : (selNumbers mask sel).Nodup := by
  cases sel with
  | one j => exact List.nodup_singleton _
  | broadcast => exact List.nodup_range
  | group => exact List.nodup_range.filter _

theorem mem_selNumbers {i : Nat} (h : i < n) : i ∈ selNumbers mask sel ↔ selTakes mask sel i = true := by
  cases sel <;> simp [selNumbers, selTakes, maskList, h]
end

/-- The test controls and the count of reserved bits rewritten. -/
def State.tested (s : State) (n : Nat) (l : SMap Word) : State := { s with acc.rsvdDiff := n, acc.testCtl := l }

/-- The members of an array take a write in turn; what each does is blind to the test controls. -/
theorem land_members {k first : Nat} {d : Word} {full : Bool} {upd : Nat → State → State} (blind : ∀ i t n l, upd i (t.tested n l) = (upd i t).tested n l) :
    ∀ (is : List Nat), (∀ i ∈ is, ∀ t : State, ∃ n l, t.landOne k d full (first + i) = (upd i t).tested n l) → ∀ t : State,
    ∃ n l, (is.map (first + ·)).foldl (fun (t : State) b => t.landOne k d full b) t = (is.foldl (fun t i => upd i t) t).tested n l
  | [], _, t => ⟨t.acc.rsvdDiff, t.acc.testCtl, rfl⟩
  | i :: is, one, t => by
    obtain ⟨n, l, e⟩ := one i List.mem_cons_self t
    obtain ⟨n', l', e'⟩ := land_members blind is (fun j mem => one j (List.mem_cons_of_mem i mem)) ((upd i t).tested n l)
    refine ⟨n', l', ?_⟩
    rw [List.map_cons, List.foldl_cons, e, e', List.foldl_cons]
    have slide : ∀ (is : List Nat) (t : State), is.foldl (fun t i => upd i t) (t.tested n l) = (is.foldl (fun t i => upd i t) t).tested n l := by
      intro is
      induction is with
      | nil => intro t; rfl
      | cons j is ih =>
        intro t
        rw [List.foldl_cons, blind, ih, List.foldl_cons]
    rw [slide]
    rfl

/-! ### WBUD and FORCE_HOT (O39) -/

/-- The row of the plots' configuration words. -/
def plotCfgRow : RegRow := rwRow 0x9C0 64 .thermCfg .core 1 0 0xFFFFFFFE

theorem rowAt_plotCfg {i : Nat} (h : i < 64) : rowAt (0x9C0 + i) = some plotCfgRow := by
  have all : ∀ i : Fin 64, rowAt (0x9C0 + i.val) = some plotCfgRow := by
    intro i
    fin_cases i <;> rfl
  exact all ⟨i, h⟩

/-- One plot's configuration word written through an alias. -/
def State.cfgWrite (k : Nat) (d : Word) (i : Nat) (t : State) : State :=
  { t with therm.plot := vmod t.therm.plot i (fun x => { x with cfg := aliasOp k x.cfg d &&& 1#32 }) }

theorem landOne_plotCfg (k : Nat) (d : Word) (full : Bool) {i : Nat} (h : i < 64) (t : State) :
    ∃ n l, t.landOne k d full (0x9C0 + i) = (t.cfgWrite k d i).tested n l := by
  obtain ⟨n, l, run⟩ := landOne_field (s := t) (op := k) (d := d) (full := full) (rowAt_plotCfg h) (by decide) rfl rfl
  have block : (0x9C0 + i) / 256 = 9 := by omega
  have reg : plotCfgRow.reg (0x9C0 + i) = .thermCfg i := by
    simp only [RegRow.reg, plotCfgRow, rwRow, Nat.add_sub_cancel_left]
  have value : t.written (0x9C0 + i) k d = aliasOp k (vget t.therm.plot i).cfg d &&& 1#32 := by
    simp only [State.written, rowAt_plotCfg h, block, reg]
    exact congrArg (fun w => aliasOp k w d &&& 1#32) (wd_toNat (vget t.therm.plot i).cfg)
  rw [reg, value] at run
  exact ⟨n, l, run⟩

theorem members_plotCfg (s : State) (sel : Sel 64) : s.members (selAddr 0x9C0 0x910 0x911 sel) =
    (selNumbers (s.therm.group0.toNat + s.therm.group1.toNat * 2 ^ 32) sel).map (0x9C0 + ·) := by
  cases sel with
  | one i =>
    have := i.isLt
    change s.members (0x9C0 + i.val) = [0x9C0 + i.val]
    unfold State.members
    repeat rw [if_neg (by omega)]
  | broadcast => rfl
  | group => rfl

/-- Every address of the array is listed, with no key, its writes acting in the logic core. -/
theorem plotCfg_listed (sel : Sel 64) : ∃ row, rowAt (selAddr 0x9C0 0x910 0x911 sel) = some row ∧ row.key = none ∧ row.effect = true
    ∧ row.dom = .core ∧ row.aliased = true ∧ selAddr 0x9C0 0x910 0x911 sel < 4096
    ∧ selAddr 0x9C0 0x910 0x911 sel % 256 &&& blockMask (selAddr 0x9C0 0x910 0x911 sel / 256) = selAddr 0x9C0 0x910 0x911 sel % 256 := by
  cases sel with
  | one i =>
    refine ⟨plotCfgRow, rowAt_plotCfg i.isLt, rfl, rfl, rfl, rfl, ?_, ?_⟩
    · change 0x9C0 + i.val < 4096
      omega
    · revert i
      decide
  | broadcast => exact ⟨_, rfl, rfl, rfl, rfl, rfl, by decide, by decide⟩
  | group => exact ⟨_, rfl, rfl, rfl, rfl, rfl, by decide, by decide⟩

/-- The plots' words rewritten one after another. -/
theorem foldl_cfgWrite (k : Nat) (d : Word) : ∀ (is : List Nat) (t : State), is.foldl (fun t i => t.cfgWrite k d i) t =
    { t with therm.plot := is.foldl (fun v i => vmod v i (fun x => { x with cfg := aliasOp k x.cfg d &&& 1#32 })) t.therm.plot }
  | [], _ => rfl
  | i :: is, t => by
    rw [List.foldl_cons, foldl_cfgWrite k d is]
    rfl

/-- Settles O39: WBUD is one register, FORCE_HOT an array whose members take the write in turn. -/
theorem thermalWrites : Obligations.ThermalWrites := by
  intro s v op d q b
  refine ⟨fun h => ⟨s.viaWord v (4096 * opCode op + 0x900) d, rfl, ?_⟩, fun sel => ?_⟩
  · have at_ : rowAt 0x900 = some (rwRow 0x900 1 (fun _ => .thermCtl) .core 0xFFFF 0 0xFFFF0000) := rfl
    have value : fld ((s.begun b).written 0x900 (opCode op) d) 0 16 = (aliasOp (opCode op) s.therm.ctl d).toNat % 65536 := by
      have written : (s.begun b).written 0x900 (opCode op) d = aliasOp (opCode op) s.therm.ctl d &&& wd 0xFFFF :=
        congrArg (fun w => aliasOp (opCode op) w d &&& wd 0xFFFF) (wd_toNat s.therm.ctl)
      rw [written, fld, BitVec.toNat_and, Nat.shiftRight_zero, show (wd 0xFFFF).toNat = 2 ^ 16 - 1 from rfl,
        Nat.and_two_pow_sub_one_eq_mod, Nat.mod_mod]
    have put : (s.begun b).putField .core .thermCtl ((s.begun b).written 0x900 (opCode op) d) =
        { s.begun b with therm.ctl := wd (min ((aliasOp (opCode op) s.therm.ctl d).toNat % 65536) s.budgetMw) } :=
      congrArg (fun n => ({ s.begun b with therm.ctl := wd (min n s.budgetMw) } : State)) value
    obtain ⟨heard, count, reply⟩ := core_field (k := opCode op) (base := 0x900) h q (opCode_lt op) (by decide) at_ (by decide) rfl rfl
      (by decide) rfl rfl (fun _ => rfl) put rfl rfl rfl
    refine ⟨count, reply, heardOnly_trans ?_ heard⟩
    rfl
  · intro l h
    refine ⟨s.viaWord v (4096 * opCode op + selAddr 0x9C0 0x910 0x911 sel) d, rfl, ?_⟩
    obtain ⟨row, at_, free, effect, core, aliased, low, decoded⟩ := plotCfg_listed sel
    have place := opCode_lt op
    have base : (4096 * opCode op + selAddr 0x9C0 0x910 0x911 sel) % 4096 = selAddr 0x9C0 0x910 0x911 sel := by omega
    have alias_ : (4096 * opCode op + selAddr 0x9C0 0x910 0x911 sel) / 4096 = opCode op := by omega
    generalize hn : selNumbers (s.therm.group0.toNat + s.therm.group1.toNat * 2 ^ 32) sel = numbers
    have below : ∀ i ∈ numbers, i < 64 := hn ▸ selNumbers_lt _ sel
    obtain ⟨n, m, run⟩ := land_members (k := opCode op) (first := 0x9C0) (d := d) (full := s.fullDecode)
      (upd := State.cfgWrite (opCode op) d) (fun _ _ _ _ => rfl) numbers
      (fun i mem t => landOne_plotCfg (opCode op) d s.fullDecode (below i mem) t) (s.begun l)
    rw [foldl_cfgWrite] at run
    generalize hp : numbers.foldl (fun v i => vmod v i (fun x => { x with cfg := aliasOp (opCode op) x.cfg d &&& 1#32 })) s.therm.plot = plot
    have land : (s.begun l).land (4096 * opCode op + selAddr 0x9C0 0x910 0x911 sel) d s.fullDecode =
        { ({ s.begun l with therm.plot := plot } : State) with acc := { s.acc with rsvdDiff := n, testCtl := m } } := by
      have members : (s.begun l).members (selAddr 0x9C0 0x910 0x911 sel) = numbers.map (0x9C0 + ·) := hn ▸ members_plotCfg (s.begun l) sel
      rw [← hp, State.land, base, alias_, members]
      exact run
    obtain ⟨heard, count, reply⟩ := core_letter (t := { s.begun l with therm.plot := plot }) h q (by omega) (decodeAddr_listed s place low at_ (.inr aliased) decoded)
      (base.symm ▸ at_) free effect core land rfl rfl rfl
    have plots : (s.viaWord v (4096 * opCode op + selAddr 0x9C0 0x910 0x911 sel) d).therm.plot = plot := by rw [heard]
    refine ⟨count, reply, ?_, fun i small => ?_⟩
    · rw [plots]
      refine heardOnly_trans ?_ heard
      rfl
    · rw [plots, ← hp, vget_foldl_vmod _ i numbers _ (hn ▸ selNumbers_nodup _ sel) below]
      rw [← hn]
      simp only [mem_selNumbers _ sel small]

end Sys2Proof.Machine
end

section
/-! PROOFS. Cancel and release (R193, R200, R204). -/

namespace Sys2Proof.Machine

/-! ### The actions touch the pigeonholes alone, and read nothing else -/

/-- Only the pigeonholes, the sieve and what the hardware has just set differ. -/
def State.pghOnly (s t : State) : Prop := t = { s with
  pgh.tab := t.pgh.tab, pgh.done := t.pgh.done, pgh.sieve := t.pgh.sieve, pgh.sieve0 := t.pgh.sieve0, acc := t.acc }

theorem State.pghOnly.trans {s t u : State} (h : s.pghOnly t) (g : t.pghOnly u) : s.pghOnly u := by
  unfold State.pghOnly at *
  rw [g, h]

theorem State.pghOnly.refl (s : State) : s.pghOnly s := rfl

section
variable (s : State) (n : Nat)

theorem reachDone_only : s.pghOnly (s.reachDone n) := by
  unfold State.reachDone
  dsimp only
  split <;> rfl

theorem placeCancel_only : s.pghOnly (s.placeCancel n) := by
  unfold State.placeCancel
  dsimp only
  split <;> rfl

/-- An entry written, an operation on it, and the kept payloads settled. -/
theorem settled_only {op : State → State} (only : ∀ s : State, s.pghOnly (op s)) (p : Pgh) :
    s.pghOnly (op (s.setPgh n p)).settleKept := by
  have written : s.pghOnly (s.setPgh n p) := rfl
  have settled : ∀ t : State, t.pghOnly t.settleKept := fun t => rfl
  exact (written.trans (only _)).trans (settled _)

theorem cancelPgh_only : s.pghOnly (s.cancelPgh n) := by
  unfold State.cancelPgh
  dsimp only
  split
  · split <;> exact settled_only s n (fun t => reachDone_only t n) _
  · split
    · rfl
    · exact settled_only s n (fun t => placeCancel_only t n) _
  · split
    · rfl
    · exact settled_only s n (fun t => placeCancel_only t n) _
  · rfl

theorem releasePgh_only : s.pghOnly (s.releasePgh n) := by
  unfold State.releasePgh
  dsimp only
  split <;> rfl
end

section
variable {s t : State} (same : s.pgh = t.pgh) (n : Nat)
include same

theorem reachDone_congr : (s.reachDone n).pgh = (t.reachDone n).pgh := by
  obtain ⟨⟩ := s
  obtain ⟨⟩ := t
  cases same
  unfold State.reachDone
  dsimp only
  split <;> rfl

theorem placeCancel_congr : (s.placeCancel n).pgh = (t.placeCancel n).pgh := by
  have window : s.freeWindow = t.freeWindow := by simp only [State.freeWindow, same]
  unfold State.placeCancel
  rw [window]
  obtain ⟨⟩ := s
  obtain ⟨⟩ := t
  cases same
  dsimp only
  split <;> rfl

theorem settleKept_congr : s.settleKept.pgh = t.settleKept.pgh := by
  obtain ⟨⟩ := s
  obtain ⟨⟩ := t
  cases same
  rfl

theorem setPgh_congr (p : Pgh) : (s.setPgh n p).pgh = (t.setPgh n p).pgh := by
  simp only [State.setPgh, same]

theorem cancelPgh_congr : (s.cancelPgh n).pgh = (t.cancelPgh n).pgh := by
  have entry : s.pgh_ n = t.pgh_ n := by simp only [State.pgh_, same]
  have waits : s.referred n = t.referred n := by simp only [State.referred, same]
  simp only [State.cancelPgh, entry, waits]
  split
  · split <;> exact settleKept_congr (reachDone_congr (setPgh_congr same n _) n)
  · split
    · exact same
    · exact settleKept_congr (placeCancel_congr (setPgh_congr same n _) n)
  · split
    · exact same
    · exact settleKept_congr (placeCancel_congr (setPgh_congr same n _) n)
  · exact same

theorem releasePgh_congr : (s.releasePgh n).pgh = (t.releasePgh n).pgh := by
  have entry : s.pgh_ n = t.pgh_ n := by simp only [State.pgh_, same]
  have waits : s.referred n = t.referred n := by simp only [State.referred, same]
  simp only [State.releasePgh, entry, waits]
  split
  · exact setPgh_congr same n _
  · exact same

theorem pghAct_congr (a : Nat) : (s.pghAct a n).pgh = (t.pghAct a n).pgh := by
  unfold State.pghAct
  (repeat' split) <;> first | exact same | exact cancelPgh_congr same n | exact releasePgh_congr same n
end

theorem pghAct_only (s : State) (a n : Nat) : s.pghOnly (s.pghAct a n) := by
  unfold State.pghAct
  split
  · rfl
  · split
    · exact cancelPgh_only s n
    · split
      · split
        · rfl
        · exact releasePgh_only s n
      · rfl

/-- A run of actions from equal pigeonholes. -/
theorem pghActs_congr {f g : State → Nat → State} (each : ∀ {s t : State}, s.pgh = t.pgh → ∀ n, (f s n).pgh = (g t n).pgh) :
    ∀ (l : List Nat) {s t : State}, s.pgh = t.pgh → (l.foldl f s).pgh = (l.foldl g t).pgh
  | [], _, _, same => same
  | n :: l, _, _, same => pghActs_congr each l (each same n)

theorem pghActs_only (s : State) {a : Nat} (action : a ≠ 3) (l : List Nat) : s.pghOnly (s.pghActs a l) := by
  rw [State.pghActs, if_neg action]
  exact foldl_related State.pghOnly State.pghOnly.refl State.pghOnly.trans _ (fun t n => pghAct_only t a n) l s

/-! ### PGH_CTL (O25) -/

/-- The address of `PGH_CTL` in a scope. -/
def scopeAddr : PghScope → Nat
  | .indexed => 0x805
  | .broadcast => 0x806
  | .group => 0x807

/-- The pigeonholes that a scope names. -/
def State.scopeNumbers (s : State) : PghScope → List Nat
  | .indexed => [s.pghSelected]
  | .broadcast => (List.range 2048).drop 1
  | .group => s.pghGroup

/-- A write of `PGH_CTL` through a scope acts at once. -/
theorem pghCtl_acts {s : State} {v : Via} {sc : PghScope} {d : Word} (h : s.takes (viaWrite v (scopeAddr sc) d) = true)
    (q : s.quiet = true) {t : State} (run : (s.begun (viaWrite v (scopeAddr sc) d)).pghActs (fld d 0 2) (s.scopeNumbers sc) = t)
    (link : t.link = (s.begun (viaWrite v (scopeAddr sc) d)).link) (strap : t.strap = s.strap) (now : t.now = s.now) :
    t.heardOnly (s.viaWord v (scopeAddr sc) d) ∧ s.letterCounted (s.viaWord v (scopeAddr sc) d)
      ∧ (s.viaWord v (scopeAddr sc) d).link.reply = s.replyTo (viaWrite v (scopeAddr sc) d) 0 [] := by
  cases sc
  · exact core_act (base := 0x805) h q (by decide) (row := woRow 0x805 1 (fun _ => .pghCtl) .core 0xFFFFFFFC) rfl (by decide) rfl rfl
      rfl rfl rfl (fun _ => rfl) run link strap now
  · exact core_act (base := 0x806) h q (by decide) (row := woRow 0x806 1 (fun _ => .pghCtlAll) .core 0) rfl (by decide) rfl rfl
      rfl rfl rfl (fun _ => rfl) run link strap now
  · exact core_act (base := 0x807) h q (by decide) (row := woRow 0x807 1 (fun _ => .pghCtlGroup) .core 0) rfl (by decide) rfl
      rfl rfl rfl rfl (fun _ => rfl) run link strap now

/-- Cancels and releases leave the rest of the pigeonholes' registers. -/
theorem pghActs_rest {s t : State} (only : s.pghOnly t) : t.pgh.ticket = s.pgh.ticket ∧ t.pgh.cfg = s.pgh.cfg ∧ t.pgh.index = s.pgh.index
    ∧ t.link = s.link ∧ t.strap = s.strap ∧ t.now = s.now := by
  rw [only]
  exact ⟨rfl, rfl, rfl, rfl, rfl, rfl⟩

/-- One action, as the obligation names it. -/
def State.actsOn (a : Fin 3) (w : State) (n : Nat) : State :=
  if n = 0 then w else if a = 0 then w.cancelPgh n else if 2048 ≤ n then w else w.releasePgh n

theorem pghAct_actsOn {a : Fin 3} (action : a ≠ 2) {s t : State} (same : s.pgh = t.pgh) (n : Nat) :
    (s.pghAct (a.val + 1) n).pgh = (t.actsOn a n).pgh := by
  rw [pghAct_congr same n]
  have cases : a = 0 ∨ a = 1 := by omega
  unfold State.pghAct State.actsOn
  rcases cases with rfl | rfl <;> simp [isHidden]

theorem pghGroup_eq (s : State) :
    s.pghGroup = ((List.range 2048).drop 1).filter (fun n => s.pgh.cfg.getLsbD (s.pgh_ n).prio.val) := by
  have first : List.range 2048 = 0 :: List.range' 1 2047 := by
    rw [List.range_eq_range']
    exact List.range'_succ
  rw [State.pghGroup, first, List.filter_cons_of_neg (by simp), List.drop_one, List.tail_cons]
  refine List.filter_congr (fun n mem => ?_)
  have positive : 1 ≤ n := (List.mem_range'_1.1 mem).1
  simp [positive]

/-- Settles O25: the write acts at once, one pigeonhole after another, on the pigeonholes that its scope names. -/
theorem pghActions : Obligations.PghActions := by
  intro s v sc a c l h q
  have address : (match sc with | .indexed => 0x805 | .broadcast => 0x806 | .group => 0x807) = scopeAddr sc := by cases sc <;> rfl
  have letter : l = viaWrite v (scopeAddr sc) (wd (a.val + 1)) := congrArg (fun x => viaWrite v x (wd (a.val + 1))) address
  have run : exec c s = .next (s.viaWord v (scopeAddr sc) (wd (a.val + 1))) := by
    fin_cases a <;> cases sc <;> rfl
  have code : fld (wd (a.val + 1)) 0 2 = a.val + 1 := by
    fin_cases a <;> rfl
  refine ⟨_, run, ?_⟩
  rw [letter] at h ⊢
  by_cases clear : a = 2
  · have acts : (s.begun (viaWrite v (scopeAddr sc) (wd (a.val + 1)))).pghActs (fld (wd (a.val + 1)) 0 2) (s.scopeNumbers sc) =
        { s.begun (viaWrite v (scopeAddr sc) (wd (a.val + 1))) with pgh.lat := Vector.replicate 8 0 } := by
      rw [code, clear]
      rfl
    obtain ⟨heard, count, reply⟩ := pghCtl_acts h q acts rfl rfl rfl
    have pgh : (s.viaWord v (scopeAddr sc) (wd (a.val + 1))).pgh = { s.pgh with lat := Vector.replicate 8 0 } := by rw [heard]; rfl
    dsimp only
    rw [if_pos clear, pgh]
    refine ⟨heardOnly_trans ?_ heard, count, reply, rfl, rfl, rfl, rfl⟩
    rfl
  · have action : a.val + 1 ≠ 3 := by omega
    generalize hb : s.begun (viaWrite v (scopeAddr sc) (wd (a.val + 1))) = b
    have same : b.pgh = s.pgh := by rw [← hb]; rfl
    have acts : b.pghActs (a.val + 1) (s.scopeNumbers sc) = (s.scopeNumbers sc).foldl (fun t n => t.pghAct (a.val + 1) n) b :=
      if_neg action
    have only := pghActs_only b action (s.scopeNumbers sc)
    have each := pghActs_congr (pghAct_actsOn clear) (s.scopeNumbers sc) same
    rw [← acts] at each
    have acted : (s.begun (viaWrite v (scopeAddr sc) (wd (a.val + 1)))).pghActs (fld (wd (a.val + 1)) 0 2) (s.scopeNumbers sc) =
        b.pghActs (a.val + 1) (s.scopeNumbers sc) := by rw [code, hb]
    generalize b.pghActs (a.val + 1) (s.scopeNumbers sc) = t at *
    obtain ⟨ticket, cfg, index, link, strap, now⟩ := pghActs_rest only
    obtain ⟨heard, count, reply⟩ := pghCtl_acts h q acted (by rw [link, hb]) (by rw [strap, ← hb]; rfl) (by rw [now, ← hb]; rfl)
    have pgh : (s.viaWord v (scopeAddr sc) (wd (a.val + 1))).pgh = t.pgh := by rw [heard]
    dsimp only
    rw [if_neg clear, pgh]
    refine ⟨heardOnly_trans ?_ heard, count, reply, by rw [ticket, same], by rw [cfg, same], by rw [index, same], ?_⟩
    · rw [only, ← hb]
      rfl
    · cases sc with
      | indexed => exact each
      | broadcast => exact each
      | group =>
        have list : s.scopeNumbers .group = _ := pghGroup_eq s
        rw [list] at each
        exact each

end Sys2Proof.Machine
end

section
/-! PROOFS. What a cancel and a release do to one pigeonhole (R193, R200, R204). -/

namespace Sys2Proof.Machine

/-! ### Tables, canonical or not -/

section
variable {α : Type} [DecidableEq α] {d : α}

/-- A write keeps the entries of other keys. -/
theorem mem_sset_other {x : Nat × α} {i : Nat} {v : α} (other : x.1 ≠ i) : ∀ {m : SMap α}, x ∈ m → x ∈ sset d m i v
  | (k, w) :: m, mem => by
    have front : ∀ l : SMap α, x ∈ l → x ∈ scons d i v l := by
      intro l mem
      unfold scons
      split
      · exact mem
      · exact List.mem_cons_of_mem _ mem
    rw [sset]
    split
    next same =>
      refine front m ((List.mem_cons.1 mem).resolve_left (fun e => other ?_))
      rw [e, ← same]
    next =>
      split
      · exact front _ mem
      · rcases List.mem_cons.1 mem with e | mem
        · exact e ▸ List.mem_cons_self
        · exact List.mem_cons_of_mem _ (mem_sset_other other mem)

/-- A rewriting keeps the entries that it fixes. -/
theorem mem_smap_fixed {f : Nat → α → α} {x : Nat × α} (listed : x.2 ≠ d) (fixed : f x.1 x.2 = x.2) : ∀ {m : SMap α}, x ∈ m → x ∈ smap d f m
  | (k, w) :: m, mem => by
    rw [smap, scons]
    rcases List.mem_cons.1 mem with e | mem
    · subst e
      rw [if_neg (by rw [fixed]; exact listed), fixed]
      exact List.mem_cons_self
    · split
      · exact mem_smap_fixed listed fixed mem
      · exact List.mem_cons_of_mem _ (mem_smap_fixed listed fixed mem)

/-- A listed entry that a rewriting keeps listed reads as rewritten. -/
theorem sget_smap_listed {f : Nat → α → α} {j : Nat} : ∀ {m : SMap α}, sget d m j ≠ d → f j (sget d m j) ≠ d →
    sget d (smap d f m) j = f j (sget d m j)
  | [], listed, _ => absurd rfl listed
  | (k, v) :: m, listed, kept => by
    by_cases same : j = k
    · simp only [sget, if_pos same] at kept ⊢
      subst same
      rw [smap, scons, if_neg kept, sget, if_pos rfl]
    · simp only [sget, if_neg same] at listed kept ⊢
      by_cases below : j < k
      · exact absurd (if_pos below) listed
      · simp only [if_neg below] at listed kept ⊢
        have rest := sget_smap_listed listed kept
        rw [smap, scons]
        split
        · exact rest
        · rw [sget, if_neg same, if_neg below]
          exact rest
end

/-! ### One entry through the operations -/

section
variable (s : State) (n : Nat) (p : Pgh)

theorem pgh_setPgh (listed : p ≠ Pgh.free) : (s.setPgh n p).pgh_ n = p := sget_sset_ne Pgh.free n p listed s.pgh.tab

/-- An entry as a completion leaves it. -/
def Pgh.asDone (p : Pgh) : Pgh :=
  let p1 := { p with state := .done, units := [], doneDue := false, cancelWaits := false, cancelled := p.cancelled || p.cancelling
                     cancelling := false }
  if (p.keep || p.freeWaits) && !p.ref then p1 else p1.dropUsed

theorem asDone_state (p : Pgh) : p.asDone.state = .done := by
  unfold Pgh.asDone Pgh.dropUsed
  split <;> rfl

theorem asDone_cancelled {p : Pgh} (cancelled : p.cancelled = true) : p.asDone.cancelled = true := by
  unfold Pgh.asDone Pgh.dropUsed
  split <;> simp [cancelled]

theorem ne_free_of_state {p : Pgh} (busy : p.state ≠ .free) : p ≠ Pgh.free := fun e => busy (e ▸ rfl)

theorem reachDone_tab : (s.reachDone n).pgh.tab = sset Pgh.free s.pgh.tab n (s.pgh_ n).asDone := by
  unfold State.reachDone
  dsimp only
  split <;> rfl

theorem reachDone_entry : (s.reachDone n).pgh_ n = (s.pgh_ n).asDone := by
  rw [State.pgh_, reachDone_tab]
  exact sget_sset_ne Pgh.free n _ (ne_free_of_state (by rw [asDone_state]; decide)) s.pgh.tab

theorem reachDone_bit (host : n < 2048) : bit (vget (s.reachDone n).pgh.done (n / 32)) (n % 32) = true := by
  have low : n % 32 < 32 := Nat.mod_lt _ (by decide)
  unfold State.reachDone
  dsimp only
  rw [if_pos host]
  change bit (vget (vmod s.pgh.done (n / 32) (fun w => setBit w (n % 32) true)) (n / 32)) (n % 32) = true
  rw [vget_vmod_self _ _ (by omega)]
  rw [bit, setBit_getLsbD _ _ _ _ low, if_pos rfl]

/-- Settling frees kept payloads alone: an entry keeps its state, and one with nothing to free all of it. -/
def State.settled (s : State) (n : Nat) (p : Pgh) : Pgh := if p.freeWaits && !s.referred n then p.dropKept else p

theorem dropKept_state (p : Pgh) : p.dropKept.state = p.state ∧ p.dropKept.cancelled = p.cancelled ∧ p.dropKept.cancelling = p.cancelling
    ∧ p.dropKept.cancelWaits = p.cancelWaits := by
  unfold Pgh.dropKept Pgh.dropPayload
  split <;> exact ⟨rfl, rfl, rfl, rfl⟩

theorem settled_keeps : (s.settled n p).state = p.state ∧ (s.settled n p).cancelled = p.cancelled
    ∧ (s.settled n p).cancelling = p.cancelling ∧ (s.settled n p).cancelWaits = p.cancelWaits := by
  unfold State.settled
  split
  · exact dropKept_state p
  · exact ⟨rfl, rfl, rfl, rfl⟩

theorem settled_idle (idle : p.freeWaits = false) : s.settled n p = p := by
  rw [State.settled, idle]
  rfl

theorem settleKept_entry (busy : (s.pgh_ n).state ≠ .free) : s.settleKept.pgh_ n = s.settled n (s.pgh_ n) :=
  sget_smap_listed (ne_free_of_state busy) (ne_free_of_state (by
    change (s.settled n (s.pgh_ n)).state ≠ _
    rw [(settled_keeps s n _).1]
    exact busy))

theorem settleKept_mem {x : Nat × Pgh} (idle : x.2.freeWaits = false) (listed : x.2 ≠ Pgh.free) (mem : x ∈ s.pgh.tab) :
    x ∈ s.settleKept.pgh.tab :=
  mem_smap_fixed listed (settled_idle s x.1 x.2 idle) mem

theorem settleKept_rest : s.settleKept.pgh.done = s.pgh.done ∧ s.settleKept.pgh.sieve = s.pgh.sieve := ⟨rfl, rfl⟩
end

/-! ### The sieve's window for a cancel -/

section
variable {s : State} {n : Nat}

theorem placeCancel_window {i : Nat} (window : s.freeWindow = some i) : s.placeCancel n =
    { s with pgh.sieve := vset s.pgh.sieve i (some { pgh := n, cancel := true, rect := (s.pgh_ n).startedRect, ticket := (s.pgh_ n).ticket })
             pgh.tab := sset Pgh.free s.pgh.tab n { s.pgh_ n with cancelWaits := false } } := by
  rw [State.placeCancel, window]
  rfl

theorem placeCancel_full (full : s.freeWindow = none) : s.placeCancel n = s.setPgh n { s.pgh_ n with cancelWaits := true } := by
  rw [State.placeCancel, full]

theorem freeWindow_lt {i : Nat} (window : s.freeWindow = some i) : i < 32 :=
  List.mem_range.1 (List.mem_of_find?_eq_some (p := fun i => (vget s.pgh.sieve i).isNone) window)

/-- Whichever, the entry is what it was but for the wait, the sieve has the window or the entry waits. -/
theorem placeCancel_cases (busy : (s.pgh_ n).state ≠ .free) : ∃ b, (s.placeCancel n).pgh_ n = { s.pgh_ n with cancelWaits := b }
    ∧ (s.placeCancel n).pgh.done = s.pgh.done
    ∧ (∀ x ∈ s.pgh.tab, x.1 ≠ n → x ∈ (s.placeCancel n).pgh.tab)
    ∧ (s.freeWindow.isSome = true → ∃ i, i < 32 ∧ vget (s.placeCancel n).pgh.sieve i =
        some { pgh := n, cancel := true, rect := (s.pgh_ n).startedRect, ticket := (s.pgh_ n).ticket })
    ∧ (s.freeWindow = none → b = true) := by
  cases window : s.freeWindow with
  | some i =>
    rw [placeCancel_window window]
    refine ⟨false, ?_, rfl, fun x mem other => mem_sset_other other mem, fun _ => ⟨i, freeWindow_lt window, ?_⟩, fun no => by cases no⟩
    · exact sget_sset_ne Pgh.free n { s.pgh_ n with cancelWaits := false } (ne_free_of_state busy) s.pgh.tab
    · exact vget_vset_self _ _ (freeWindow_lt window)
  | none =>
    rw [placeCancel_full window]
    refine ⟨true, ?_, rfl, fun x mem other => mem_sset_other other mem, fun no => (by cases no), fun _ => rfl⟩
    exact sget_sset_ne Pgh.free n { s.pgh_ n with cancelWaits := true } (ne_free_of_state busy) s.pgh.tab
end

/-! ### Cancel and release of one (O26) -/

section
variable {s : State} {n : Nat}

/-- A cancelled PENDING entry before its completion (log 118). -/
def State.pendingCancelled (s : State) (n : Nat) : Pgh :=
  if (s.pgh_ n).kept.isSome && s.referred n then { s.pgh_ n with cancelled := true, freeWaits := true }
  else { s.pgh_ n with cancelled := true, keep := false, own := none }

theorem cancelPgh_pending (pending : (s.pgh_ n).state = .pending) :
    s.cancelPgh n = ((s.setPgh n (s.pendingCancelled n)).reachDone n).settleKept := by
  unfold State.cancelPgh State.pendingCancelled
  dsimp only
  rw [pending]
  dsimp only
  split <;> rfl

theorem cancelPgh_going (going : (s.pgh_ n).going = true) (first : (s.pgh_ n).cancelling = false) :
    s.cancelPgh n = ((s.setPgh n { s.pgh_ n with cancelling := true, state := .running }).placeCancel n).settleKept := by
  simp only [Pgh.going, Bool.or_eq_true, beq_iff_eq] at going
  rcases going with state | state <;> simp [State.cancelPgh, state, first]

theorem cancelPgh_idle (idle : (s.pgh_ n).busy = false) : s.cancelPgh n = s := by
  simp only [Pgh.busy, Bool.or_eq_false_iff, beq_eq_false_iff_ne] at idle
  obtain ⟨⟨pending, banding⟩, running⟩ := idle
  unfold State.cancelPgh
  dsimp only
  split <;> first | rfl | contradiction

/-- No other entry is lost but what waited to free a kept payload. -/
theorem cancelPgh_mem {x : Nat × Pgh} (mem : x ∈ s.pgh.tab) (other : x.1 ≠ n) (idle : x.2.freeWaits = false) (listed : x.2 ≠ Pgh.free) :
    x ∈ (s.cancelPgh n).pgh.tab := by
  by_cases pending : (s.pgh_ n).state = .pending
  · rw [cancelPgh_pending pending]
    refine settleKept_mem _ idle listed ?_
    rw [reachDone_tab]
    exact mem_sset_other other (mem_sset_other other mem)
  by_cases going : (s.pgh_ n).going = true
  · by_cases first : (s.pgh_ n).cancelling = false
    · rw [cancelPgh_going going first]
      refine settleKept_mem _ idle listed ?_
      have entry := pgh_setPgh s n { s.pgh_ n with cancelling := true, state := .running } (ne_free_of_state (by simp))
      obtain ⟨b, -, -, kept, -⟩ := placeCancel_cases (s := s.setPgh n { s.pgh_ n with cancelling := true, state := .running }) (n := n)
        (by rw [entry]; simp)
      exact kept x (mem_sset_other other mem) other
    · have already : s.cancelPgh n = s := by
        simp only [Pgh.going, Bool.or_eq_true, beq_iff_eq] at going
        rcases going with state | state <;> simp [State.cancelPgh, state, first]
      rw [already]
      exact mem
  · have idle : (s.pgh_ n).busy = false := by
      simp only [Pgh.going, Bool.or_eq_true, not_or] at going
      simp [Pgh.busy, pending, going]
    rw [cancelPgh_idle idle]
    exact mem

theorem cancelPgh_pending_entry (pending : (s.pgh_ n).state = .pending) (host : n < 2048) :
    let e := (s.cancelPgh n).pgh_ n
    e.state = .done ∧ e.cancelled = true ∧ bit (vget (s.cancelPgh n).pgh.done (n / 32)) (n % 32) = true
      ∧ (((s.pgh_ n).kept.isSome && s.referred n) = false → (s.pgh_ n).freeWaits = false → e.stored = none ∧ e.own = none) := by
  intro e
  have state : (s.pendingCancelled n).state = .pending := by
    unfold State.pendingCancelled
    split <;> exact pending
  have cancelled : (s.pendingCancelled n).cancelled = true := by
    unfold State.pendingCancelled
    split <;> rfl
  have entry := pgh_setPgh s n (s.pendingCancelled n) (ne_free_of_state (by rw [state]; decide))
  have run := cancelPgh_pending pending
  have done := reachDone_entry (s.setPgh n (s.pendingCancelled n)) n
  rw [entry] at done
  have settled := settleKept_entry ((s.setPgh n (s.pendingCancelled n)).reachDone n) n (by rw [done, asDone_state]; decide)
  rw [← run, done] at settled
  obtain ⟨keptState, keptCancelled, -, -⟩ := settled_keeps ((s.setPgh n (s.pendingCancelled n)).reachDone n) n
    (s.pendingCancelled n).asDone
  refine ⟨?_, ?_, ?_, fun unreferred idle => ?_⟩
  · exact (congrArg Pgh.state settled).trans (keptState.trans (asDone_state _))
  · exact (congrArg Pgh.cancelled settled).trans (keptCancelled.trans (asDone_cancelled cancelled))
  · rw [run]
    exact reachDone_bit _ n host
  · have freed : s.pendingCancelled n = { s.pgh_ n with cancelled := true, keep := false, own := none } :=
      if_neg (by rw [unreferred]; decide)
    have dropped : (s.pendingCancelled n).asDone.freeWaits = false ∧ (s.pendingCancelled n).asDone.stored = none
        ∧ (s.pendingCancelled n).asDone.own = none := by
      rw [freed]
      simp [Pgh.asDone, Pgh.dropUsed, Pgh.stored, idle]
    obtain ⟨waits, stored, own⟩ := dropped
    rw [settled_idle _ _ _ waits] at settled
    exact ⟨(congrArg Pgh.stored settled).trans stored, (congrArg Pgh.own settled).trans own⟩

theorem cancelPgh_going_entry (going : (s.pgh_ n).going = true) (first : (s.pgh_ n).cancelling = false) :
    let e := (s.cancelPgh n).pgh_ n
    e.state = .running ∧ e.cancelling = true ∧ e.cancelled = (s.pgh_ n).cancelled ∧ (s.cancelPgh n).pgh.done = s.pgh.done
      ∧ (s.freeWindow.isSome = true → ∃ i, i < 32 ∧ vget (s.cancelPgh n).pgh.sieve i =
          some { pgh := n, cancel := true, rect := (s.pgh_ n).startedRect, ticket := (s.pgh_ n).ticket })
      ∧ (s.freeWindow = none → e.cancelWaits = true) := by
  intro e
  have entry := pgh_setPgh s n { s.pgh_ n with cancelling := true, state := .running } (ne_free_of_state (by simp))
  obtain ⟨b, placed, done, -, window, waits⟩ := placeCancel_cases
    (s := s.setPgh n { s.pgh_ n with cancelling := true, state := .running }) (n := n) (by rw [entry]; simp)
  have run := cancelPgh_going going first
  have settled := settleKept_entry ((s.setPgh n { s.pgh_ n with cancelling := true, state := .running }).placeCancel n) n
    (by rw [placed, entry]; simp)
  rw [← run, placed, entry] at settled
  obtain ⟨state, cancelled, cancelling, waiting⟩ := settled_keeps
    ((s.setPgh n { s.pgh_ n with cancelling := true, state := .running }).placeCancel n) n
    { s.pgh_ n with cancelling := true, state := .running, cancelWaits := b }
  rw [entry] at window
  refine ⟨?_, ?_, ?_, ?_, ?_, fun full => ?_⟩
  · exact (congrArg Pgh.state settled).trans state
  · exact (congrArg Pgh.cancelling settled).trans cancelling
  · exact (congrArg Pgh.cancelled settled).trans cancelled
  · rw [run]
    exact done
  · rw [run]
    exact window
  · rw [show e.cancelWaits = _ from (congrArg Pgh.cancelWaits settled).trans waiting]
    exact waits full
end

theorem releasePgh_done {s : State} {n : Nat} (done : (s.pgh_ n).state = .done ∧ ¬ ((s.pgh_ n).kept.isSome ∧ s.referred n)) :
    s.releasePgh n = s.setPgh n { (s.pgh_ n).dropPayload with state := .free } := if_pos done

theorem releasePgh_else {s : State} {n : Nat} (other : ¬ ((s.pgh_ n).state = .done ∧ ¬ ((s.pgh_ n).kept.isSome ∧ s.referred n))) :
    s.releasePgh n = s := if_neg other

/-- A released entry shows that it holds no page, so it stays listed. -/
theorem released_ne_free (p : Pgh) : { p.dropPayload with state := .free } ≠ Pgh.free := fun e => absurd (show 0xFFF = 0 from congrArg Pgh.page e) (by decide)

/-- Settles O26: what one action does, from the action that the letter takes (`pghActions`). -/
theorem pghActionOnOne : Obligations.PghActionOnOne := by
  intro s v n selected low host q p
  have zero : n ≠ 0 := by omega
  refine ⟨fun h => ?_, fun h => ?_⟩
  · obtain ⟨t, run, heard, -, -, -, -, -, result⟩ := pghActions s v .indexed 0 h q
    rw [if_neg (by decide)] at result
    dsimp only at result heard
    rw [← selected, if_neg zero, if_pos rfl] at result
    have entry : t.pgh_ n = (s.cancelPgh n).pgh_ n := congrArg (fun x : PghState => sget Pgh.free x.tab n) result
    refine ⟨t, run, fun x mem other idle listed => ?_, fun pending => ?_, fun going first => ?_, fun idle => ?_⟩
    · rw [result]
      exact cancelPgh_mem mem other idle listed
    · rw [entry, result]
      exact cancelPgh_pending_entry pending host
    · rw [entry, result]
      exact cancelPgh_going_entry going first
    · rw [cancelPgh_idle idle] at result
      rw [result] at heard
      exact heard
  · obtain ⟨t, run, heard, -, -, -, -, -, result⟩ := pghActions s v .indexed 1 h q
    rw [if_neg (by decide)] at result
    dsimp only at result heard
    rw [← selected, if_neg zero, if_neg (by decide), if_neg (by omega)] at result
    have entry : t.pgh_ n = (s.releasePgh n).pgh_ n := congrArg (fun x : PghState => sget Pgh.free x.tab n) result
    refine ⟨t, run, fun x mem other => ?_, ?_⟩
    · rw [result]
      by_cases done : (s.pgh_ n).state = .done ∧ ¬ ((s.pgh_ n).kept.isSome ∧ s.referred n)
      · rw [releasePgh_done done]
        exact mem_sset_other other mem
      · rw [releasePgh_else done]
        exact mem
    · split
      next done =>
        rw [entry, result, releasePgh_done done, pgh_setPgh s n _ (released_ne_free _)]
        refine ⟨rfl, ?_, rfl, rfl, rfl⟩
        exact ite_self none
      next other =>
        rw [result, releasePgh_else other] at heard
        exact heard

end Sys2Proof.Machine
end

section
/-! PROOFS. Claims of guarded writes that a takeover in the same cycle refutes: a write that was in flight across the die bridge is
lost, and answered as accepted (R395, log 80). -/

namespace Sys2Proof.Machine

/-- What the two commands of a guarded write come to. -/
theorem repliesAs_eq {s t u : State} {c : Instr} (run : exec c s = .next t) (h : s.repliesAs c u) : u = t.guardedReply := by
  obtain ⟨w, first, second⟩ := h
  have e : w = t := (Host.Outcome.next.inj (run.symm.trans first)).symm
  subst e
  exact (Host.Outcome.next.inj second).symm

/-- The running device with the hedge's takeover of this very cycle behind it, its clock locked again. -/
def takenThisCycle : State :=
  { Tests.live with
    seq := { Tests.live.seq with hedge := true, hedgeAt := Tests.live.now }
    clock := { Tests.live.clock with relock := .done } }

/-- The same with the trims' group armed. -/
def trimsArmed : State := { takenThisCycle with acc := { takenThisCycle.acc with armed := some .trims } }

/-- Refutes O33: with the hedge holding the device since this cycle, an armed trim of a rail is lost on the bridge, and the rail's
trim stays as it was. -/
theorem not_trimsTaken : ¬ Obligations.TrimsTaken := by
  intro h
  obtain ⟨rail, -⟩ := h trimsArmed Tests.all .base 1 (by decide +kernel)
  obtain ⟨u, replies, result⟩ := rail 0 (by decide +kernel)
  rw [if_pos (by decide +kernel)] at result
  obtain ⟨served, -⟩ := result
  have after := repliesAs_eq (t := trimsArmed.viaWord Tests.all 0xD01 1) rfl replies
  have trim : vget u.tree.trim 0 = 1 := by
    refine (congrArg (fun w : State => vget w.tree.trim 0) served).trans ?_
    exact vget_vset_self _ _ (by decide)
  have lost : vget (trimsArmed.viaWord Tests.all 0xD01 1).guardedReply.tree.trim 0 ≠ 1 := by decide +kernel
  rw [after] at trim
  exact lost trim

/-- The same with the operations' group armed, SEAL_N held and the supply in its window. -/
def operationArmed : State :=
  { takenThisCycle with
    acc := { takenThisCycle.acc with armed := some .otp, sealIn := true }, otp := { takenThisCycle.otp with supplyOk := true } }

/-- Refutes O41: an accepted life-cycle step is lost on the bridge, and no operation is in progress. -/
theorem not_otpOperations : ¬ Obligations.OtpOperations := by
  intro h
  obtain ⟨u, replies, -, result⟩ := h operationArmed Tests.all 3 .base 1 (by decide +kernel) (by decide +kernel)
  have accepted : operationArmed.otpWhy (operationArmed.acc.armed == some Group.otp) (.life ((aliasOp 0 (wd operationArmed.lcNow) 1).toNat % 4)) = none := by
    decide +kernel
  split at result
  next x refused => cases accepted.symm.trans refused
  obtain ⟨-, -, served, -⟩ := result
  have after := repliesAs_eq (t := operationArmed.viaWord Tests.all 0x230 1) rfl replies
  have busy : u.otp.op.isSome = true := congrArg (fun w : State => w.otp.op.isSome) served
  have lost : (operationArmed.viaWord Tests.all 0x230 1).guardedReply.otp.op.isSome ≠ true := by decide +kernel
  rw [after] at busy
  exact lost busy

/-- The same in factory test mode with its group armed. -/
def injectionArmed : State :=
  { takenThisCycle with acc := { takenThisCycle.acc with armed := some .test, testMode := true } }

/-- Refutes O43: an accepted write of `FLT_INJ` is lost on the bridge, and the register keeps its value. -/
theorem not_injectionGuarded : ¬ Obligations.InjectionGuarded := by
  intro h
  obtain ⟨written, -⟩ := h
  obtain ⟨u, replies, result⟩ := written injectionArmed Tests.all .base 1 (by decide +kernel) (by decide +kernel)
  rw [if_neg (by decide +kernel), if_neg (by decide +kernel)] at result
  obtain ⟨plain, -⟩ := result
  have after := repliesAs_eq (t := injectionArmed.viaWord Tests.all 0x610 1) rfl replies
  have value : u.flt.inj = 1 := congrArg (fun w : State => w.flt.inj) (plain (by decide +kernel))
  have lost : (injectionArmed.viaWord Tests.all 0x610 1).guardedReply.flt.inj ≠ 1 := by decide +kernel
  rw [after] at value
  exact lost value

end Sys2Proof.Machine
end

section
/-! PROOFS. Posted writes that land: sticky bits, the calendar, enables (R13, R394, R418, R425, R426). -/

namespace Sys2Proof.Machine

/-! ### What a posted write comes to -/

section
variable {s : State} {v : Via} {a : Nat} {d : Word} {row : RegRow}

/-- The state in which a posted write lands. -/
def State.landing (s : State) (row : RegRow) (k : LinkState) : State :=
  { s with now := s.now + postSpan row, link := k, rtc.quietAt := s.now }

/-- What every landing of a posted write brings, its letter and landing bring. -/
theorem posted_result {Q : State → Prop} (h : s.takes (viaWrite v a d) = true) (q : s.quiet = true) (ha : a < 0x4000)
    (listed : s.decodeAddr a = some a) (at_ : rowAt (a % 4096) = some row) (free : row.key = none) (effect : row.effect = true)
    (posted : row.posted = true)
    (each : ∀ k : LinkState, k.serving = [] → ((s.landing row k).land a d s.fullDecode).link.serving = []
      ∧ Q ((s.landing row k).land a d s.fullDecode)) : Q ((s.viaWord v a d).postedLand (blockOf a)) := by
  obtain ⟨k, serving, -, landed⟩ := viaWord_lands h q ha listed at_ free effect posted
  obtain ⟨idle, result⟩ := each k serving
  rw [landed]
  change Q (State.pump ((s.landing row k).land a d s.fullDecode))
  rw [pump_nil idle]
  exact result
end

theorem landing_served (s : State) (row : RegRow) (k : LinkState) : s.servedOnly (s.landing row k) := rfl

/-- A register of bits cleared by a 1, written by itself. -/
theorem land_clear {s : State} {row : RegRow} {base : Nat} {d : Word} {full : Bool} (low : base < 4096) (single : s.members base = [base])
    (at_ : rowAt base = some row) (written : row.rw = 0) (sticky : row.w1c ≠ 0) (readable : row.wo = false) :
    ∃ n l, s.land base d full = (s.clearBits (row.reg base)
      (d &&& wd row.w1c &&& ~~~(s.hwFresh base (if row.dom == .backup then cycle else 1)))).tested n l := by
  obtain ⟨n, l, run⟩ := landOne_clear (s := s) (d := d) (full := full) at_ written sticky readable
  have land := land_single (s := s) (k := 0) low single d full
  rw [Nat.mul_zero, Nat.zero_add] at land
  exact ⟨n, l, land.trans run⟩

/-! ### Sticky bits (O44) -/

theorem listed_base (s : State) {base : Nat} {row : RegRow} (low : base < 4096) (at_ : rowAt base = some row)
    (decoded : base % 256 &&& blockMask (base / 256) = base % 256) : s.decodeAddr base = some base := by
  have listed := decodeAddr_listed s (k := 0) (by decide) low at_ (.inl rfl) decoded
  rwa [Nat.mul_zero, Nat.zero_add] at listed

section
variable {s : State} {v : Via} {d : Word}

/-- A write of a W1C register of housekeeping or the backup domain lands. -/
theorem clear_result {base : Nat} {row : RegRow} (h : s.takes (viaWrite v base d) = true) (q : s.quiet = true) (low : base < 4096)
    (at_ : rowAt base = some row) (decoded : base % 256 &&& blockMask (base / 256) = base % 256) (free : row.key = none)
    (posted : row.posted = true) (written : row.rw = 0) (sticky : row.w1c ≠ 0) (readable : row.wo = false)
    (single : ∀ s : State, s.members base = [base]) {Q : State → Prop}
    (each : ∀ k : LinkState, k.serving = [] → ∀ n l, let w := s.landing row k
      let t := (w.clearBits (row.reg base) (d &&& wd row.w1c &&& ~~~(w.hwFresh base (if row.dom == .backup then cycle else 1)))).tested n l
      t.link.serving = [] ∧ Q t) :
    Q ((s.viaWord v base d).postedLand (blockOf base)) := by
  have effect : row.effect = true := by simp [RegRow.effect, sticky]
  refine posted_result h q (by omega) (listed_base s low at_ decoded) (by rwa [Nat.mod_eq_of_lt low]) free effect posted (fun k idle => ?_)
  obtain ⟨n, l, run⟩ := land_clear (s := s.landing row k) (d := d) (full := s.fullDecode) low (single _) at_ written sticky readable
  rw [run]
  exact each k idle n l
end

/-- The five bits of `FLT_BAK` are the low ones. -/
theorem low_five (d x : Word) : (d &&& wd 0x1F &&& x).setWidth 5 = (d &&& x).setWidth 5 := by
  apply BitVec.eq_of_getLsbD_eq
  intro i small
  have mask : ∀ i : Fin 5, (wd 0x1F).getLsbD i.val = true := by decide
  have set := mask ⟨i, small⟩
  simp only at set
  simp [set, small]

theorem clearBak_eq (s : State) (c : Word) :
    let m : BitVec 5 := if s.seq.hedge then c.setWidth 5 &&& 0x1B#5 else c.setWidth 5
    s.clearBak c = { s with
      rtc.bak := s.rtc.bak &&& ~~~m
      seq.hedgeCause := if m.getLsbD 2 then 0 else s.seq.hedgeCause
      seq.hedgeStep := if m.getLsbD 2 then 0 else s.seq.hedgeStep } := by
  have kept : ∀ e : BitVec 5, setBit e 2 false = e &&& 0x1B#5 := by decide
  intro m
  have mask : m = if s.seq.hedge then setBit (c.setWidth 5) 2 false else c.setWidth 5 := by rw [kept]
  unfold State.clearBak
  dsimp only
  rw [← mask]
  split <;> rfl

/-- Settles O44: each register's landing clears what its write names, but what the hardware set in its cycle. -/
theorem faultsClear : Obligations.FaultsClear := by
  intro s v d q fresh
  refine ⟨fun h => ?_, fun h => ?_, fun h => ?_⟩
  · refine ⟨_, ⟨_, rfl, rfl⟩, ?_⟩
    refine clear_result (Q := fun u => State.servedOnly { s with
        flt.sticky0 := s.flt.sticky0 &&& ~~~(d &&& 0xFFFFFF#32 &&& ~~~(fresh u 0x608 1)) } u)
      (row := rwRow 0x608 1 (fun _ => .fltSticky 0) .house 0 0xFFFFFF 0xFF000000)
      h q (by decide) rfl (by decide) rfl rfl rfl (by decide) rfl (fun _ => rfl) (fun k idle n l => ⟨idle, ?_⟩)
    rfl
  · refine ⟨_, ⟨_, rfl, rfl⟩, ?_⟩
    refine clear_result (Q := fun u => State.servedOnly { s with
        flt.sticky1 := s.flt.sticky1 &&& ~~~(d &&& 0xFFFFF#32 &&& ~~~(fresh u 0x609 1)) } u)
      (row := rwRow 0x609 1 (fun _ => .fltSticky 1) .house 0 0xFFFFF 0xFFF00000)
      h q (by decide) rfl (by decide) rfl rfl rfl (by decide) rfl (fun _ => rfl) (fun k idle n l => ⟨idle, ?_⟩)
    rfl
  · refine ⟨_, ⟨_, rfl, rfl⟩, ?_⟩
    refine clear_result (Q := fun u =>
        let e : BitVec 5 := (d &&& ~~~(fresh u 0x60B 6144)).setWidth 5
        let m : BitVec 5 := if s.seq.hedge then e &&& 0x1B#5 else e
        State.servedOnly { s with
          rtc.bak := s.rtc.bak &&& ~~~m
          seq.hedgeCause := if m.getLsbD 2 then 0 else s.seq.hedgeCause
          seq.hedgeStep := if m.getLsbD 2 then 0 else s.seq.hedgeStep } u)
      (row := rwRow 0x60B 1 (fun _ => .fltBak) .backup 0 0x1F 0xFFFFFFE0)
      h q (by decide) rfl (by decide) rfl rfl rfl (by decide) rfl (fun _ => rfl) ?_
    intro k idle n l w t
    have act := clearBak_eq w (d &&& wd 0x1F &&& ~~~(w.hwFresh 0x60B cycle))
    dsimp only at act
    rw [low_five] at act
    have run : t = _ := congrArg (fun x => State.tested x n l) act
    generalize t = u at run
    subst run
    exact ⟨idle, rfl⟩

/-! ### The calendar's commands (O40) -/

/-- A write of a posted write-only register acts when it lands. -/
theorem act_result {s : State} {v : Via} {base : Nat} {d : Word} {row : RegRow} (h : s.takes (viaWrite v base d) = true)
    (q : s.quiet = true) (low : base < 4096) (at_ : rowAt base = some row) (decoded : base % 256 &&& blockMask (base / 256) = base % 256)
    (free : row.key = none) (posted : row.posted = true) (written : row.rw = 0) (sticky : row.w1c = 0) (acts : row.wo = true)
    (single : ∀ s : State, s.members base = [base]) {Q : State → Prop}
    (each : ∀ k : LinkState, k.serving = [] → ∀ n l, let t := ((s.landing row k).act (row.reg base) d).tested n l
      t.link.serving = [] ∧ Q t) : Q ((s.viaWord v base d).postedLand (blockOf base)) := by
  have effect : row.effect = true := by simp [RegRow.effect, acts]
  refine posted_result h q (by omega) (listed_base s low at_ decoded) (by rwa [Nat.mod_eq_of_lt low]) free effect posted (fun k idle => ?_)
  obtain ⟨n, l, run, -⟩ := landOne_act (s := s.landing row k) (op := 0) (d := d) (full := s.fullDecode) at_ written sticky acts
  have land := land_single (s := s.landing row k) (k := 0) low (single _) d s.fullDecode
  rw [Nat.mul_zero, Nat.zero_add] at land
  rw [land.trans run]
  exact each k idle n l

/-- A letter is taken in a plan's steps or after start-up. -/
theorem takes_stage {s : State} {l : Letter} (h : s.takes l = true) : s.up.stage ≠ .off ∧ s.up.stage ≠ .wait := by
  simp only [State.takes, State.hears, Bool.and_eq_true] at h
  obtain ⟨⟨⟨⟨⟨⟨⟨⟨⟨stage, -⟩, -⟩, -⟩, -⟩, -⟩, -⟩, -⟩, -⟩, -⟩ := h
  rw [Bool.or_eq_true, beq_iff_eq, beq_iff_eq] at stage
  rcases stage with stage | stage <;> rw [stage] <;> decide

/-- In a start-up's later stages an alarm is at most a wake event. -/
theorem alarmEffect_keeps {s : State} (a : BitVec 2) (off : s.up.stage ≠ .off) (wait : s.up.stage ≠ .wait) :
    (s.alarmEffect a).now = s.now ∧ (s.alarmEffect a).link = s.link := by
  unfold State.alarmEffect
  rw [if_neg off, if_neg wait]
  dsimp only
  split
  · exact ⟨rfl, rfl⟩
  · split
    · exact ⟨rfl, rfl⟩
    · exact ⟨State.attend_now _, State.attend_link _⟩

theorem newPeriod_rtc (s : State) : ∃ r, s.newPeriod = { s with rtc := r } := ⟨_, rfl⟩

/-- A tick in a start-up's later stages only takes time to its second. -/
theorem rtcTick_keeps {s : State} (off : s.up.stage ≠ .off) (wait : s.up.stage ≠ .wait)
    (due : s.rtc.secondAt + secondCycles s.rtc.adj s.rtc.period * cycle ≤ s.now) : s.rtcTick.now = s.now ∧ s.rtcTick.link = s.link := by
  unfold State.rtcTick
  dsimp only
  split
  · have flags : ∀ (t : State) (a : BitVec 2), (t.flagAlarms a).up = t.up ∧ (t.flagAlarms a).now = t.now ∧ (t.flagAlarms a).link = t.link := by
      intro t a
      unfold State.flagAlarms
      split <;> exact ⟨rfl, rfl, rfl⟩
    have effect : ∀ (t : State) (a : BitVec 2), t.up = s.up → t.now = s.now → t.link = s.link →
        ((t.flagAlarms a).alarmEffect a).now = s.now ∧ ((t.flagAlarms a).alarmEffect a).link = s.link := by
      intro t a up now link
      obtain ⟨up', now', link'⟩ := flags t a
      obtain ⟨now'', link''⟩ := alarmEffect_keeps (s := t.flagAlarms a) a (by rwa [up', up]) (by rwa [up', up])
      exact ⟨now''.trans (now'.trans now), link''.trans (link'.trans link)⟩
    have time : max s.now (s.rtc.secondAt + secondCycles s.rtc.adj s.rtc.period * cycle) = s.now := Nat.max_eq_left due
    refine effect _ _ ?_ ?_ ?_
    · split <;> rfl
    · split <;> exact time
    · split <;> rfl
  · exact ⟨rfl, rfl⟩

theorem tickFirst_keeps {s : State} (off : s.up.stage ≠ .off) (wait : s.up.stage ≠ .wait) :
    s.tickFirst.now = s.now ∧ s.tickFirst.link = s.link := by
  unfold State.tickFirst
  dsimp only
  split
  next fallsDue => exact rtcTick_keeps (s := { s with rtc.dst := 0, rtc.dstNew := 0, rtc.dstPending := false }) off wait fallsDue.1
  next => exact ⟨rfl, rfl⟩

/-- The row of `RTC_CTL`. -/
def rtcCtlRow : RegRow := woRow 0xC14 1 (fun _ => .rtcCtl) .backup 0xFFFFFFFC

theorem rtcCtl_run {s : State} {v : Via} {d : Word} (h : s.takes (viaWrite v 0xC14 d) = true) (q : s.quiet = true)
    (keeps : ∀ k, ((s.landing rtcCtlRow k).rtcOp (fld d 0 2)).link = k) : ∃ k n l,
      (s.viaWord v 0xC14 d).postedLand 12 = ((s.landing rtcCtlRow k).rtcOp (fld d 0 2)).tested n l :=
  act_result (row := rtcCtlRow) (Q := fun u => ∃ k n l, u = ((s.landing rtcCtlRow k).rtcOp (fld d 0 2)).tested n l) h q (by decide) rfl
    (by decide) rfl rfl rfl rfl rfl (fun _ => rfl) (fun k idle n l => ⟨(congrArg LinkState.serving (keeps k)).trans idle, k, n, l, rfl⟩)

/-- The staged calendar, where it exists. -/
theorem stagedCal_eq (t d : Word) :
    let c : Calendar := { sec := fld t 0 6, min := fld t 8 6, hour := fld t 16 5, day := fld d 0 5, month := fld d 8 4, year := fld d 16 7
                          weekday := weekdayOf (fld d 16 7) (fld d 8 4) (fld d 0 5) }
    stagedCal t d = if c.sec < 60 ∧ c.min < 60 ∧ c.hour < 24 ∧ 1 ≤ c.month ∧ c.month ≤ 12 ∧ 1 ≤ c.day ∧ c.day ≤ monthDays c.year c.month
      ∧ c.year < 100 then some c else none := by
  simp only [stagedCal, Calendar.withDay, ← Nat.lt_succ_iff]

/-- A summer-time command adds to those that wait. -/
theorem dstLand_sum (s : State) (n : Int) : (s.dstLand n).rtc.dst + (s.dstLand n).rtc.dstNew = s.rtc.dst + s.rtc.dstNew + n := by
  unfold State.dstLand
  by_cases fresh : s.now ≤ s.rtc.dstAt <;> simp only [fresh, decide_true, decide_false, if_true, if_false, Bool.false_eq_true]
  omega

/-- Settles O40: the write lands in the backup domain 18,432 SCLK after its letter, and `rtcOp` carries it out. -/
theorem calendarCommands : Obligations.CalendarCommands := by
  intro s v q n
  refine ⟨fun h => ?_, fun h => ?_, fun h => ?_⟩
  · obtain ⟨off, wait⟩ := takes_stage h
    have tick : ∀ k, (s.landing rtcCtlRow k).tickFirst.now = n ∧ (s.landing rtcCtlRow k).tickFirst.link = k :=
      fun k => tickFirst_keeps (s := s.landing rtcCtlRow k) off wait
    have staged := stagedCal_eq s.rtc.stageT s.rtc.stageD
    have load : ∀ k, (s.landing rtcCtlRow k).rtcOp (fld 1 0 2) =
        match stagedCal s.rtc.stageT s.rtc.stageD with
        | some c => { (s.landing rtcCtlRow k).tickFirst with
            rtc.cal := c, rtc.secondAt := n, rtc.dst := 0, rtc.dstNew := 0, rtc.dstPending := false }
        | none => { (s.landing rtcCtlRow k).hwSet 0xC15 16 with rtc.badSet := true } := fun k => rfl
    by_cases real : fld s.rtc.stageT 0 6 < 60 ∧ fld s.rtc.stageT 8 6 < 60 ∧ fld s.rtc.stageT 16 5 < 24 ∧ 1 ≤ fld s.rtc.stageD 8 4
        ∧ fld s.rtc.stageD 8 4 ≤ 12 ∧ 1 ≤ fld s.rtc.stageD 0 5
        ∧ fld s.rtc.stageD 0 5 ≤ monthDays (fld s.rtc.stageD 16 7) (fld s.rtc.stageD 8 4) ∧ fld s.rtc.stageD 16 7 < 100
    · rw [staged.trans (if_pos real)] at load
      obtain ⟨k, m, l, run⟩ := rtcCtl_run (d := 1) h q (fun k => by rw [load]; exact (tick k).2)
      rw [load] at run
      refine ⟨_, ⟨_, rfl, congrArg Host.Outcome.next run⟩, (tick k).1, ?_⟩
      dsimp only
      rw [if_pos real]
      refine ⟨rfl, rfl, rfl, rfl, rfl, fun apart => ?_⟩
      have early : (s.landing rtcCtlRow k).tickFirst = s.landing rtcCtlRow k := if_neg apart
      rw [early]
      rfl
    · rw [staged.trans (if_neg real)] at load
      obtain ⟨k, m, l, run⟩ := rtcCtl_run (d := 1) h q (fun k => by rw [load]; rfl)
      rw [load] at run
      refine ⟨_, ⟨_, rfl, congrArg Host.Outcome.next run⟩, rfl, ?_⟩
      dsimp only
      rw [if_neg real]
      rfl
  · obtain ⟨k, m, l, run⟩ := rtcCtl_run (d := 2) h q (fun _ => rfl)
    have lands : (s.viaWord v 0xC14 2).postedLand 12 = ((s.landing rtcCtlRow k).dstLand 1).tested m l := run
    exact ⟨_, ⟨_, rfl, congrArg Host.Outcome.next lands⟩, rfl, dstLand_sum (s.landing rtcCtlRow k) 1, rfl⟩
  · obtain ⟨k, m, l, run⟩ := rtcCtl_run (d := 3) h q (fun _ => rfl)
    have lands : (s.viaWord v 0xC14 3).postedLand 12 = ((s.landing rtcCtlRow k).dstLand (-1)).tested m l := run
    exact ⟨_, ⟨_, rfl, congrArg Host.Outcome.next lands⟩, rfl, dstLand_sum (s.landing rtcCtlRow k) (-1), rfl⟩

end Sys2Proof.Machine
end

section
/-! PROOFS. Enables that land: VCOM, auxiliary rails, load switches (R13, R46, R316, R318, R397, R409). -/

namespace Sys2Proof.Machine

/-! ### The hedge's order leaves what is set (R46, R409) -/

/-- A part that a rewriting keeps is kept in every place. -/
theorem vmod_keeps {α β : Type} [Inhabited α] {n : Nat} (v : Vector α n) (k : Nat) (f : α → α) (g : α → β) (keep : ∀ x, g (f x) = g x)
    (i : Nat) : g (vget (vmod v k f) i) = g (vget v i) := by
  by_cases e : i = k
  · subst e
    by_cases h : i < n
    · rw [vget_vmod_self v f h, keep]
    · simp [vget, vmod, vset, Array.getD, h]
  · rw [vget_vmod_other v f e]

theorem vmapIdx_keeps {α β : Type} [Inhabited α] {n : Nat} (v : Vector α n) (f : Nat → α → α) (g : α → β)
    (keep : ∀ i x, g (f i x) = g x) (i : Nat) : g (vget (vmapIdx f v) i) = g (vget v i) := by
  by_cases h : i < n
  · rw [vget_vmapIdx v f h, keep]
  · simp [vget, vmapIdx, Array.getD, h]

/-- The enables of the auxiliary rails and load switches are the same. -/
def State.sameEnables (s t : State) : Prop :=
  (∀ n, (vget t.tree.aux n).en = (vget s.tree.aux n).en) ∧ ∀ n, (vget t.tree.lsw n).en = (vget s.tree.lsw n).en

theorem State.sameEnables.trans {s t u : State} (h : s.sameEnables t) (g : t.sameEnables u) : s.sameEnables u :=
  ⟨fun n => (g.1 n).trans (h.1 n), fun n => (g.2 n).trans (h.2 n)⟩

theorem State.sameEnables.refl (s : State) : s.sameEnables s := ⟨fun _ => rfl, fun _ => rfl⟩

theorem modAux_enables (s : State) (k : Nat) (f : Aux → Aux) (keep : ∀ x, (f x).en = x.en) : s.sameEnables (s.modAux k f) :=
  ⟨vmod_keeps s.tree.aux k f Aux.en keep, fun _ => rfl⟩

theorem modLsw_enables (s : State) (k : Nat) (f : Lsw → Lsw) (keep : ∀ x, (f x).en = x.en) : s.sameEnables (s.modLsw k f) :=
  ⟨fun _ => rfl, vmod_keeps s.tree.lsw k f Lsw.en keep⟩

theorem auxStop_enables (s : State) (n e : Nat) : s.sameEnables (s.auxStop n e) := by
  refine modAux_enables s n _ (fun x => ?_)
  split
  · rfl
  · split <;> rfl

theorem dropLsw_enables (s : State) (n : Nat) : s.sameEnables (s.dropLsw n) :=
  (modLsw_enables s n (fun l => { l with raised := false }) (fun _ => rfl)).trans
    (modLsw_enables (s.modLsw n (fun l => { l with raised := false })) n (fun l => { l with asserted := l.en && l.raised }) (fun _ => rfl))

theorem dropAux_enables (s : State) (n e : Nat) : s.sameEnables (s.dropAux n e) :=
  (modAux_enables s n (fun a => { a with raised := false }) (fun _ => rfl)).trans
    (auxStop_enables (s.modAux n (fun a => { a with raised := false })) n e)

theorem dropItem_enables (s : State) (n e : Nat) : s.sameEnables ((s.dropLsw n).dropAux n e) :=
  (dropLsw_enables s n).trans (dropAux_enables (s.dropLsw n) n e)

theorem dropItems_enables (s : State) (keep : Bool) (e : Nat) : s.sameEnables (s.dropItems keep e) := by
  unfold State.dropItems
  refine foldl_related State.sameEnables State.sameEnables.refl State.sameEnables.trans _ (fun t n => ?_) _ s
  split
  · exact State.sameEnables.refl t
  · exact dropItem_enables t n e

theorem hedgeDue_enables (s : State) : s.sameEnables s.hedgeDue := by
  unfold State.hedgeDue
  dsimp only
  split <;> split
  · exact dropItems_enables { s.lightsOff with seq.tail := 1 } (s.lightsOff.seq.run == .hedgeDrop) s.lightsOff.seq.hedgeEnd
  · exact State.sameEnables.refl s
  · exact dropItems_enables s (s.seq.run == .hedgeDrop) s.seq.hedgeEnd
  · exact State.sameEnables.refl s

/-- The front light's settings are the same. -/
theorem hedgeDue_lights (s : State) (n : Nat) : (vget s.hedgeDue.tree.led n).en = (vget s.tree.led n).en
    ∧ (vget s.hedgeDue.tree.led n).cur = (vget s.tree.led n).cur ∧ (vget s.hedgeDue.tree.led n).dim = (vget s.tree.led n).dim := by
  let off : Nat → Led → Led := fun _ l => { l with on := false, onWas := false, soft := none }
  have dark : (vget s.lightsOff.tree.led n).en = (vget s.tree.led n).en ∧ (vget s.lightsOff.tree.led n).cur = (vget s.tree.led n).cur
      ∧ (vget s.lightsOff.tree.led n).dim = (vget s.tree.led n).dim :=
    ⟨vmapIdx_keeps s.tree.led off Led.en (fun _ _ => rfl) n, vmapIdx_keeps s.tree.led off Led.cur (fun _ _ => rfl) n,
      vmapIdx_keeps s.tree.led off Led.dim (fun _ _ => rfl) n⟩
  have dropped : ∀ (t : State) (keep : Bool) (e : Nat), (t.dropItems keep e).tree.led = t.tree.led :=
    fun t keep e => by rw [dropItems_items t keep e]
  unfold State.hedgeDue
  dsimp only
  split <;> split
  · rw [dropped]
    exact dark
  · exact dark
  · rw [dropped]
    exact ⟨rfl, rfl, rfl⟩
  · exact ⟨rfl, rfl, rfl⟩

/-! ### A posted write to an array -/

/-- The members take the write in turn, from a state whose shape `P` the updates keep. -/
theorem land_members_of {k first : Nat} {d : Word} {full : Bool} {upd : Nat → State → State} {P : State → Prop}
    (kept : ∀ i t n l, P t → P ((upd i t).tested n l)) (blind : ∀ i t n l, upd i (t.tested n l) = (upd i t).tested n l) :
    ∀ (is : List Nat), (∀ i ∈ is, ∀ t : State, P t → ∃ n l, t.landOne k d full (first + i) = (upd i t).tested n l) → ∀ t : State, P t →
    ∃ n l, (is.map (first + ·)).foldl (fun (t : State) b => t.landOne k d full b) t = (is.foldl (fun t i => upd i t) t).tested n l
  | [], _, t, _ => ⟨t.acc.rsvdDiff, t.acc.testCtl, rfl⟩
  | i :: is, one, t, p => by
    obtain ⟨n, l, e⟩ := one i List.mem_cons_self t p
    obtain ⟨n', l', e'⟩ := land_members_of kept blind is (fun j mem => one j (List.mem_cons_of_mem i mem)) ((upd i t).tested n l)
      (kept i t n l p)
    refine ⟨n', l', ?_⟩
    rw [List.map_cons, List.foldl_cons, e, e', List.foldl_cons]
    have slide : ∀ (is : List Nat) (t : State), is.foldl (fun t i => upd i t) (t.tested n l) = (is.foldl (fun t i => upd i t) t).tested n l := by
      intro is
      induction is with
      | nil => intro t; rfl
      | cons j is ih =>
        intro t
        rw [List.foldl_cons, blind, ih, List.foldl_cons]
    rw [slide]
    rfl

end Sys2Proof.Machine
end

section
/-! PROOFS. Enables that land: VCOM, auxiliary rails, load switches (R13, R46, R316, R318, R397, R409). -/

namespace Sys2Proof.Machine

/-! ### One place rewritten twice -/

theorem vset_vset {α : Type} {n : Nat} (v : Vector α n) (i : Nat) (x y : α) : vset (vset v i x) i y = vset v i y := by
  simp [vset]

/-- Beyond the end nothing is written. -/
theorem vset_out {α : Type} {n : Nat} (v : Vector α n) {i : Nat} (x : α) (h : ¬ i < n) : vset v i x = v := by
  refine Vector.ext (fun j below => ?_)
  rw [vset, Vector.getElem_setIfInBounds_ne below (by omega)]

section
variable {α : Type} [Inhabited α] {n : Nat}

theorem vset_vget (v : Vector α n) (i : Nat) : vset v i (vget v i) = v := by
  refine Vector.ext (fun j below => ?_)
  by_cases e : j = i
  · subst e
    rw [vset, Vector.getElem_setIfInBounds_self, vget_of_lt v below]
  · rw [vset, Vector.getElem_setIfInBounds_ne below (Ne.symm e)]

/-- A second rewriting of a place acts on what the first one left. -/
theorem vmod_vmod (v : Vector α n) (i : Nat) (f g : α → α) : vmod (vmod v i f) i g = vmod v i (fun x => g (f x)) := by
  by_cases h : i < n
  · unfold vmod
    rw [vget_vset_self _ _ h, vset_vset]
  · unfold vmod
    rw [vset_out _ _ h, vset_out _ _ h, vset_out _ _ h]

theorem vmod_congr (v : Vector α n) (i : Nat) {f g : α → α} (same : f (vget v i) = g (vget v i)) : vmod v i f = vmod v i g := by
  unfold vmod
  rw [same]

theorem vmod_same (v : Vector α n) (i : Nat) {f : α → α} (same : f (vget v i) = vget v i) : vmod v i f = v := by
  unfold vmod
  rw [same, vset_vget]
end

/-! ### A posted write to an array -/

/-- What holds of every address of an array of housekeeping registers: it is listed, with no key, and its writes are posted. -/
def ArrayListed (a : Nat) : Prop :=
  ∃ row, rowAt a = some row ∧ row.key = none ∧ row.effect = true ∧ row.dom = .house ∧ row.posted = true ∧ row.aliased = true ∧ a < 4096
    ∧ a % 256 &&& blockMask (a / 256) = a % 256

/-- The state in which a posted write of housekeeping lands. -/
def State.landed (s : State) (k : LinkState) : State := { s with now := s.now + 202, link := k, rtc.quietAt := s.now }

theorem array_run {s : State} {v : Via} {op : AliasOp} {a first : Nat} {d : Word} {numbers : List Nat} {upd : Nat → State → State}
    {P : State → Prop} (h : s.takes (viaWrite v (4096 * opCode op + a) d) = true) (q : s.quiet = true) (listed : ArrayListed a)
    (members : ∀ k, (s.landed k).members a = numbers.map (first + ·))
    (kept : ∀ i t n l, P t → P ((upd i t).tested n l)) (blind : ∀ i t n l, upd i (t.tested n l) = (upd i t).tested n l)
    (one : ∀ i ∈ numbers, ∀ t : State, P t → ∃ n l, t.landOne (opCode op) d s.fullDecode (first + i) = (upd i t).tested n l)
    (start : ∀ k, P (s.landed k))
    (still : ∀ k, (numbers.foldl (fun t i => upd i t) (s.landed k)).link = k) : ∃ k n l,
      (s.viaWord v (4096 * opCode op + a) d).postedLand (a / 256 % 16) = (numbers.foldl (fun t i => upd i t) (s.landed k)).tested n l := by
  obtain ⟨row, at_, free, effect, dom, posted, aliased, low, decoded⟩ := listed
  have place := opCode_lt op
  have base : (4096 * opCode op + a) % 4096 = a := by omega
  have alias_ : (4096 * opCode op + a) / 4096 = opCode op := by omega
  have block : blockOf (4096 * opCode op + a) = a / 256 % 16 := by
    unfold blockOf
    omega
  have span : postSpan row = 202 := by rw [postSpan, dom]; rfl
  rw [← block]
  refine posted_result (Q := fun u => ∃ k n l, u = (numbers.foldl (fun t i => upd i t) (s.landed k)).tested n l) h q (by omega)
    (decodeAddr_listed s place low at_ (.inr aliased) decoded) (base.symm ▸ at_) free effect posted (fun k idle => ?_)
  have landing : s.landing row k = s.landed k := by rw [State.landing, span]; rfl
  obtain ⟨n, l, run⟩ := land_members_of kept blind numbers one (s.landed k) (start k)
  have land : (s.landed k).land (4096 * opCode op + a) d s.fullDecode = (numbers.foldl (fun t i => upd i t) (s.landed k)).tested n l := by
    rw [State.land, base, alias_, members]
    exact run
  rw [landing, land]
  exact ⟨(congrArg LinkState.serving (still k)).trans idle, k, n, l, rfl⟩

/-- The rewritings of a vector, one place after another, each blind to what the others leave. -/
theorem vget_foldl_numbers {α : Type} [Inhabited α] {n : Nat} (mask : Nat) (sel : Sel n) (f : Nat → α → α) (v : Vector α n) {i : Nat}
    (h : i < n) : vget ((selNumbers mask sel).foldl (fun v k => vmod v k (f k)) v) i =
      if selTakes mask sel i then f i (vget v i) else vget v i := by
  rw [vget_foldl_vmod f i _ v (selNumbers_nodup mask sel) (selNumbers_lt mask sel)]
  simp only [mem_selNumbers mask sel h]

/-! ### VCOM (R120) -/

/-- A landed `VCOM_EN` keeps its eight bits (R120). -/
theorem vcomEn_lands (s : State) (v : Via) (op : AliasOp) (d : Word) (q : s.quiet = true)
    (h : s.takes (viaWrite v (4096 * opCode op + 0x300) d) = true) : ∃ u, s.landsAs (.vcomEn v op d) 3 u
      ∧ ({ s with panel.vcomEn := aliasOp (opCode op) s.panel.vcomEn d &&& 0xFF#32 } : State).servedOnly u
      ∧ u.now = s.now + 202 ∧ u.acc.posted = [] := by
  have at_ : rowAt 0x300 = some (rwRow 0x300 1 (fun _ => .vcomEn) .house 0xFF 0 0xFFFFFF00) := rfl
  have one : ∀ t : State, ∃ n l, t.landOne (opCode op) d s.fullDecode (0x300 + 0) =
      ({ t with panel.vcomEn := aliasOp (opCode op) t.panel.vcomEn d &&& 0xFF#32 } : State).tested n l := by
    intro t
    obtain ⟨n, l, run⟩ := landOne_field (s := t) (op := opCode op) (d := d) (full := s.fullDecode) at_ (by decide) rfl rfl
    have value : t.written 0x300 (opCode op) d = aliasOp (opCode op) t.panel.vcomEn d &&& 0xFF#32 :=
      congrArg (fun w => aliasOp (opCode op) w d &&& 0xFF#32) (wd_toNat t.panel.vcomEn)
    rw [value] at run
    exact ⟨n, l, run⟩
  obtain ⟨k, n, l, run⟩ := array_run (a := 0x300) (first := 0x300) (numbers := [0]) (P := fun _ => True)
    (upd := fun _ t => { t with panel.vcomEn := aliasOp (opCode op) t.panel.vcomEn d &&& 0xFF#32 }) h q
    ⟨_, at_, rfl, rfl, rfl, rfl, rfl, by decide, by decide⟩ (fun _ => rfl) (fun _ _ _ _ _ => trivial) (fun _ _ _ _ => rfl)
    (fun i mem t _ => by rw [List.mem_singleton.1 mem]; exact one t) (fun _ => trivial) (fun _ => rfl)
  refine ⟨_, ⟨_, rfl, congrArg Host.Outcome.next run⟩, rfl, rfl, (quiet_parts q).2.2.1⟩

/-! ### Auxiliary rails (R316, R317) -/

/-- An auxiliary rail as a landed EN leaves it at `n`, in a takeover or not, the plan raising it or not. -/
def Aux.landed (x : Aux) (hedge plan e : Bool) (n : Nat) : Aux :=
  if hedge then { x with en := if e && !plan then x.en else e }
  else if e then
    if plan = true ∧ ¬ x.en then
      (if x.raised && !x.latched && (!x.running || x.falling) then
        { x with en := true, running := true, pg := false, armed := false, ramp := .up (n + 402654) }
      else { x with en := true })
    else x
  else if x.running && !x.falling then
    { x with en := false, latched := false, pg := false, ramp := .down (n + 402654), blankTo := n + 402654 + 201327 }
  else { x with en := false, latched := false }

/-- OC cleared by a 1. -/
def Aux.cleared (x : Aux) (b : Bool) : Aux := { x with oc := x.oc && !b }

theorem modAux_modAux (s : State) (n : Nat) (f g : Aux → Aux) : (s.modAux n f).modAux n g = s.modAux n (fun x => g (f x)) :=
  congrArg (fun v => ({ s with tree.aux := v } : State)) (vmod_vmod s.tree.aux n f g)

theorem modAux_congr (s : State) (n : Nat) {f g : Aux → Aux} (same : f (vget s.tree.aux n) = g (vget s.tree.aux n)) :
    s.modAux n f = s.modAux n g :=
  congrArg (fun v => ({ s with tree.aux := v } : State)) (vmod_congr s.tree.aux n same)

theorem modAux_same (s : State) (n : Nat) {f : Aux → Aux} (same : f (vget s.tree.aux n) = vget s.tree.aux n) : s.modAux n f = s :=
  congrArg (fun v => ({ s with tree.aux := v } : State)) (vmod_same s.tree.aux n same)

theorem ramp_span : usToSclk 2000 = 402654 ∧ usToSclk 1000 = 201327 := by decide

/-- A rail enabled and raised starts its ramp, out of a ramp-down too. -/
theorem auxStart_landed (s : State) (n : Nat) : (s.modAux n (fun a => { a with en := true })).auxStart n = s.modAux n (fun x =>
    if x.raised && !x.latched && (!x.running || x.falling) then
      { x with en := true, running := true, pg := false, armed := false, ramp := .up (s.now + 402654) }
    else { x with en := true }) := by
  unfold State.auxStart
  dsimp only
  rw [modAux_modAux, ramp_span.1]
  rfl

/-- A rail disabled ramps down, if it runs and does not ramp down already. -/
theorem auxStop_landed (s : State) (n : Nat) :
    (s.modAux n (fun a => { a with en := false, latched := false })).auxStop n (s.now + usToSclk 2000) = s.modAux n (fun x =>
      if x.running && !x.falling then
        { x with en := false, latched := false, pg := false, ramp := .down (s.now + 402654), blankTo := s.now + 402654 + 201327 }
      else { x with en := false, latched := false }) := by
  unfold State.auxStop
  rw [modAux_modAux, ramp_span.1, ramp_span.2]
  refine modAux_congr s n ?_
  dsimp only
  split
  next falling => simp [Aux.falling, falling]
  next other =>
    have rising : (vget s.tree.aux n).falling = false := by
      unfold Aux.falling
      split
      · exact absurd ‹_› (other _)
      · rfl
    simp [rising]

theorem landAuxEn_eq {s : State} (awaits : s.planAwaits = none) (n : Nat) (e : Bool) :
    s.landAuxEn n e = s.modAux n (fun x => x.landed s.seq.hedge (s.planAux n) e s.now) := by
  unfold State.landAuxEn
  by_cases hedge : s.seq.hedge = true
  · simp only [hedge, if_true]
    rfl
  simp only [hedge, Bool.false_eq_true, if_false]
  cases e with
  | true =>
    simp only [if_true]
    split
    next rises =>
      rw [auxStart_landed]
      refine modAux_congr s n ?_
      simp only [Aux.landed, Bool.false_eq_true, if_false, if_true, rises, not_false_eq_true, and_self]
    next stays =>
      refine (modAux_same s n ?_).symm
      simp only [Aux.landed, Bool.false_eq_true, if_false, if_true, stays]
  | false =>
    simp only [Bool.false_eq_true, if_false]
    rw [auxStop_landed]
    split
    next m some => cases awaits.symm.trans some
    next => rfl

end Sys2Proof.Machine
end

section
/-! PROOFS. The arrays of auxiliary rails and load switches (R13, R46, R316, R318, R397, R409). -/

namespace Sys2Proof.Machine

/-! ### Auxiliary rails -/

/-- What a landed write makes of one rail. -/
def State.auxTook (t : State) (k : Nat) (d : Word) (i : Nat) (x : Aux) : Aux :=
  (x.landed t.seq.hedge (t.planAux i) (bit (aliasOp k (wd (bw x.en 0)) d) 0) t.now).cleared
    ((k == 0 || k == 2) && bit (d &&& ~~~(t.hwFresh (0xD40 + i) 1)) 5)

/-- A landed write of one rail. -/
def State.auxWrite (k : Nat) (d : Word) (i : Nat) (t : State) : State := t.modAux i (t.auxTook k d i)

/-- The row of `AUX_CTL`. -/
def auxRow : RegRow := rwRow 0xD40 4 .auxCtl .house 1 0x20 0xFFFFFFC0

theorem rowAt_aux {i : Nat} (h : i < 4) : rowAt (0xD40 + i) = some auxRow := by
  have all : ∀ i : Fin 4, rowAt (0xD40 + i.val) = some auxRow := by
    intro i
    fin_cases i <;> rfl
  exact all ⟨i, h⟩

theorem bit_zero (w : Word) : bit w 0 = decide (w.toNat % 2 = 1) := by
  simp [bit, BitVec.getLsbD, Nat.testBit_zero]

/-- The low bit of a written value depends on the low bit of what was there. -/
theorem aliasOp_bit_zero (k : Nat) (a b d : Word) (low : a.toNat % 2 = b.toNat % 2) : bit (aliasOp k a d) 0 = bit (aliasOp k b d) 0 := by
  have same := aliasOp_low k 1 a b d low
  rw [bit_zero, bit_zero]
  simp only [Nat.pow_one] at same
  rw [same]

theorem bw_even (b : Bool) {i : Nat} (h : i ≠ 0) : bw b i % 2 = 0 := by
  obtain ⟨j, rfl⟩ := Nat.exists_eq_succ_of_ne_zero h
  unfold bw
  split
  · simp [Nat.pow_succ]
  · rfl

theorem and_one_bit (w : Word) : bit (w &&& wd 1) 0 = bit w 0 := by
  simp [bit, wd]

theorem aux_written (t : State) (k : Nat) (d : Word) {i : Nat} (h : i < 4) :
    bit (t.written (0xD40 + i) k d) 0 = bit (aliasOp k (wd (bw (vget t.tree.aux i).en 0)) d) 0 := by
  have block : (0xD40 + i) / 256 = 13 := by omega
  have reg : auxRow.reg (0xD40 + i) = .auxCtl i := by
    simp only [RegRow.reg, auxRow, rwRow, Nat.add_sub_cancel_left]
  simp only [State.written, rowAt_aux h, block, reg]
  refine (and_one_bit _).trans (aliasOp_bit_zero k _ _ d ?_)
  have value : t.fields 13 (.auxCtl i) = wd (bw (vget t.hedgeDue.tree.aux i).oc 5 + bw (vget t.hedgeDue.tree.aux i).running 4
      + bw (vget t.hedgeDue.tree.aux i).pg 3 + bw (t.hedgeDue.auxKept i) 2 + bw (t.hedgeDue.planAux i) 1
      + bw (vget t.hedgeDue.tree.aux i).en 0) := rfl
  rw [value, (hedgeDue_enables t).1 i]
  have even := fun b {j : Nat} (h : j ≠ 0) => bw_even b h
  have oc := bw_even (vget t.hedgeDue.tree.aux i).oc (i := 5) (by decide)
  have running := bw_even (vget t.hedgeDue.tree.aux i).running (i := 4) (by decide)
  have pg := bw_even (vget t.hedgeDue.tree.aux i).pg (i := 3) (by decide)
  have kept := bw_even (t.hedgeDue.auxKept i) (i := 2) (by decide)
  have plan := bw_even (t.hedgeDue.planAux i) (i := 1) (by decide)
  simp only [wd, BitVec.toNat_ofNat]
  omega

theorem cleared_false (x : Aux) : x.cleared false = x := by
  simp [Aux.cleared]

/-- Bit 5 written 1 through the base or the clear alias clears OC, but where the hardware has just set it. -/
theorem clear_aux (t : State) (k : Nat) (place : k < 4) (d : Word) (i : Nat) :
    (let s1 := t.modAux i (fun x => x.landed t.seq.hedge (t.planAux i) (bit (aliasOp k (wd (bw x.en 0)) d) 0) t.now)
     let s2 := if auxRow.w1c = 0 ∨ k = 1 ∨ k = 3 then s1
       else s1.clearBits (.auxCtl i) (d &&& wd auxRow.w1c &&& ~~~(s1.hwFresh (0xD40 + i) (if auxRow.dom == .backup then cycle else 1)))
     if auxRow.wo then s2.act (.auxCtl i) d else s2) = t.auxWrite k d i := by
  have readable : ¬ auxRow.wo = true := by decide
  have sticky : ¬ auxRow.w1c = 0 := by decide
  dsimp only
  rw [if_neg readable]
  by_cases other : k = 1 ∨ k = 3
  · rw [if_pos (.inr other)]
    have base : (k == 0 || k == 2) = false := by
      rcases other with rfl | rfl <;> rfl
    unfold State.auxWrite State.auxTook
    simp only [base, Bool.false_and, cleared_false]
  · rw [if_neg (by simp only [sticky, false_or]; exact other)]
    have base : (k == 0 || k == 2) = true := by
      have : k = 0 ∨ k = 2 := by omega
      rcases this with rfl | rfl <;> rfl
    have same : ∀ f : Word, bit (d &&& wd auxRow.w1c &&& ~~~f) 5 = bit (d &&& ~~~f) 5 := by
      intro f
      have set : (wd auxRow.w1c).getLsbD 5 = true := by decide
      simp only [bit, BitVec.getLsbD_and, set, Bool.and_true]
    unfold State.auxWrite State.auxTook
    simp only [State.clearBits, same, base, Bool.true_and]
    have fresh : ∀ f : Aux → Aux, (t.modAux i f).hwFresh (0xD40 + i) (if auxRow.dom == .backup then cycle else 1) =
        t.hwFresh (0xD40 + i) 1 := fun _ => rfl
    rw [fresh]
    cases bit (d &&& ~~~(t.hwFresh (0xD40 + i) 1)) 5 with
    | true =>
      rw [if_pos rfl, modAux_modAux]
      refine modAux_congr t i ?_
      simp [Aux.cleared]
    | false =>
      rw [if_neg (by decide)]
      simp only [cleared_false]

theorem landOne_aux {t : State} (awaits : t.planAwaits = none) (k : Nat) (place : k < 4) (d : Word) (full : Bool) {i : Nat} (h : i < 4) :
    ∃ n l, t.landOne k d full (0xD40 + i) = (t.auxWrite k d i).tested n l := by
  have reg : auxRow.reg (0xD40 + i) = .auxCtl i := by
    simp only [RegRow.reg, auxRow, rwRow, Nat.add_sub_cancel_left]
  obtain ⟨n, l, run, -⟩ := landOne_cases (s := t) (op := k) (d := d) (full := full) (rowAt_aux h) (t.auxWrite k d i) (by
    rw [reg]
    have put : t.putField auxRow.dom (.auxCtl i) (t.written (0xD40 + i) k d) =
        t.modAux i (fun x => x.landed t.seq.hedge (t.planAux i) (bit (aliasOp k (wd (bw x.en 0)) d) 0) t.now) := by
      refine (landAuxEn_eq awaits i (bit (t.written (0xD40 + i) k d) 0)).trans (modAux_congr t i ?_)
      rw [aux_written t k d h]
    have written : ¬ auxRow.rw = 0 := by decide
    dsimp only
    rw [if_neg written, put]
    exact clear_aux t k place d i)
  exact ⟨n, l, run⟩

theorem aux_listed (sel : Sel 4) : ArrayListed (selAddr 0xD40 0xD44 0xD45 sel) := by
  cases sel with
  | one i =>
    refine ⟨auxRow, rowAt_aux i.isLt, rfl, rfl, rfl, rfl, rfl, ?_, ?_⟩
    · change 0xD40 + i.val < 4096
      omega
    · revert i
      decide
  | broadcast => exact ⟨_, rfl, rfl, rfl, rfl, rfl, rfl, by decide, by decide⟩
  | group => exact ⟨_, rfl, rfl, rfl, rfl, rfl, rfl, by decide, by decide⟩

theorem members_aux (s : State) (sel : Sel 4) :
    s.members (selAddr 0xD40 0xD44 0xD45 sel) = (selNumbers s.tree.auxGroup.toNat sel).map (0xD40 + ·) := by
  cases sel with
  | one i =>
    have := i.isLt
    change s.members (0xD40 + i.val) = [0xD40 + i.val]
    unfold State.members
    repeat rw [if_neg (by omega)]
  | broadcast => rfl
  | group => rfl

/-- The rails written one after another; each write is blind to the other rails. -/
theorem foldl_auxWrite (k : Nat) (d : Word) : ∀ (is : List Nat) (t : State), is.foldl (fun t i => t.auxWrite k d i) t =
    { t with tree.aux := is.foldl (fun v i => vmod v i (t.auxTook k d i)) t.tree.aux }
  | [], _ => rfl
  | i :: is, t => by
    rw [List.foldl_cons, foldl_auxWrite k d is]
    rfl

theorem aux_run {s : State} {v : Via} {op : AliasOp} {sel : Sel 4} {d : Word} (q : s.quiet = true) (awaits : s.planAwaits = none)
    (h : s.takes (viaWrite v (4096 * opCode op + selAddr 0xD40 0xD44 0xD45 sel) d) = true) : ∃ k n l,
    (s.viaWord v (4096 * opCode op + selAddr 0xD40 0xD44 0xD45 sel) d).postedLand 13 = ({ s.landed k with
      tree.aux := (selNumbers s.tree.auxGroup.toNat sel).foldl (fun v i => vmod v i ((s.landed k).auxTook (opCode op) d i)) s.tree.aux }
        : State).tested n l := by
  have block : selAddr 0xD40 0xD44 0xD45 sel / 256 % 16 = 13 := by
    cases sel with
    | one i => change (0xD40 + i.val) / 256 % 16 = 13; omega
    | broadcast => rfl
    | group => rfl
  have still : ∀ k, ((selNumbers s.tree.auxGroup.toNat sel).foldl (fun t i => t.auxWrite (opCode op) d i) (s.landed k)).link = k := by
    intro k
    rw [foldl_auxWrite]
    rfl
  obtain ⟨k, n, l, run⟩ := array_run (P := fun t => t.planAwaits = none) (first := 0xD40) (upd := fun i t => t.auxWrite (opCode op) d i)
    (numbers := selNumbers s.tree.auxGroup.toNat sel) h q (aux_listed sel) (fun k => members_aux (s.landed k) sel) (fun _ _ _ _ p => p)
    (fun _ _ _ _ => rfl) (fun i mem t p => landOne_aux p (opCode op) (opCode_lt op) d s.fullDecode (selNumbers_lt _ sel i mem))
    (fun _ => awaits) still
  rw [block, foldl_auxWrite] at run
  exact ⟨k, n, l, run⟩

/-- Every rail that the address selects takes the write (R316, R317). -/
theorem auxEn_lands (s : State) (v : Via) (op : AliasOp) (sel : Sel 4) (d : Word) (q : s.quiet = true) (awaits : s.planAwaits = none)
    (h : s.takes (viaWrite v (4096 * opCode op + selAddr 0xD40 0xD44 0xD45 sel) d) = true) :
    ∃ u k, s.landsAs (.auxEn v op sel d) 13 u ∧ ({ s with tree.aux := u.tree.aux } : State).servedOnly u ∧ u.now = s.now + 202
      ∧ ∀ m, m < 4 → vget u.tree.aux m =
        if selTakes s.tree.auxGroup.toNat sel m then (s.landed k).auxTook (opCode op) d m (vget s.tree.aux m) else vget s.tree.aux m := by
  obtain ⟨k, n, l, run⟩ := aux_run q awaits h
  exact ⟨_, k, ⟨_, rfl, congrArg Host.Outcome.next run⟩, rfl, rfl, fun m small =>
    vget_foldl_numbers s.tree.auxGroup.toNat sel (fun i => (s.landed k).auxTook (opCode op) d i) s.tree.aux small⟩

/-! ### Load switches -/

/-- What a landed write makes of one load switch. -/
def State.lswTook (t : State) (k : Nat) (d : Word) (i : Nat) (x : Lsw) : Lsw :=
  let e := bit (aliasOp k (wd (bw x.en 0)) d) 0
  if !e || t.planLsw i then (if t.seq.hedge then { x with en := e } else { x with en := e, asserted := e && x.raised }) else x

def State.lswWrite (k : Nat) (d : Word) (i : Nat) (t : State) : State := t.modLsw i (t.lswTook k d i)

/-- The row of `LSW_CTL`. -/
def lswRow : RegRow := rwRow 0xD48 4 .lswCtl .house 1 0 0xFFFFFFF0

theorem rowAt_lsw {i : Nat} (h : i < 4) : rowAt (0xD48 + i) = some lswRow := by
  have all : ∀ i : Fin 4, rowAt (0xD48 + i.val) = some lswRow := by
    intro i
    fin_cases i <;> rfl
  exact all ⟨i, h⟩

theorem modLsw_congr (s : State) (n : Nat) {f g : Lsw → Lsw} (same : f (vget s.tree.lsw n) = g (vget s.tree.lsw n)) :
    s.modLsw n f = s.modLsw n g :=
  congrArg (fun v => ({ s with tree.lsw := v } : State)) (vmod_congr s.tree.lsw n same)

theorem modLsw_same (s : State) (n : Nat) {f : Lsw → Lsw} (same : f (vget s.tree.lsw n) = vget s.tree.lsw n) : s.modLsw n f = s :=
  congrArg (fun v => ({ s with tree.lsw := v } : State)) (vmod_same s.tree.lsw n same)

theorem lsw_written (t : State) (k : Nat) (d : Word) {i : Nat} (h : i < 4) :
    bit (t.written (0xD48 + i) k d) 0 = bit (aliasOp k (wd (bw (vget t.tree.lsw i).en 0)) d) 0 := by
  have block : (0xD48 + i) / 256 = 13 := by omega
  have reg : lswRow.reg (0xD48 + i) = .lswCtl i := by
    simp only [RegRow.reg, lswRow, rwRow, Nat.add_sub_cancel_left]
  simp only [State.written, rowAt_lsw h, block, reg]
  refine (and_one_bit _).trans (aliasOp_bit_zero k _ _ d ?_)
  have value : t.fields 13 (.lswCtl i) = wd (bw (vget t.hedgeDue.tree.lsw i).asserted 3 + bw (t.hedgeDue.auxKept i) 2
      + bw (t.hedgeDue.planLsw i) 1 + bw (vget t.hedgeDue.tree.lsw i).en 0) := rfl
  rw [value, (hedgeDue_enables t).2 i]
  have asserted := bw_even (vget t.hedgeDue.tree.lsw i).asserted (i := 3) (by decide)
  have kept := bw_even (t.hedgeDue.auxKept i) (i := 2) (by decide)
  have plan := bw_even (t.hedgeDue.planLsw i) (i := 1) (by decide)
  simp only [wd, BitVec.toNat_ofNat]
  omega

theorem landLswEn_eq (t : State) (k : Nat) (d : Word) (i : Nat) :
    t.landLswEn i (bit (aliasOp k (wd (bw (vget t.tree.lsw i).en 0)) d) 0) = t.lswWrite k d i := by
  unfold State.landLswEn State.lswWrite
  generalize he : bit (aliasOp k (wd (bw (vget t.tree.lsw i).en 0)) d) 0 = e
  split
  next refused =>
    refine (modLsw_same t i ?_).symm
    simp only [Bool.and_eq_true, Bool.not_eq_true'] at refused
    simp [State.lswTook, he, refused]
  next taken =>
    have takes : (!e || t.planLsw i) = true := by
      cases e <;> simp_all
    dsimp only
    split
    next hedge =>
      refine modLsw_congr t i ?_
      simp only [State.lswTook, he, takes, hedge, if_true]
    next free =>
      refine (congrArg (fun v => ({ t with tree.lsw := v } : State)) (vmod_vmod t.tree.lsw i (fun l => { l with en := e })
        (fun l => { l with asserted := l.en && l.raised }))).trans (modLsw_congr t i ?_)
      simp only [State.lswTook, he, takes, free, if_true, if_false, Bool.false_eq_true]

theorem landOne_lsw (k : Nat) (d : Word) (full : Bool) {i : Nat} (h : i < 4) (t : State) :
    ∃ n l, t.landOne k d full (0xD48 + i) = (t.lswWrite k d i).tested n l := by
  have reg : lswRow.reg (0xD48 + i) = .lswCtl i := by
    simp only [RegRow.reg, lswRow, rwRow, Nat.add_sub_cancel_left]
  obtain ⟨n, l, run⟩ := landOne_field (s := t) (op := k) (d := d) (full := full) (rowAt_lsw h) (by decide) rfl rfl
  have put : t.putField lswRow.dom (.lswCtl i) (t.written (0xD48 + i) k d) = t.lswWrite k d i := by
    refine (congrArg (t.landLswEn i) (lsw_written t k d h)).trans (landLswEn_eq t k d i)
  rw [reg, put] at run
  exact ⟨n, l, run⟩

theorem lsw_listed (sel : Sel 4) : ArrayListed (selAddr 0xD48 0xD4C 0xD4D sel) := by
  cases sel with
  | one i =>
    refine ⟨lswRow, rowAt_lsw i.isLt, rfl, rfl, rfl, rfl, rfl, ?_, ?_⟩
    · change 0xD48 + i.val < 4096
      omega
    · revert i
      decide
  | broadcast => exact ⟨_, rfl, rfl, rfl, rfl, rfl, rfl, by decide, by decide⟩
  | group => exact ⟨_, rfl, rfl, rfl, rfl, rfl, rfl, by decide, by decide⟩

theorem members_lsw (s : State) (sel : Sel 4) :
    s.members (selAddr 0xD48 0xD4C 0xD4D sel) = (selNumbers s.tree.lswGroup.toNat sel).map (0xD48 + ·) := by
  cases sel with
  | one i =>
    have := i.isLt
    change s.members (0xD48 + i.val) = [0xD48 + i.val]
    unfold State.members
    repeat rw [if_neg (by omega)]
  | broadcast => rfl
  | group => rfl

theorem foldl_lswWrite (k : Nat) (d : Word) : ∀ (is : List Nat) (t : State), is.foldl (fun t i => t.lswWrite k d i) t =
    { t with tree.lsw := is.foldl (fun v i => vmod v i (t.lswTook k d i)) t.tree.lsw }
  | [], _ => rfl
  | i :: is, t => by
    rw [List.foldl_cons, foldl_lswWrite k d is]
    rfl

/-- Every switch that the address selects takes the write (R318). -/
theorem lswEn_lands (s : State) (v : Via) (op : AliasOp) (sel : Sel 4) (d : Word) (q : s.quiet = true)
    (h : s.takes (viaWrite v (4096 * opCode op + selAddr 0xD48 0xD4C 0xD4D sel) d) = true) :
    ∃ u, s.landsAs (.lswEn v op sel d) 13 u ∧ ({ s with tree.lsw := u.tree.lsw } : State).servedOnly u ∧ u.now = s.now + 202
      ∧ ∀ m, m < 4 → vget u.tree.lsw m =
        if selTakes s.tree.lswGroup.toNat sel m then s.lswTook (opCode op) d m (vget s.tree.lsw m) else vget s.tree.lsw m := by
  have block : selAddr 0xD48 0xD4C 0xD4D sel / 256 % 16 = 13 := by
    cases sel with
    | one i => change (0xD48 + i.val) / 256 % 16 = 13; omega
    | broadcast => rfl
    | group => rfl
  have still : ∀ k, ((selNumbers s.tree.lswGroup.toNat sel).foldl (fun t i => t.lswWrite (opCode op) d i) (s.landed k)).link = k := by
    intro k
    rw [foldl_lswWrite]
    rfl
  obtain ⟨k, n, l, run⟩ := array_run (P := fun _ => True) (first := 0xD48) (upd := fun i t => t.lswWrite (opCode op) d i)
    (numbers := selNumbers s.tree.lswGroup.toNat sel) h q (lsw_listed sel) (fun k => members_lsw (s.landed k) sel)
    (fun _ _ _ _ _ => trivial) (fun _ _ _ _ => rfl)
    (fun i mem t _ => landOne_lsw (opCode op) d s.fullDecode (selNumbers_lt _ sel i mem) t) (fun _ => trivial) still
  rw [block, foldl_lswWrite] at run
  exact ⟨_, ⟨_, rfl, congrArg Host.Outcome.next run⟩, rfl, rfl, fun m small =>
    vget_foldl_numbers s.tree.lswGroup.toNat sel (fun i => s.lswTook (opCode op) d i) s.tree.lsw small⟩

/-- Settles O37, from its three parts. -/
theorem enablesLand : Obligations.EnablesLand := by
  refine ⟨fun s v op d q h => vcomEn_lands s v op d q h, ?_, fun s v op sel d q h => ?_⟩
  · intro s v op sel d q awaits h n
    obtain ⟨u, k, lands, served, now, rails⟩ := auxEn_lands s v op sel d q awaits h
    refine ⟨u, lands, served, now, fun m small => ?_⟩
    refine (rails m small).trans ?_
    have op_ : (opCode op == 0 || opCode op == 2) = (op == .base || op == .clear) := by cases op <;> rfl
    unfold State.auxTook
    rw [op_]
    rfl
  · obtain ⟨u, lands, served, now, switches⟩ := lswEn_lands s v op sel d q h
    refine ⟨u, lands, served, now, fun m small => ?_⟩
    refine (switches m small).trans ?_
    unfold State.lswTook
    cases selTakes s.tree.lswGroup.toNat sel m with
    | true => rw [Bool.true_and]; rfl
    | false => rw [Bool.false_and]; rfl

end Sys2Proof.Machine
end

section
/-! PROOFS. The front light's registers (R13, R71, R321 to R325, R397). -/

namespace Sys2Proof.Machine

/-! ### One channel -/

/-- A channel's value as a landed word sets it, before it follows its setting (R71, R321). -/
def State.ledSet (t : State) (w : Word) (x : Led) : Led :=
  { x with en := bit w 31, cur := min (fld w 16 7) (ledCeiling (t.bin 7)), dim := fld w 0 12
           onWas := x.driven t.now, curWas := x.curNow t.now, dimWas := x.dimNow t.now, due := t.nextPwm }

/-- The channel is set on and not latched, the front light being allowed. -/
def Led.wanted (x : Led) (allowed : Bool) : Bool :=
  allowed && x.en && !(x.cur == 0) && !(x.dim == 0) && !x.short && !x.openL

/-- A channel that follows its setting from the next PWM period on. -/
def Led.follows (x : Led) (allowed : Bool) (now next : Nat) : Led :=
  if x.wanted allowed then
    if x.on then x
    else { x with on := true, onWas := x.driven now, due := next, soft := if x.driven now then x.soft else some (next + 402653) }
  else { x with on := false, onWas := x.driven now, due := next, soft := if x.driven now then x.soft else none }

theorem follows_settings (x : Led) (allowed : Bool) (now next : Nat) : let y := x.follows allowed now next
    y.en = x.en ∧ y.cur = x.cur ∧ y.dim = x.dim ∧ y.short = x.short ∧ y.openL = x.openL ∧ y.curWas = x.curWas ∧ y.dimWas = x.dimWas := by
  intro y
  unfold y Led.follows
  split
  · split <;> exact ⟨rfl, rfl, rfl, rfl, rfl, rfl, rfl⟩
  · exact ⟨rfl, rfl, rfl, rfl, rfl, rfl, rfl⟩

/-- It is on exactly where it is wanted. -/
theorem follows_on (x : Led) (allowed : Bool) (now next : Nat) : (x.follows allowed now next).on = x.wanted allowed := by
  unfold Led.follows
  cases wanted : x.wanted allowed with
  | true =>
    rw [if_pos rfl]
    split
    · assumption
    · rfl
  | false => rfl

theorem ledFollow_eq (t : State) (n : Nat) : t.ledFollow n = { t with
    tree.led := vmod t.tree.led n (fun x => x.follows (t.lightsAllowed && decide (n < ledUsed (t.bin 7))) t.now t.nextPwm) } := by
  have wanted : t.ledWanted n = (vget t.tree.led n).wanted (t.lightsAllowed && decide (n < ledUsed (t.bin 7))) := rfl
  unfold State.ledFollow
  dsimp only
  rw [wanted]
  rfl

/-- Only the front light differs: its channels and the power that follows from them. -/
def State.lightOnly (s t : State) : Prop := t = { s with
  tree.led := t.tree.led, tree.scale := t.tree.scale, tree.pclamp := t.tree.pclamp, tree.power := t.tree.power
  acc.rsvdDiff := t.acc.rsvdDiff, acc.testCtl := t.acc.testCtl }

theorem formPower_light (t : State) : t.lightOnly t.formPower ∧ t.formPower.tree.led = t.tree.led := by
  unfold State.formPower
  dsimp only
  split <;> exact ⟨rfl, rfl⟩

/-! ### A landed LED_DIM -/

/-- The word that a write through an alias gives a channel. -/
def Led.word (x : Led) (k : Nat) (d : Word) : Word := aliasOp k (wd (bw x.en 31 + x.cur * 65536 + x.dim)) d &&& 0x807F0FFF#32

/-- What a landed write makes of one channel. -/
def State.ledTook (t : State) (k : Nat) (d : Word) (i : Nat) (x : Led) : Led :=
  if i < ledUsed (t.bin 7) then (t.ledSet (x.word k d) x).follows t.lightsAllowed t.now t.nextPwm else x

def State.ledWrite (k : Nat) (d : Word) (i : Nat) (t : State) : State := t.landLed i ((vget t.tree.led i).word k d)

/-- The channels rewritten. -/
def State.withLed (t : State) (v : Vector Led 8) : State := { t with tree.led := v }

theorem landLed_used (t : State) (w : Word) {i : Nat} (used : i < ledUsed (t.bin 7)) :
    t.landLed i w = ((t.withLed (vmod t.tree.led i (t.ledSet w))).ledFollow i).formPower := if_pos used

theorem landLed_unused (t : State) (w : Word) {i : Nat} (unused : ¬ i < ledUsed (t.bin 7)) : t.landLed i w = t := if_neg unused

/-- A channel's write, before the power that follows from it. -/
theorem ledWrite_used (k : Nat) (d : Word) {i : Nat} (t : State) (used : i < ledUsed (t.bin 7)) :
    t.ledWrite k d i = (t.withLed (vmod t.tree.led i (t.ledTook k d i))).formPower := by
  rw [State.ledWrite, landLed_used t _ used]
  refine congrArg State.formPower ?_
  refine (ledFollow_eq (t.withLed (vmod t.tree.led i (t.ledSet ((vget t.tree.led i).word k d)))) i).trans (congrArg t.withLed ?_)
  refine (vmod_vmod t.tree.led i _ _).trans (vmod_congr t.tree.led i ?_)
  have allowed : (t.lightsAllowed && decide (i < ledUsed (t.bin 7))) = t.lightsAllowed := by simp [used]
  rw [State.ledTook, if_pos used]
  exact congrArg (fun b => Led.follows _ b t.now t.nextPwm) allowed

theorem ledWrite_unused (k : Nat) (d : Word) {i : Nat} (t : State) (unused : ¬ i < ledUsed (t.bin 7)) : t.ledWrite k d i = t :=
  landLed_unused t _ unused

theorem ledWrite_light (k : Nat) (d : Word) (i : Nat) (t : State) :
    t.lightOnly (t.ledWrite k d i) ∧ (t.ledWrite k d i).tree.led = vmod t.tree.led i (t.ledTook k d i) := by
  by_cases used : i < ledUsed (t.bin 7)
  · rw [ledWrite_used k d t used]
    obtain ⟨light, led⟩ := formPower_light (t.withLed (vmod t.tree.led i (t.ledTook k d i)))
    refine ⟨?_, led⟩
    unfold State.lightOnly at light ⊢
    rw [light]
    rfl
  · rw [ledWrite_unused k d t used]
    refine ⟨rfl, (vmod_same t.tree.led i ?_).symm⟩
    rw [State.ledTook, if_neg used]

theorem lightOnly_took {s t : State} (h : s.lightOnly t) (k : Nat) (d : Word) (i : Nat) : t.ledTook k d i = s.ledTook k d i := by
  rw [h]
  rfl

theorem State.lightOnly.trans {s t u : State} (h : s.lightOnly t) (g : t.lightOnly u) : s.lightOnly u := by
  unfold State.lightOnly at *
  rw [g, h]

theorem foldl_ledWrite (k : Nat) (d : Word) : ∀ (is : List Nat) (t : State),
    t.lightOnly (is.foldl (fun t i => t.ledWrite k d i) t)
      ∧ (is.foldl (fun t i => t.ledWrite k d i) t).tree.led = is.foldl (fun v i => vmod v i (t.ledTook k d i)) t.tree.led
  | [], _ => ⟨rfl, rfl⟩
  | i :: is, t => by
    obtain ⟨light, led⟩ := ledWrite_light k d i t
    obtain ⟨rest, value⟩ := foldl_ledWrite k d is (t.ledWrite k d i)
    refine ⟨light.trans rest, ?_⟩
    rw [List.foldl_cons, value, led]
    simp only [lightOnly_took light, List.foldl_cons]

/-- The row of `LED_DIM`. -/
def ledRow : RegRow := rwRow 0xD50 8 .ledDim .house 0x807F0FFF 0 0x7F80F000

theorem rowAt_led {i : Nat} (h : i < 8) : rowAt (0xD50 + i) = some ledRow := by
  have all : ∀ i : Fin 8, rowAt (0xD50 + i.val) = some ledRow := by
    intro i
    fin_cases i <;> rfl
  exact all ⟨i, h⟩

theorem landOne_led (k : Nat) (d : Word) (full : Bool) {i : Nat} (h : i < 8) (t : State) :
    ∃ n l, t.landOne k d full (0xD50 + i) = (t.ledWrite k d i).tested n l := by
  have block : (0xD50 + i) / 256 = 13 := by omega
  have reg : ledRow.reg (0xD50 + i) = .ledDim i := by
    simp only [RegRow.reg, ledRow, rwRow, Nat.add_sub_cancel_left]
  obtain ⟨n, l, run⟩ := landOne_field (s := t) (op := k) (d := d) (full := full) (rowAt_led h) (by decide) rfl rfl
  have value : t.written (0xD50 + i) k d = (vget t.tree.led i).word k d := by
    obtain ⟨en, cur, dim⟩ := hedgeDue_lights t i
    have fields : t.fields 13 (.ledDim i) = wd (bw (vget t.hedgeDue.tree.led i).en 31 + (vget t.hedgeDue.tree.led i).cur * 65536
        + (vget t.hedgeDue.tree.led i).dim) := rfl
    simp only [State.written, rowAt_led h, block, reg, fields, en, cur, dim]
    rfl
  rw [reg, value] at run
  exact ⟨n, l, run⟩

theorem led_listed (sel : Sel 8) : ArrayListed (selAddr 0xD50 0xD58 0xD59 sel) := by
  cases sel with
  | one i =>
    refine ⟨ledRow, rowAt_led i.isLt, rfl, rfl, rfl, rfl, rfl, ?_, ?_⟩
    · change 0xD50 + i.val < 4096
      omega
    · revert i
      decide
  | broadcast => exact ⟨_, rfl, rfl, rfl, rfl, rfl, rfl, by decide, by decide⟩
  | group => exact ⟨_, rfl, rfl, rfl, rfl, rfl, rfl, by decide, by decide⟩

theorem members_led (s : State) (sel : Sel 8) :
    s.members (selAddr 0xD50 0xD58 0xD59 sel) = (selNumbers s.tree.ledGroup.toNat sel).map (0xD50 + ·) := by
  cases sel with
  | one i =>
    have := i.isLt
    change s.members (0xD50 + i.val) = [0xD50 + i.val]
    unfold State.members
    repeat rw [if_neg (by omega)]
  | broadcast => rfl
  | group => rfl

theorem formPower_tested (t : State) (n : Nat) (l : SMap Word) : (t.tested n l).formPower = t.formPower.tested n l := by
  by_cases limited : t.tree.ratio ≠ 0 ∧ 8000000 * 4096 < t.lightProduct
  · have here : t.formPower = _ := if_pos limited
    have there : (t.tested n l).formPower = _ := if_pos limited
    rw [here, there]
    rfl
  · have here : t.formPower = _ := if_neg limited
    have there : (t.tested n l).formPower = _ := if_neg limited
    rw [here, there]
    rfl

theorem ledWrite_blind (k : Nat) (d : Word) (i : Nat) (t : State) (n : Nat) (l : SMap Word) :
    (t.tested n l).ledWrite k d i = (t.ledWrite k d i).tested n l := by
  by_cases used : i < ledUsed (t.bin 7)
  · rw [ledWrite_used k d t used, ledWrite_used k d (t.tested n l) used, ← formPower_tested]
    rfl
  · rw [ledWrite_unused k d t used, ledWrite_unused k d (t.tested n l) used]

/-- A landed write of the channels that an address selects. -/
theorem led_run {s : State} {v : Via} {op : AliasOp} {sel : Sel 8} {d : Word} (q : s.quiet = true)
    (h : s.takes (viaWrite v (4096 * opCode op + selAddr 0xD50 0xD58 0xD59 sel) d) = true) : ∃ k u,
    (s.viaWord v (4096 * opCode op + selAddr 0xD50 0xD58 0xD59 sel) d).postedLand 13 = u ∧ (s.landed k).lightOnly u
      ∧ ∀ m, m < 8 → vget u.tree.led m =
        if selTakes s.tree.ledGroup.toNat sel m then (s.landed k).ledTook (opCode op) d m (vget s.tree.led m) else vget s.tree.led m := by
  have block : selAddr 0xD50 0xD58 0xD59 sel / 256 % 16 = 13 := by
    cases sel with
    | one i => change (0xD50 + i.val) / 256 % 16 = 13; omega
    | broadcast => rfl
    | group => rfl
  have still : ∀ k, ((selNumbers s.tree.ledGroup.toNat sel).foldl (fun t i => t.ledWrite (opCode op) d i) (s.landed k)).link = k := by
    intro k
    rw [(foldl_ledWrite (opCode op) d _ _).1]
    rfl
  obtain ⟨k, n, l, run⟩ := array_run (P := fun _ => True) (first := 0xD50) (upd := fun i t => t.ledWrite (opCode op) d i)
    (numbers := selNumbers s.tree.ledGroup.toNat sel) h q (led_listed sel) (fun k => members_led (s.landed k) sel)
    (fun _ _ _ _ _ => trivial) (fun i t n l => ledWrite_blind (opCode op) d i t n l)
    (fun i mem t _ => landOne_led (opCode op) d s.fullDecode (selNumbers_lt _ sel i mem) t) (fun _ => trivial) still
  obtain ⟨light, led⟩ := foldl_ledWrite (opCode op) d (selNumbers s.tree.ledGroup.toNat sel) (s.landed k)
  rw [block] at run
  refine ⟨k, _, run, light.trans rfl, fun m small => ?_⟩
  refine (congrArg (fun v => vget v m) led).trans ?_
  exact vget_foldl_numbers s.tree.ledGroup.toNat sel (fun i => (s.landed k).ledTook (opCode op) d i) s.tree.led small

/-- A channel that follows its setting takes effect at the period's start, and until then stays as it was. -/
theorem follows_until {x z : Led} (allowed : Bool) {now next : Nat} (due : z.due = next) (was : z.onWas = x.driven now)
    (on : z.on = x.on) (soft : z.soft = x.soft) : let y := z.follows allowed now next
    y.due = next ∧ (now < next → y.driven now = x.driven now
      ∧ y.soft = if (y.on && x.on) || x.driven now then x.soft else if y.on then some (next + 402653) else none) := by
  intro y
  have drives : now < next → z.driven now = x.driven now := fun early => by rw [Led.driven, due, if_pos early, was]
  unfold y Led.follows
  cases wanted : z.wanted allowed with
  | true =>
    cases running : z.on with
    | true =>
      rw [if_pos rfl, if_pos rfl]
      exact ⟨due, fun early => ⟨drives early, by simp [running, ← on, soft]⟩⟩
    | false =>
      rw [if_pos rfl, if_neg (by decide)]
      refine ⟨rfl, fun early => ?_⟩
      rw [drives early]
      simp [Led.driven, early, ← on, running, soft]
  | false =>
    rw [if_neg (by decide)]
    refine ⟨rfl, fun early => ?_⟩
    rw [drives early]
    simp [Led.driven, early, soft]

/-- What a channel that a write reaches is afterwards. -/
theorem ledTook_used {t : State} {k : Nat} {d : Word} {i : Nat} (used : i < ledUsed (t.bin 7)) (x : Led) :
    let w := x.word k d
    let y := t.ledTook k d i x
    y.en = bit w 31 ∧ y.cur = min (w.toNat / 65536 % 128) (ledCeiling (t.bin 7)) ∧ y.dim = w.toNat % 4096
      ∧ y.short = x.short ∧ y.openL = x.openL
      ∧ y.on = (t.lightsAllowed && y.en && decide (y.cur ≠ 0) && decide (y.dim ≠ 0) && !y.short && !y.openL)
      ∧ y.due = t.nextPwm
      ∧ (t.now < y.due → y.driven t.now = x.driven t.now ∧ y.curNow t.now = x.curNow t.now ∧ y.dimNow t.now = x.dimNow t.now
        ∧ y.soft = if (y.on && x.on) || x.driven t.now then x.soft else if y.on then some (y.due + 402653) else none) := by
  intro w y
  have took : y = (t.ledSet w x).follows t.lightsAllowed t.now t.nextPwm := if_pos used
  obtain ⟨en, cur, dim, short, open', curWas, dimWas⟩ := follows_settings (t.ledSet w x) t.lightsAllowed t.now t.nextPwm
  have on := follows_on (t.ledSet w x) t.lightsAllowed t.now t.nextPwm
  obtain ⟨due, until_⟩ := follows_until (x := x) (z := t.ledSet w x) t.lightsAllowed (now := t.now) (next := t.nextPwm) rfl rfl rfl rfl
  rw [← took] at en cur dim short open' curWas dimWas on due until_
  have curField : (t.ledSet w x).cur = min (w.toNat / 65536 % 128) (ledCeiling (t.bin 7)) := by
    simp only [State.ledSet, fld, Nat.shiftRight_eq_div_pow]
    rfl
  refine ⟨en, cur.trans curField, dim, short, open', ?_, due, fun early => ?_⟩
  · rw [on, Led.wanted, ← en, ← cur, ← dim, ← short, ← open']
    simp [beq_eq_decide]
  · rw [due] at early
    obtain ⟨driven, soft⟩ := until_ early
    refine ⟨driven, ?_, ?_, ?_⟩
    · rw [Led.curNow, due, if_pos early]
      exact curWas
    · rw [Led.dimNow, due, if_pos early]
      exact dimWas
    · rw [due]
      exact soft

/-! ### LED_STAT -/

/-- One channel's latches cleared. -/
def Led.unlatched (short open' : BitVec 8) (n : Nat) (x : Led) : Led :=
  { x with short := x.short && !short.getLsbD n, openL := x.openL && !open'.getLsbD n }

/-- And its setting followed. -/
def State.latchCleared (t : State) (short open' : BitVec 8) (n : Nat) (x : Led) : Led :=
  (x.unlatched short open' n).follows (t.lightsAllowed && decide (n < ledUsed (t.bin 7))) t.now t.nextPwm

theorem latchCleared_step (t : State) (short open' : BitVec 8) (n : Nat) :
    (t.withLed (vmod t.tree.led n (Led.unlatched short open' n))).ledFollow n =
      t.withLed (vmod t.tree.led n (t.latchCleared short open' n)) := by
  refine (ledFollow_eq _ n).trans (congrArg t.withLed ?_)
  exact vmod_vmod t.tree.led n (Led.unlatched short open' n)
    (fun x => x.follows (t.lightsAllowed && decide (n < ledUsed (t.bin 7))) t.now t.nextPwm)

theorem clearLedLatch_eq (short open' : BitVec 8) (s : State) : s.clearLedLatch short open' =
    s.withLed ((List.range 8).foldl (fun v n => vmod v n (s.latchCleared short open' n)) s.tree.led) := by
  have all : ∀ (l : List Nat) (t : State),
      l.foldl (fun t n => (t.withLed (vmod t.tree.led n (Led.unlatched short open' n))).ledFollow n) t =
        t.withLed (l.foldl (fun v n => vmod v n (t.latchCleared short open' n)) t.tree.led) := by
    intro l
    induction l with
    | nil => intro t; rfl
    | cons n l ih =>
      intro t
      rw [List.foldl_cons, latchCleared_step, ih]
      rfl
  exact all (List.range 8) s

/-- A channel afterwards. -/
theorem latchCleared_keeps (t : State) (short open' : BitVec 8) (n : Nat) (x : Led) : let y := t.latchCleared short open' n x
    y.en = x.en ∧ y.cur = x.cur ∧ y.dim = x.dim ∧ y.short = (x.short && !short.getLsbD n) ∧ y.openL = (x.openL && !open'.getLsbD n)
      ∧ y.on = (t.lightsAllowed && decide (n < ledUsed (t.bin 7)) && y.en && decide (y.cur ≠ 0) && decide (y.dim ≠ 0)
        && !y.short && !y.openL) := by
  intro y
  obtain ⟨en, cur, dim, short', open'', -, -⟩ := follows_settings
    { x with short := x.short && !short.getLsbD n, openL := x.openL && !open'.getLsbD n }
    (t.lightsAllowed && decide (n < ledUsed (t.bin 7))) t.now t.nextPwm
  have on := follows_on { x with short := x.short && !short.getLsbD n, openL := x.openL && !open'.getLsbD n }
    (t.lightsAllowed && decide (n < ledUsed (t.bin 7))) t.now t.nextPwm
  refine ⟨en, cur, dim, short', open'', on.trans ?_⟩
  rw [show y.en = x.en from en, show y.cur = x.cur from cur, show y.dim = x.dim from dim, show y.short = _ from short',
    show y.openL = _ from open'', Led.wanted]
  simp [beq_eq_decide]

/-- The bits of `LED_STAT` that a write clears, by channel. -/
theorem latch_bits (d f : Word) {m : Nat} (h : m < 8) : ((d &&& wd 0xFFFF &&& ~~~f).setWidth 8).getLsbD m = bit (d &&& ~~~f) m
    ∧ (((d &&& wd 0xFFFF &&& ~~~f) >>> 8).setWidth 8).getLsbD m = bit (d &&& ~~~f) (8 + m) := by
  have low : ∀ i : Fin 16, (wd 0xFFFF).getLsbD i.val = true := by decide
  have here := low ⟨m, by omega⟩
  have there := low ⟨8 + m, by omega⟩
  simp only at here there
  constructor
  · simp only [bit, BitVec.getLsbD_setWidth, BitVec.getLsbD_and, here, h, decide_true, Bool.true_and, Bool.and_true]
  · simp only [bit, BitVec.getLsbD_setWidth, BitVec.getLsbD_ushiftRight, BitVec.getLsbD_and, there, h, decide_true, Bool.true_and,
      Bool.and_true]

/-- The channels after their latches were cleared. -/
theorem latches_after (s w : State) (d f : Word) (led : w.tree.led = s.tree.led) (allowed : w.lightsAllowed = s.lightsAllowed)
    (used : w.bin 7 = s.bin 7) {m : Nat} (h : m < 8) :
    let c := d &&& wd 0xFFFF &&& ~~~f
    let x := vget s.tree.led m
    let y := vget ((List.range 8).foldl (fun v n => vmod v n (w.latchCleared (c.setWidth 8) ((c >>> 8).setWidth 8) n)) w.tree.led) m
    y.en = x.en ∧ y.cur = x.cur ∧ y.dim = x.dim ∧ y.short = (x.short && !bit (d &&& ~~~f) m)
      ∧ y.openL = (x.openL && !bit (d &&& ~~~f) (8 + m))
      ∧ y.on = (s.lightsAllowed && decide (m < ledUsed (s.bin 7)) && y.en && decide (y.cur ≠ 0) && decide (y.dim ≠ 0)
        && !y.short && !y.openL) := by
  intro c x y
  have value : y = w.latchCleared (c.setWidth 8) ((c >>> 8).setWidth 8) m x := by
    have run := vget_foldl_vmod (fun n => w.latchCleared (c.setWidth 8) ((c >>> 8).setWidth 8) n) m (List.range 8) w.tree.led
      List.nodup_range (fun k mem => List.mem_range.1 mem)
    rw [if_pos (List.mem_range.2 h), led] at run
    rw [← run, ← led]
  obtain ⟨short, open'⟩ := latch_bits d f h
  have keeps := latchCleared_keeps w (c.setWidth 8) ((c >>> 8).setWidth 8) m x
  rw [← value, short, open', allowed, used] at keeps
  exact keeps

/-- Settles O38: LED_DIM is an array whose channels take the write in turn, LED_STAT one register of latches. -/
theorem frontLightLands : Obligations.FrontLightLands := by
  refine ⟨fun s v op sel d q h => ?_, fun s v d q h => ?_⟩
  · obtain ⟨k, u, run, light, led⟩ := led_run q h
    have now : u.now = s.now + 202 := by rw [light]; rfl
    refine ⟨u, ⟨_, rfl, congrArg Host.Outcome.next run⟩, ?_, now, fun m small => ?_⟩
    · unfold State.servedOnly
      rw [light]
      rfl
    · have value := led m small
      dsimp only
      rw [now]
      by_cases chosen : selTakes s.tree.ledGroup.toNat sel m = true
      · rw [if_pos chosen] at value
        by_cases used : m < ledUsed (s.bin 7)
        · rw [if_pos ⟨chosen, used⟩, value]
          exact ledTook_used (t := s.landed k) used (vget s.tree.led m)
        · rw [if_neg (fun both => used both.2), value]
          exact if_neg used
      · rw [if_neg chosen] at value
        rw [if_neg (fun both => chosen both.1)]
        exact value
  · have clear : ∀ (w : State) (c : Word), w.clearBits .ledStat c = _ :=
      fun w c => clearLedLatch_eq (c.setWidth 8) ((c >>> 8).setWidth 8) w
    have result := clear_result (Q := fun u => ({ s with tree.led := u.tree.led } : State).servedOnly u ∧ u.now = s.now + 202
        ∧ ∀ m, m < 8 → let x := vget s.tree.led m
          let y := vget u.tree.led m
          let c := d &&& ~~~(({ s with now := s.now + 202 } : State).hwFresh 0xD5B 1)
          y.en = x.en ∧ y.cur = x.cur ∧ y.dim = x.dim ∧ y.short = (x.short && !bit c m) ∧ y.openL = (x.openL && !bit c (8 + m))
            ∧ y.on = (s.lightsAllowed && decide (m < ledUsed (s.bin 7)) && y.en && decide (y.cur ≠ 0) && decide (y.dim ≠ 0)
              && !y.short && !y.openL))
      (row := rwRow 0xD5B 1 (fun _ => .ledStat) .house 0 0xFFFF 0xF00000) h q (by decide) rfl (by decide) rfl rfl rfl (by decide)
      rfl (fun _ => rfl) (by
        intro k idle n l w t
        have run : t = _ := congrArg (fun x => State.tested x n l) (clear w _)
        rw [run]
        refine ⟨idle, rfl, rfl, fun m small => ?_⟩
        have fresh : w.hwFresh 0xD5B (if (rwRow 0xD5B 1 (fun _ => .ledStat) .house 0 0xFFFF 0xF00000).dom == .backup then cycle else 1) =
          ({ s with now := s.now + 202 } : State).hwFresh 0xD5B 1 := rfl
        rw [fresh]
        exact latches_after s w d _ rfl rfl rfl small)
    obtain ⟨served, now, channels⟩ := result
    generalize hu : (s.viaWord v 0xD5B d).postedLand (blockOf 0xD5B) = u at served now channels
    refine ⟨u, ⟨_, rfl, congrArg Host.Outcome.next hu⟩, served, now, fun m small => ?_⟩
    dsimp only
    rw [now]
    exact channels m small

end Sys2Proof.Machine
end

section
/-! PROOFS. An almanac's COMMIT while the counter that it would raise is about to show its target (R184, R450). -/

namespace Sys2Proof.Machine

/-- A container of version 1's rollback staged and passed, its counter's raise in progress: the raise shows within the 1.000 ms that
the guarded write waits. -/
def raiseUnderCommit : State :=
  { Tests.live with
    acc := { Tests.live.acc with armed := some .almanac }
    alm := { Tests.live.alm with load := .staged, check := some .pass, staged := #[0, 0, 0, 0, 0, 0, 0, 0, 0, 0, 0, 0, 1, 0] }
    otp := { Tests.live.otp with supplyOk := true, op := some (.raise ctrAlmanac 0 1), shownAt := Tests.live.now + 1 } }

/-- Refutes O23: the counter reads below the container's at the letter and not at the reply, so the reply asks for no programming. -/
theorem not_almOperations : ¬ Obligations.AlmOperations := by
  intro h
  obtain ⟨u, replies, -, result⟩ := h raiseUnderCommit Tests.all 3 (by decide +kernel) (by decide +kernel)
  have accepted : raiseUnderCommit.almWhy (raiseUnderCommit.acc.armed == some Group.almanac) 3 = none := by decide +kernel
  split at result
  next k refused => cases accepted.symm.trans refused
  obtain ⟨-, -, -, -, programming⟩ := result
  rw [if_pos (by decide +kernel)] at programming
  have after := repliesAs_eq (t := raiseUnderCommit.viaWord Tests.all 0x700 3) rfl replies
  have idle : (raiseUnderCommit.viaWord Tests.all 0x700 3).guardedReply.alm.ctrBusy = false := by decide +kernel
  rw [after, idle] at programming
  exact absurd programming.1 (by decide)

end Sys2Proof.Machine
end

section
/-! PROOFS. A cause of ATTN_N that a headland's fault raises in the wake-race window; a commit point at a boundary to come; a valley
limit that ends a plan's last ramp; a counter whose raise shows while OTP's delivery runs (R350, R349, R337, R450). -/

namespace Sys2Proof.Machine

/-- Loop 7 read open before, its measurement runs, and HOLD's commit point has just passed with faults marked for attention. -/
def loopOpenInRace : State :=
  { Tests.live with
    panel.hlNow := some 7
    panel.headland := Vector.replicate 8 { (vget Tests.live.panel.headland 0) with cls := .open, suspect := true }
    pwr.committed := true, pwr.commitAt := 1000000, link.cfg := 1 }

/-- Refutes O34: in the wake-race window the fault's cause of ATTN_N is held, in the power states' record. -/
theorem not_headlandRead : ¬ Obligations.HeadlandRead := by
  intro h
  obtain ⟨-, t, run, -, -, -, -, -, -, pwr⟩ := h loopOpenInRace (Vector.replicate 4 4095) 7 rfl
  have after : t = loopOpenInRace.headlandEnd (Vector.replicate 4 4095) true := (Host.Outcome.next.inj run).symm
  have kept : t.pwr.attnHeld = 0 := by rw [pwr]; rfl
  rw [after] at kept
  exact absurd kept (by decide +kernel)

/-- An entry to HOLD that waits for the boundary at which the scan is to start, one SCLK from now. -/
def commitAtStart : State :=
  { Tests.railed with pwr.st := .enterHold, scan.startDue := some 1 }

/-- Refutes O51: with the scan not yet started the commit point lies at the boundary to come, not at the command's own moment. -/
theorem not_entriesCommit : ¬ Obligations.EntriesCommit := by
  intro h
  obtain ⟨t, run, -, -, now, -⟩ := (h commitAtStart 0 0).1 (by decide +kernel) (by decide +kernel) (by decide +kernel)
    (by decide +kernel) (by decide +kernel) (by decide +kernel) (by decide +kernel)
  have after : t = commitAtStart.holdCommit 0 0 := (Host.Outcome.next.inj run).symm
  rw [after] at now
  exact absurd now (by decide +kernel)

/-- The last rail of an entry to DORMANT ramps down, its valley limit still armed. -/
def lastRampDown : State :=
  { Tests.scanning 40 with
    seq.run := .dormantDrop, seq.steps := [.aux 0]
    tree.aux := Vector.replicate 4 { (vget Tests.live.tree.aux 0) with running := true, armed := true, ramp := .down 9 } }

/-- Refutes O53: the ramp that the valley limit ends was the plan's last step, and DORMANT follows, the scan's record reset. -/
theorem not_auxAndLightEvents : ¬ Obligations.AuxAndLightEvents := by
  intro h
  obtain ⟨t, run, -, -, scan, -⟩ := (h.1 lastRampDown 0).1 (by decide +kernel)
  have after : t = lastRampDown.auxOcFired 0 := (Host.Outcome.next.inj run).symm
  have kept : t.scan.slot = 40 := by rw [scan]; rfl
  rw [after] at kept
  exact absurd kept (by decide +kernel)

/-- OTP's delivery runs while a raise of the life-cycle counter is about to show its target. -/
def raiseUnderDelivery : State :=
  { Tests.starting .otp with otp.op := some (.raise ctrLife 0 1), otp.shownAt := 1 }

/-- Refutes O55: the life-cycle state delivered is the counter's at the delivery's end, not as it read before. -/
theorem not_startUpSteps : ¬ Obligations.StartUpSteps := by
  intro h
  obtain ⟨t, run, -, -, lc, -⟩ := (h.2.1 raiseUnderDelivery { flips := [] } rfl).2 (by decide +kernel)
  have after : t = raiseUnderDelivery.delivered { flips := [] } := (Host.Outcome.next.inj run).symm
  rw [after] at lc
  exact absurd lc (by decide +kernel)

end Sys2Proof.Machine
end

section
/-! PROOFS. What a stop of the scan and the rail order leave alone (R130, R329 to R331): each step of a rail-down, its end, and what a
rail-down begun for a purpose comes to. -/

namespace Sys2Proof.Machine

variable (s : State)

/-! ### What the rails' moves and a fault's reaction do not touch -/

/-- The part of the state that neither a stop, the rail order nor a reaction touches. -/
structure Untouched where
  pending : List Instr
  now : Nat
  free : Nat
  strap : StrapState
  alm : AlmState
  pgh : PghState
  ledger : LedgerState
  window : RwState
  clock : ClockState
  otp : OtpState
  goaSeen : Bool
  goaLine : BitVec 4
  slot : Nat
  missed : List Nat
  frame : Word
  vinOv : Bool
  first : Option SupEvent
  sticky0 : BitVec 32
  sticky1 : BitVec 32
  rtc : RtcState
  up : UpState
  link : LinkState

def State.untouched : Untouched :=
  ⟨s.pending, s.now, s.free, s.strap, s.alm, s.pgh, s.ledger, s.rw, s.clock, s.otp, s.panel.goaSeen, s.panel.goaLine, s.scan.slot,
    s.scan.missed, s.scan.frame, s.tree.vinOv, s.seq.first, s.flt.sticky0, s.flt.sticky1,
    { s.rtc with armed := false, deliveryDone := false }, { s.up with firstUp := false }, { s.link with attnState := false }⟩

/-- The device steers from s to t: beside what is untouched, a channel's overload record stays, and a rail that is still raised has its
comparators' bits. -/
structure State.Steered (s t : State) : Prop where
  untouched : t.untouched = s.untouched
  channels : ∀ n, n < 8 → (vget t.panel.vcom n).ovl = (vget s.panel.vcom n).ovl
  shown : ∀ k, k < 8 → t.enabled k = true → s.enabled k = true ∧ t.seq.uv.getLsbD k = s.seq.uv.getLsbD k
    ∧ t.seq.ov.getLsbD k = s.seq.ov.getLsbD k ∧ t.seq.oc.getLsbD k = s.seq.oc.getLsbD k

variable {s}

theorem State.Steered.refl (s : State) : s.Steered s := ⟨rfl, fun _ _ => rfl, fun _ _ h => ⟨h, rfl, rfl, rfl⟩⟩

theorem State.Steered.trans {s t u : State} (h : s.Steered t) (g : t.Steered u) : s.Steered u where
  untouched := g.untouched.trans h.untouched
  channels n small := (g.channels n small).trans (h.channels n small)
  shown k small up := by
    obtain ⟨middle, uv, ov, oc⟩ := g.shown k small up
    obtain ⟨start, uv', ov', oc'⟩ := h.shown k small middle
    exact ⟨start, uv.trans uv', ov.trans ov', oc.trans oc'⟩

/-- Two states that differ in none of the fields concerned. -/
theorem State.Steered.of_eq {s t : State} (untouched : t.untouched = s.untouched) (vcom : t.panel.vcom = s.panel.vcom)
    (acted : t.seq.acted = s.seq.acted) (uv : t.seq.uv = s.seq.uv) (ov : t.seq.ov = s.seq.ov) (oc : t.seq.oc = s.seq.oc) :
    s.Steered t where
  untouched := untouched
  channels _ _ := by rw [vcom]
  shown k _ up := ⟨by rw [State.enabled, ← acted]; exact up, by rw [uv], by rw [ov], by rw [oc]⟩

/-- A reaction but for how far it has come. -/
def Reacting.core (r : Reacting) : Reacting := { r with stage := .railUp, at_ := 0 }

/-- The faults' record but for how far the reaction has come. -/
def FaultState.core (f : FaultState) : FaultState := { f with react := f.react.map Reacting.core }

/-- It steers from s to t with the memories as they were, and the faults' record but for the reaction's stage. -/
structure State.Moved (s t : State) : Prop extends s.Steered t where
  mem : t.mem = s.mem
  flt : t.flt.core = s.flt.core

theorem State.Moved.refl (s : State) : s.Moved s := ⟨State.Steered.refl s, rfl, rfl⟩

theorem State.Moved.trans {s t u : State} (h : s.Moved t) (g : t.Moved u) : s.Moved u :=
  ⟨h.toSteered.trans g.toSteered, g.mem.trans h.mem, g.flt.trans h.flt⟩

theorem State.Moved.of_eq {s t : State} (mem : t.mem = s.mem) (flt : t.flt.core = s.flt.core) (untouched : t.untouched = s.untouched)
    (vcom : t.panel.vcom = s.panel.vcom) (acted : t.seq.acted = s.seq.acted) (uv : t.seq.uv = s.seq.uv) (ov : t.seq.ov = s.seq.ov)
    (oc : t.seq.oc = s.seq.oc) : s.Moved t :=
  ⟨State.Steered.of_eq untouched vcom acted uv ov oc, mem, flt⟩

theorem State.Steered.now {s t : State} (h : s.Steered t) : t.now = s.now := congrArg Untouched.now h.untouched
theorem State.Steered.otp {s t : State} (h : s.Steered t) : t.otp = s.otp := congrArg Untouched.otp h.untouched
theorem State.Steered.first {s t : State} (h : s.Steered t) : t.seq.first = s.seq.first := congrArg Untouched.first h.untouched
theorem State.Steered.vinOv {s t : State} (h : s.Steered t) : t.tree.vinOv = s.tree.vinOv := congrArg Untouched.vinOv h.untouched
theorem State.Steered.clock {s t : State} (h : s.Steered t) : t.clock = s.clock := congrArg Untouched.clock h.untouched
theorem State.Steered.strap {s t : State} (h : s.Steered t) : t.strap = s.strap := congrArg Untouched.strap h.untouched
theorem State.Steered.slot {s t : State} (h : s.Steered t) : t.scan.slot = s.scan.slot := congrArg Untouched.slot h.untouched
theorem State.Steered.missed {s t : State} (h : s.Steered t) : t.scan.missed = s.scan.missed := congrArg Untouched.missed h.untouched
theorem State.Steered.goaSeen {s t : State} (h : s.Steered t) : t.panel.goaSeen = s.panel.goaSeen :=
  congrArg Untouched.goaSeen h.untouched
theorem State.Steered.goaLine {s t : State} (h : s.Steered t) : t.panel.goaLine = s.panel.goaLine :=
  congrArg Untouched.goaLine h.untouched
theorem State.Steered.alm {s t : State} (h : s.Steered t) : t.alm = s.alm := congrArg Untouched.alm h.untouched

theorem State.Steered.bak {s t : State} (h : s.Steered t) : t.rtc.bak = s.rtc.bak :=
  congrArg (fun u => u.rtc.bak) h.untouched

theorem State.Steered.stage {s t : State} (h : s.Steered t) : t.up.stage = s.up.stage :=
  congrArg (fun u => u.up.stage) h.untouched

theorem State.Steered.version {s t : State} (h : s.Steered t) : t.link.version = s.link.version :=
  congrArg (fun u => u.link.version) h.untouched

/-- Its sticky bits stay. -/
theorem State.Steered.sticky {s t : State} (h : s.Steered t) (n : Nat) : t.sticky n = s.sticky n := by
  have zero : t.flt.sticky0 = s.flt.sticky0 := congrArg Untouched.sticky0 h.untouched
  have one : t.flt.sticky1 = s.flt.sticky1 := congrArg Untouched.sticky1 h.untouched
  rw [State.sticky, State.sticky, zero, one, h.bak]

/-! ### Stops of the scan -/

theorem mend_eq (s : State) (q : Nat → Bool) : s.mend q = { s with mem := (s.mend q).mem } := rfl

theorem visitRows_eq (s : State) (q : Nat → Bool) (a : AgeVisit) : s.visitRows q a = { s with mem := (s.visitRows q a).mem } := rfl

theorem releaseAge_none {s : State} (idle : s.mem.ageWait = none) (q : Nat → Bool) : s.releaseAge q = s := by
  rw [State.releaseAge, idle]

theorem releaseAge_some {s : State} {a : AgeVisit} (waits : s.mem.ageWait = some a) (q : Nat → Bool) :
    s.releaseAge q = { s.visitRows (fun r => a.rows.contains r && q r) a with
      mem.ageWait := some { a with rows := a.rows.filter (fun r => !q r) } } := by
  rw [State.releaseAge, waits]

theorem releaseAge_eq (s : State) (q : Nat → Bool) : s.releaseAge q = { s with mem := (s.releaseAge q).mem } := by
  cases waits : s.mem.ageWait with
  | none => rw [releaseAge_none waits]
  | some a => rw [releaseAge_some waits, visitRows_eq]

/-- The release of the scan's locks touches the memories only. -/
theorem releaseRows_eq (s : State) : s.releaseRows = { s with mem := s.releaseRows.mem } := by
  unfold State.releaseRows State.release
  dsimp only
  rw [releaseAge_eq]
  rfl

/-! #### The release depends on the memories and the panel's size -/

section
variable {s t : State} (mem : t.mem = s.mem) (strap : t.strap = s.strap)
include strap

theorem rows_congr : t.rows = s.rows := by simp only [State.rows, State.panelClass, State.bin, strap]
theorem cols_congr : t.cols = s.cols := by simp only [State.cols, State.panelClass, State.bin, strap]

theorem groupInUse_congr (g : Nat) : t.groupInUse g = s.groupInUse g := by
  rw [State.groupInUse, State.groupInUse, rows_congr strap, cols_congr strap]

omit strap
include mem

theorem groupData_congr (g : Nat) : t.groupData g = s.groupData g := by
  simp only [State.groupData, State.pixel, mem]

theorem groupClass_congr (g : Nat) : t.groupClass g = s.groupClass g := by
  rw [State.groupClass, State.groupClass, State.groupStored, State.groupStored, groupData_congr mem, mem]

include strap

theorem flipped_congr (q : Nat → Bool) : t.flipped q = s.flipped q := by
  simp only [State.flipped, mem, groupInUse_congr strap]

theorem lostGroups_congr (q : Nat → Bool) : t.lostGroups q = s.lostGroups q := by
  simp only [State.lostGroups, flipped_congr mem strap, groupClass_congr mem]

theorem mend_mem_congr (q : Nat → Bool) : (t.mend q).mem = (s.mend q).mem := by
  have still (u : State) (p : Nat → Bool) (g : Nat) : (u.countMended p).groupInUse g = u.groupInUse g := groupInUse_congr rfl g
  simp only [State.mend, State.rewritten, still, groupInUse_congr strap, groupClass_congr mem]
  simp only [State.countMended, mem, flipped_congr mem strap, groupClass_congr mem]

theorem visitRows_mem_congr (q : Nat → Bool) (a : AgeVisit) : (t.visitRows q a).mem = (s.visitRows q a).mem := by
  have idle (g : Nat) : t.groupIdle g = s.groupIdle g := by simp only [State.groupIdle, State.pixel, mem]
  have mended := mend_mem_congr mem strap (fun g => q (g / 768) && s.groupIdle g)
  simp only [State.visitRows, idle, mended, lostGroups_congr mem strap, groupInUse_congr strap]
  rw [mem]

theorem releaseAge_mem_congr (q : Nat → Bool) : (t.releaseAge q).mem = (s.releaseAge q).mem := by
  cases waits : s.mem.ageWait with
  | none => rw [releaseAge_none waits, releaseAge_none (by rw [mem, waits]), mem]
  | some a =>
    rw [releaseAge_some waits, releaseAge_some (by rw [mem, waits])]
    exact congrArg (fun m : MemState => { m with ageWait := some { a with rows := a.rows.filter (fun r => !q r) } })
      (visitRows_mem_congr mem strap _ a)

/-- The memories once every lock is released. -/
theorem releaseRows_mem : t.releaseRows.mem = s.releaseRows.mem := by
  have scrubbed : (t.scrubRows (fun r => t.mem.scrubWait.contains r && true)).mem
      = (s.scrubRows (fun r => s.mem.scrubWait.contains r && true)).mem := by
    rw [mem]
    exact mend_mem_congr mem strap _
  have panel (u : State) (q : Nat → Bool) : (u.scrubRows q).strap = u.strap := rfl
  unfold State.releaseRows State.release
  dsimp only
  have placed := (panel t (fun r => t.mem.scrubWait.contains r && true)).trans
    (strap.trans (panel s (fun r => s.mem.scrubWait.contains r && true)).symm)
  generalize t.scrubRows (fun r => t.mem.scrubWait.contains r && true) = t' at scrubbed placed ⊢
  generalize s.scrubRows (fun r => s.mem.scrubWait.contains r && true) = s' at scrubbed placed ⊢
  have aged := releaseAge_mem_congr (s := { s' with mem.scrubWait := s'.mem.scrubWait.filter (fun _ => !true) })
    (t := { t' with mem.scrubWait := t'.mem.scrubWait.filter (fun _ => !true) })
    (congrArg (fun m : MemState => { m with scrubWait := m.scrubWait.filter (fun _ => !true) }) scrubbed) placed (fun _ => true)
  exact congrArg (fun m : MemState => { m with ageWait := none }) aged

end

end Sys2Proof.Machine
end

section
/-! PROOFS. The stop of the scan and the rail order: each step of a rail-down, its end, and what a rail-down begun for a purpose comes
to (R130, R329 to R331). -/

namespace Sys2Proof.Machine

/-! ### The scan's stop -/

/-- A stop of the scan touches the memories, the panel's records, the drills' offers, the scan's and the plots'. -/
theorem stopScan_eq (s : State) : s.stopScan = { s with
    mem := s.releaseRows.mem, panel := s.stopScan.panel, drills := s.stopScan.drills, scan := s.stopScan.scan } := by
  unfold State.stopScan State.freeGrids
  dsimp only
  rw [releaseRows_eq]
  split <;> rfl

theorem stopScan_mem (s : State) : s.stopScan.mem = s.releaseRows.mem := by rw [stopScan_eq]

theorem stopScan_scan (s : State) : s.stopScan.scan = { s.scan with
    gridFrom := s.stopScan.scan.gridFrom, auxGridFrom := s.stopScan.scan.auxGridFrom, pwmFreeFrom := s.stopScan.scan.pwmFreeFrom
    scanning := false, startDue := none, firstFrame := true } := by
  unfold State.stopScan State.freeGrids
  dsimp only
  rw [releaseRows_eq]
  split <;> rfl

theorem stopScan_panel (s : State) : s.stopScan.panel = { s.panel with
    hlNow := none, srcCodes := [], srcFloat := false, prevCodes := [], prevFloat := false, zeroPass := [] } := by
  unfold State.stopScan State.freeGrids
  dsimp only
  rw [releaseRows_eq]
  split <;> rfl

theorem latchCharge_eq (s : State) : s.latchCharge = { s with
    panel.qPlot := s.latchCharge.panel.qPlot, panel.qRun := s.latchCharge.panel.qRun } := by
  unfold State.latchCharge
  dsimp only
  split <;> rfl

theorem formEnergy_eq (s : State) : s.formEnergy = { s with therm := s.formEnergy.therm } := rfl

theorem stepPlots_eq (s : State) (h : Nat) (e : Nat → Nat) : s.stepPlots h e = { s with therm := (s.stepPlots h e).therm } := rfl

/-- The device as an abrupt stop prices it, before the scan stops. -/
def State.priced (s : State) : State :=
  if s.scan.scanning then
    let s1 := s.latchCharge.formEnergy
    let s2 := if s.therm.started then s1.stepPlots (s.now - s.scan.boundaryAt) (fun p => (vget s1.therm.plot p).e) else s1
    { s2 with scan.cleanLast := false }
  else s

theorem priced_eq (s : State) : s.priced = { s with
    panel.qPlot := s.priced.panel.qPlot, panel.qRun := s.priced.panel.qRun, therm := s.priced.therm
    scan.cleanLast := s.priced.scan.cleanLast } := by
  have latched := latchCharge_eq s
  unfold State.priced
  dsimp only
  split
  · generalize s.latchCharge = u at latched
    rw [latched]
    split <;> rfl
  · rfl

theorem abruptStop_priced (s : State) : s.abruptStop = s.priced.stopScan := by
  unfold State.abruptStop State.priced
  dsimp only
  split <;> rfl

theorem abruptStop_mem (s : State) : s.abruptStop.mem = s.releaseRows.mem := by
  rw [abruptStop_priced, stopScan_mem]
  exact releaseRows_mem (by rw [priced_eq]) (by rw [priced_eq])

theorem abruptStop_scan (s : State) : s.abruptStop.scan = { s.scan with
    gridFrom := s.abruptStop.scan.gridFrom, auxGridFrom := s.abruptStop.scan.auxGridFrom
    pwmFreeFrom := s.abruptStop.scan.pwmFreeFrom, cleanLast := s.abruptStop.scan.cleanLast
    scanning := false, startDue := none, firstFrame := true } := by
  rw [abruptStop_priced, stopScan_scan]
  have same := priced_eq s
  generalize s.priced = u at same
  rw [same]

theorem abruptStop_panel (s : State) : s.abruptStop.panel = { s.panel with
    qPlot := s.abruptStop.panel.qPlot, qRun := s.abruptStop.panel.qRun
    hlNow := none, srcCodes := [], srcFloat := false, prevCodes := [], prevFloat := false, zeroPass := [] } := by
  rw [abruptStop_priced, stopScan_panel]
  have same := priced_eq s
  generalize s.priced = u at same
  rw [same]

/-- An abrupt stop touches what a stop does, and the plots. -/
theorem abruptStop_eq (s : State) : s.abruptStop = { s with
    mem := s.abruptStop.mem, panel := s.abruptStop.panel, drills := s.abruptStop.drills, scan := s.abruptStop.scan
    therm := s.abruptStop.therm } := by
  rw [abruptStop_priced]
  have stopped := stopScan_eq s.priced
  generalize s.priced.stopScan = t at stopped
  have same := priced_eq s
  generalize s.priced = u at same stopped
  rw [stopped, same]

theorem abruptStop_steered (s : State) : s.Steered s.abruptStop := by
  have frame := abruptStop_eq s
  have scan := abruptStop_scan s
  have panel := abruptStop_panel s
  generalize s.abruptStop = t at *
  refine State.Steered.of_eq ?_ (by rw [panel]) (by rw [frame]) (by rw [frame]) (by rw [frame]) (by rw [frame])
  rw [frame]
  unfold State.untouched
  dsimp only
  rw [scan, panel]

/-! ### Phases and steps of the rails -/

theorem showPhase_moved (s : State) (p : SeqPhase) : s.Moved (s.showPhase p) := by
  unfold State.showPhase
  split
  · exact State.Moved.refl s
  · exact State.Moved.of_eq rfl rfl rfl rfl rfl rfl rfl rfl

/-- A channel's overload record does not hang on its phase. -/
theorem channels_mapped {u v : Vector VcomCh 8} {f : Nat → VcomCh → VcomCh} (mapped : v = vmapIdx f u)
    (same : ∀ i c, (f i c).ovl = c.ovl) (n : Nat) (small : n < 8) : (vget v n).ovl = (vget u n).ovl := by
  rw [mapped, vget_vmapIdx _ _ small, same]

theorem vcomRampDown_moved (s : State) (e : Nat) : s.Moved (s.vcomRampDown e) where
  mem := rfl
  flt := rfl
  untouched := rfl
  channels := channels_mapped rfl (fun _ c => by split <;> rfl)
  shown _ _ up := ⟨up, rfl, rfl, rfl⟩

theorem vcomFloat_moved (s : State) : s.Moved s.vcomFloat where
  mem := rfl
  flt := rfl
  untouched := rfl
  channels := channels_mapped rfl (fun _ _ => rfl)
  shown _ _ up := ⟨up, rfl, rfl, rfl⟩

theorem vcomZero_moved (s : State) : s.Moved s.vcomZero where
  mem := rfl
  flt := rfl
  untouched := rfl
  channels := channels_mapped rfl (fun _ c => by split <;> rfl)
  shown _ _ up := ⟨up, rfl, rfl, rfl⟩

theorem setEnable_off_moved (s : State) {k : Nat} (small : k < 9) : s.Moved (s.setEnable k false) where
  mem := rfl
  flt := rfl
  untouched := rfl
  channels _ _ := rfl
  shown j _ up := by
    rw [State.setEnable_enabled _ _ _ _ small] at up
    split at up
    · cases up
    · exact ⟨up, rfl, rfl, rfl⟩

theorem downRail_lt (k : Nat) : downRail k < 8 := by
  unfold downRail
  rcases Nat.lt_or_ge k 10 with h | h
  · interval_cases k <;> decide
  · rw [List.getD_eq_default _ _ (by simpa using h)]
    decide

theorem startDrop_moved (s : State) (k : Nat) : s.Moved (s.startDrop k) where
  mem := rfl
  flt := rfl
  untouched := rfl
  channels _ _ := rfl
  shown j _ up := by
    have rail := downRail_lt k
    have still : (s.startDrop k).enabled j = (s.setEnable (downRail k) false).enabled j := rfl
    rw [still, State.setEnable_enabled _ _ _ _ (by omega)] at up
    split at up
    · cases up
    · rename_i ne
      refine ⟨up, ?_, ?_, ?_⟩
      all_goals
        refine (setBit_getLsbD _ _ _ _ rail).trans ?_
        rw [if_neg ne]

theorem dropStep_moved (s : State) (k : Nat) : s.Moved (s.dropStep k) := by
  unfold State.dropStep
  split
  · exact State.Moved.of_eq rfl rfl rfl rfl rfl rfl rfl rfl
  · exact startDrop_moved s k

/-! ### The next drop -/

/-- The next drop after step k, where a rail is left. -/
def State.dropAfter (s : State) (k : Nat) : Option Nat :=
  (List.range 10).find? (fun j => decide (k < j) && s.enabled (if j = 1 then 8 else downRail j))

theorem nextDown_none {s : State} {k : Nat} (none_ : s.dropAfter k = none) :
    s.nextDown k = ({ s with seq.railStep := 0, seq.vglHold := false }, false) := by
  unfold State.dropAfter at none_
  rw [State.nextDown, none_]

theorem nextDown_vcom {s : State} {k : Nat} (first : s.dropAfter k = some 1) :
    s.nextDown k = ({ (s.setEnable 8 false).vcomRampDown (s.now + s.vcomDownLen) with
      seq.railStep := 1, seq.railAt := s.now, seq.rising := false, panel.hlNow := none }, true) := by
  unfold State.dropAfter at first
  rw [State.nextDown, first]
  rfl

theorem nextDown_rail {s : State} {k j : Nat} (next : s.dropAfter k = some j) (ne : j ≠ 1) : s.nextDown k = (s.dropStep j, true) := by
  unfold State.dropAfter at next
  rw [State.nextDown, next]
  split
  · rename_i h; cases h
  · rename_i h; exact absurd (Option.some.inj h) ne
  · rename_i h; rw [Option.some.inj h]

theorem dropAfter_range {s : State} {k j : Nat} (next : s.dropAfter k = some j) :
    k < j ∧ j < 10 ∧ s.enabled (if j = 1 then 8 else downRail j) = true := by
  have found := List.find?_some next
  have member := List.mem_range.mp (List.mem_of_find?_eq_some next)
  simp only [Bool.and_eq_true, decide_eq_true_eq] at found
  exact ⟨found.1, member, found.2⟩

/-- A rail's step down undoes its step up. -/
theorem downRail_stepUpOf : ∀ r : Fin 8, downRail (10 - stepUpOf r.val) = r.val ∧ 2 ≤ 10 - stepUpOf r.val ∧ 10 - stepUpOf r.val < 10 := by
  decide

/-- A raised rail is left to drop after step 0, and after VCOM's ramp where it is a rail. -/
theorem dropAfter_exists {s : State} {k r : Nat} (up : s.enabled r = true) (step : r < 8 ∧ k ≤ 1 ∨ r = 8 ∧ k = 0) :
    ∃ j, s.dropAfter k = some j := by
  refine Option.isSome_iff_exists.mp ?_
  rw [State.dropAfter, List.find?_isSome]
  rcases step with ⟨rail, low⟩ | ⟨rfl, rfl⟩
  · obtain ⟨back, above, below⟩ := downRail_stepUpOf ⟨r, rail⟩
    refine ⟨10 - stepUpOf r, List.mem_range.mpr below, ?_⟩
    dsimp only at back above below
    rw [if_neg (by omega), back, up, decide_eq_true (by omega), Bool.and_self]
  · exact ⟨1, by simp, by simpa using up⟩

theorem anyRail_enabled {s : State} (up : s.anyRail = true) : ∃ r, r < 9 ∧ s.enabled r = true := by
  by_contra none_
  have zero : s.seq.acted = 0 := by
    refine BitVec.eq_of_getLsbD_eq fun i small => ?_
    rw [show (0 : BitVec 9).getLsbD i = false from BitVec.getLsbD_zero]
    exact Bool.eq_false_iff.mpr (fun h => none_ ⟨i, small, h⟩)
  rw [State.anyRail, zero] at up
  cases up

end Sys2Proof.Machine
end

section
/-! PROOFS. The end of a rail-down and what it was for; a rail-down begun for a purpose (R329, R331, R337, R342, R343). -/

namespace Sys2Proof.Machine

/-! ### Items dropped on the way to HOLD (R337) -/

/-- A reaction taken on leaves the rest of the faults' record. -/
theorem core_staged (f : FaultState) {r q : Option Reacting} (react : f.react = r) (same : q.map Reacting.core = r.map Reacting.core) :
    FaultState.core { f with react := q } = f.core := by
  rw [FaultState.core, FaultState.core, react]
  exact congrArg (fun o => { f with react := o }) same

theorem beginReturn_moved (s : State) (slow : Bool) : s.Moved (s.beginReturn slow) := by
  refine State.Moved.of_eq rfl (core_staged s.flt rfl ?_) rfl rfl rfl rfl rfl rfl
  cases s.flt.react with
  | none => rfl
  | some r =>
    dsimp only [Option.map_some]
    split <;> rfl

theorem markState_moved (s : State) : s.Moved s.markState := by
  unfold State.markState
  split
  · exact State.Moved.of_eq rfl rfl rfl rfl rfl rfl rfl rfl
  · exact State.Moved.refl s

theorem reachHold_moved (s : State) : s.Moved s.reachHold := by
  unfold State.reachHold
  have entered : s.Moved { s with pwr.st := .hold, pwr.committed := false, pwr.attnHeld := 0 } :=
    State.Moved.of_eq rfl rfl rfl rfl rfl rfl rfl rfl
  have marked := entered.trans (markState_moved _)
  dsimp only
  split
  · exact marked.trans (beginReturn_moved _ _)
  · exact marked

theorem dropAux_moved (s : State) (n e : Nat) : s.Moved (s.dropAux n e) := State.Moved.of_eq rfl rfl rfl rfl rfl rfl rfl rfl
theorem dropLsw_moved (s : State) (n : Nat) : s.Moved (s.dropLsw n) := State.Moved.of_eq rfl rfl rfl rfl rfl rfl rfl rfl

/-- The items of an entry to HOLD dropped one by one, to HOLD at their end. -/
theorem runSteps_holdDrop_moved (l : List PlanStep) (k : Nat) (s : State) (run : s.seq.run = .holdDrop) : s.Moved (s.runSteps l k) := by
  induction l generalizing s k with
  | nil =>
    unfold State.runSteps State.planEnd
    dsimp only
    rw [run]
    have idle : s.Moved { s with seq.run := .none, seq.steps := [], seq.place := 0 } := State.Moved.of_eq rfl rfl rfl rfl rfl rfl rfl rfl
    exact (idle.trans (showPhase_moved _ _)).trans (reachHold_moved _)
  | cons x l ih =>
    have waiting (t : State) : t.Moved { t with seq.steps := x :: l, seq.place := k, seq.stepAt := s.now } :=
      State.Moved.of_eq rfl rfl rfl rfl rfl rfl rfl rfl
    unfold State.runSteps
    rw [run]
    cases x with
    | aux n =>
      dsimp only
      split
      · exact (dropAux_moved s n _).trans (waiting _)
      · exact (dropAux_moved s n _).trans (ih _ _ run)
    | lsw n => exact (dropLsw_moved s n).trans (ih _ _ run)
    | delay ms => exact waiting s

theorem planHoldDrop_moved (s : State) : s.Moved s.planHoldDrop := by
  unfold State.planHoldDrop State.runPlan
  dsimp only
  have begun (t : State) : t.Moved { t with seq.run := .holdDrop } := State.Moved.of_eq rfl rfl rfl rfl rfl rfl rfl rfl
  have listed (a l : BitVec 4) : s.Moved { s with seq.droppedAux := a, seq.droppedLsw := l } :=
    State.Moved.of_eq rfl rfl rfl rfl rfl rfl rfl rfl
  exact (((listed _ _).trans (showPhase_moved _ _)).trans (begun _)).trans (runSteps_holdDrop_moved _ _ _ rfl)

/-! ### DARK's and the hedge's ends -/

theorem lightsOff_moved (s : State) : s.Moved s.lightsOff := State.Moved.of_eq rfl rfl rfl rfl rfl rfl rfl rfl

theorem dropItems_moved (s : State) (keep : Bool) (e : Nat) : s.Moved (s.dropItems keep e) := by
  unfold State.dropItems
  refine foldl_related State.Moved State.Moved.refl (fun h g => h.trans g) _ (fun t n => ?_) _ s
  split
  · exact State.Moved.refl t
  · exact (dropLsw_moved t n).trans (dropAux_moved _ n e)

theorem darkTail_moved (s : State) : s.Moved s.darkTail :=
  ((lightsOff_moved s).trans (dropItems_moved _ _ _)).trans (State.Moved.of_eq rfl rfl rfl rfl rfl rfl rfl rfl)

theorem hedgeTail_moved (s : State) : s.Moved s.hedgeTail := State.Moved.of_eq rfl rfl rfl rfl rfl rfl rfl rfl

theorem hedgeAtOnce_moved (s : State) : s.Moved s.hedgeAtOnce :=
  ((lightsOff_moved s).trans (dropItems_moved _ _ _)).trans (State.Moved.of_eq rfl rfl rfl rfl rfl rfl rfl rfl)

/-! ### The end of a rail-down -/

/-- The rails down, before what the rail-down was for goes on. -/
def State.railsDown (s : State) (ran : Bool) : State :=
  State.showPhase { s.vcomFloat with
    seq.railStep := 0, seq.vglHold := false, seq.skip := 0, seq.after := .nothing
    seq.timeDown := if ran then min 65535 ((s.now - s.seq.beganAt) * 100000 / sclkHz) else s.seq.timeDown
    seq.gateBlankTo := if ran then s.now + usToSclk 1000 else s.seq.gateBlankTo } .idle

theorem railsDown_moved (s : State) (ran : Bool) : s.Moved (s.railsDown ran) := by
  unfold State.railsDown
  refine ((vcomFloat_moved s).trans ?_).trans (showPhase_moved _ _)
  exact State.Moved.of_eq rfl rfl rfl rfl rfl rfl rfl rfl

theorem railDownEnd_eq (s : State) (ran : Bool) : s.railDownEnd ran = match s.seq.after with
    | .nothing => s.railsDown ran
    | .hold => (s.railsDown ran).planHoldDrop
    | .dormant | .delivery => (s.railsDown ran).dormantTail
    | .reaction => match s.flt.react with
      | some r => { s.railsDown ran with flt.react := some { r with stage := .toDecision, at_ := s.now } }
      | none => s.railsDown ran
    | .dark => (s.railsDown ran).darkTail
    | .hedge => (s.railsDown ran).hedgeTail
    | .reset => (s.railsDown ran).resetTail := rfl

/-- A purpose whose end takes the main domains nowhere. -/
def After.stays (a : After) : Prop := a ≠ .dormant ∧ a ≠ .delivery ∧ a ≠ .reset

theorem railDownEnd_moved {s : State} (ran : Bool) (stays : s.seq.after.stays) : s.Moved (s.railDownEnd ran) := by
  obtain ⟨dormant, delivery, reset⟩ := stays
  have down := railsDown_moved s ran
  rw [railDownEnd_eq]
  split
  · exact down
  · exact down.trans (planHoldDrop_moved _)
  · rename_i h; exact absurd h dormant
  · rename_i h; exact absurd h delivery
  · split
    · rename_i r found
      have kept : (s.railsDown ran).flt = s.flt := State.showPhase_flt _ _
      exact down.trans (State.Moved.of_eq rfl (core_staged _ ((congrArg FaultState.react kept).trans found) rfl) rfl rfl rfl rfl rfl rfl)
    · exact down
  · exact down.trans (darkTail_moved _)
  · exact down.trans (hedgeTail_moved _)
  · rename_i h; exact absurd h reset

/-! ### Rail-down from a step on -/

theorem nextDown_moved (s : State) (k : Nat) : s.Moved (s.nextDown k).1 := by
  cases next : s.dropAfter k with
  | none =>
    rw [nextDown_none next]
    exact State.Moved.of_eq rfl rfl rfl rfl rfl rfl rfl rfl
  | some j =>
    by_cases first : j = 1
    · rw [first] at next
      rw [nextDown_vcom next]
      exact ((setEnable_off_moved s (by decide)).trans (vcomRampDown_moved _ _)).trans
        (State.Moved.of_eq rfl rfl rfl rfl rfl rfl rfl rfl)
    · rw [nextDown_rail next first]
      exact dropStep_moved s j

theorem downFrom_some {s : State} {k j : Nat} (next : s.dropAfter k = some j) : s.downFrom k = (s.nextDown k).1 := by
  unfold State.downFrom
  by_cases first : j = 1
  · rw [first] at next
    rw [nextDown_vcom next]
    rfl
  · rw [nextDown_rail next first]
    rfl

theorem downFrom_none {s : State} {k : Nat} (none_ : s.dropAfter k = none) :
    s.downFrom k = State.railDownEnd { s with seq.railStep := 0, seq.vglHold := false } (!(k == 0)) := by
  unfold State.downFrom
  rw [nextDown_none none_]
  rfl

theorem downFrom_moved {s : State} {k : Nat} (stays : s.seq.after.stays ∨ (s.dropAfter k).isSome) : s.Moved (s.downFrom k) := by
  cases next : s.dropAfter k with
  | some j =>
    rw [downFrom_some next]
    exact nextDown_moved s k
  | none =>
    rw [downFrom_none next]
    have idle : s.Moved { s with seq.railStep := 0, seq.vglHold := false } := State.Moved.of_eq rfl rfl rfl rfl rfl rfl rfl rfl
    refine idle.trans (railDownEnd_moved _ (stays.resolve_right ?_))
    rw [next]
    decide

/-! ### A step of rail-down as it stands -/

/-- A rail-down goes on for a purpose. -/
def State.goingDown (s : State) (a : After) : Prop := s.seq.after = a ∧ s.seq.rising = false ∧ s.seq.railStep ≠ 0

theorem dropStep_falls (s : State) (j : Nat) : (s.dropStep j).seq.after = s.seq.after ∧ (s.dropStep j).seq.rising = false
    ∧ (s.dropStep j).seq.railStep = j := by
  unfold State.dropStep
  split
  · rename_i h
    exact ⟨rfl, rfl, h.1.symm⟩
  · exact ⟨rfl, rfl, rfl⟩

theorem nextDown_falls {s : State} {k j : Nat} (next : s.dropAfter k = some j) :
    (s.nextDown k).1.seq.after = s.seq.after ∧ (s.nextDown k).1.seq.rising = false ∧ (s.nextDown k).1.seq.railStep = j := by
  by_cases first : j = 1
  · rw [first] at next ⊢
    rw [nextDown_vcom next]
    exact ⟨rfl, rfl, rfl⟩
  · rw [nextDown_rail next first]
    exact dropStep_falls s j

/-! ### A rail-down begun for a purpose -/

/-- A rail-down of its own: the phase shown, the purpose, its time's beginning. -/
def State.downBegun (s : State) (a : After) : State :=
  { s.showPhase .railDown with seq.after := a, seq.beganAt := s.now, seq.dischRaised := false, seq.stuckRails := 0, seq.lone := false }

theorem downBegun_moved (s : State) (a : After) : s.Moved (s.downBegun a) :=
  (showPhase_moved s _).trans (State.Moved.of_eq rfl rfl rfl rfl rfl rfl rfl rfl)

theorem showPhase_seq (s : State) (p : SeqPhase) : (s.showPhase p).seq = { s.seq with phase := (s.showPhase p).seq.phase } := by
  unfold State.showPhase
  split <;> rfl

theorem downBegun_enabled (s : State) (a : After) (k : Nat) : (s.downBegun a).enabled k = s.enabled k := by
  show (s.showPhase .railDown).seq.acted.getLsbD k = _
  rw [showPhase_seq]
  rfl

theorem beginRailDown_going {s : State} (a : After) (going : s.seq.railStep ≠ 0 ∧ ¬ s.seq.rising) :
    s.beginRailDown a = { s with seq.after := a, seq.lone := false } := if_pos going

theorem beginRailDown_begun {s : State} (a : After) (idle : ¬ (s.seq.railStep ≠ 0 ∧ ¬ s.seq.rising)) :
    s.beginRailDown a = (s.downBegun a).downFrom 0 := by
  refine (if_neg idle).trans ?_
  rfl

/-- A raised rail, or a rail-down that runs, is what a rail-down has to do. -/
def State.hasDown (s : State) : Prop := s.anyRail = true ∨ s.seq.railStep ≠ 0 ∧ ¬ s.seq.rising

theorem downBegun_next {s : State} (a : After) (up : s.anyRail = true) : ∃ j, (s.downBegun a).dropAfter 0 = some j := by
  obtain ⟨r, small, raised⟩ := anyRail_enabled up
  refine dropAfter_exists (r := r) ((downBegun_enabled s a r).trans raised) ?_
  omega

theorem beginRailDown_moved {s : State} (a : After) (stays : a.stays ∨ s.hasDown) : s.Moved (s.beginRailDown a) := by
  by_cases going : s.seq.railStep ≠ 0 ∧ ¬ s.seq.rising
  · rw [beginRailDown_going a going]
    exact State.Moved.of_eq rfl rfl rfl rfl rfl rfl rfl rfl
  · rw [beginRailDown_begun a going]
    refine (downBegun_moved s a).trans (downFrom_moved ?_)
    rcases stays with stays | up | down
    · exact .inl stays
    · obtain ⟨j, next⟩ := downBegun_next a up
      exact .inr (by rw [next]; rfl)
    · exact absurd down going

/-- With something to do the rail-down goes on for its purpose. -/
theorem beginRailDown_goes_down {s : State} (a : After) (has : s.hasDown) : (s.beginRailDown a).goingDown a := by
  by_cases going : s.seq.railStep ≠ 0 ∧ ¬ s.seq.rising
  · rw [beginRailDown_going a going]
    exact ⟨rfl, Bool.eq_false_iff.mpr going.2, going.1⟩
  · obtain ⟨j, next⟩ := downBegun_next a (has.resolve_right going)
    rw [beginRailDown_begun a going, downFrom_some next]
    obtain ⟨after, rising, step⟩ := nextDown_falls next
    obtain ⟨above, -, -⟩ := dropAfter_range next
    exact ⟨after, rising, by omega⟩

end Sys2Proof.Machine
end

section
/-! PROOFS. The raising of a fault and what its reaction leaves (R463 to R475): the sticky bit, the stop, the reaction itself. -/

namespace Sys2Proof.Machine

/-! ### A stop -/

/-- The device steers from s to t, and the memories are those of s, or those that the scan's stop leaves. -/
structure State.Stopped (s t : State) : Prop extends s.Steered t where
  mem : s.memKept t

theorem State.Moved.stopped {s t : State} (h : s.Moved t) : s.Stopped t := ⟨h.toSteered, .inl h.mem⟩

theorem State.Stopped.refl (s : State) : s.Stopped s := (State.Moved.refl s).stopped

theorem State.Stopped.moved {s t u : State} (h : s.Stopped t) (g : t.Moved u) : s.Stopped u :=
  ⟨h.toSteered.trans g.toSteered, h.mem.imp g.mem.trans g.mem.trans⟩

theorem memKept_of_mem {s t u : State} (mem : t.mem = s.mem) (strap : t.strap = s.strap) (kept : t.memKept u) : s.memKept u :=
  kept.imp (fun h => h.trans mem) (fun h => h.trans (releaseRows_mem mem strap))

theorem State.Moved.then_stopped {s t u : State} (h : s.Moved t) (g : t.Stopped u) : s.Stopped u :=
  ⟨h.toSteered.trans g.toSteered, memKept_of_mem h.mem h.toSteered.strap g.mem⟩

theorem abruptStop_stopped (s : State) : s.Stopped s.abruptStop := ⟨abruptStop_steered s, .inr (abruptStop_mem s)⟩

/-- What a state's other records hold does not matter to a stop. -/
theorem State.Stopped.of_eq {s t u : State} (mem : t.mem = s.mem) (untouched : t.untouched = s.untouched)
    (vcom : t.panel.vcom = s.panel.vcom) (acted : t.seq.acted = s.seq.acted) (uv : t.seq.uv = s.seq.uv) (ov : t.seq.ov = s.seq.ov)
    (oc : t.seq.oc = s.seq.oc) (g : t.Stopped u) : s.Stopped u :=
  ⟨(State.Steered.of_eq untouched vcom acted uv ov oc).trans g.toSteered,
    memKept_of_mem mem (congrArg Untouched.strap untouched) g.mem⟩

theorem State.Stopped.then_eq {s t u : State} (h : s.Stopped t) (mem : u.mem = t.mem) (untouched : u.untouched = t.untouched)
    (vcom : u.panel.vcom = t.panel.vcom) (acted : u.seq.acted = t.seq.acted) (uv : u.seq.uv = t.seq.uv) (ov : u.seq.ov = t.seq.ov)
    (oc : u.seq.oc = t.seq.oc) : s.Stopped u :=
  ⟨h.toSteered.trans (State.Steered.of_eq untouched vcom acted uv ov oc), h.mem.imp mem.trans mem.trans⟩

/-! ### Reactions (R463, R469, R471, R472) -/

/-- The device as DARK finds it: no reaction, no plan and no passage of the power states any more. -/
def State.darkened (s : State) : State :=
  { s with
    flt.dark := true, flt.react := none, up.firstUp := false, pwr.change := none, pwr.held := false, pwr.committed := false
    pwr.st := match s.pwr.st with
      | .enterHold | .hold | .ret | .enterDormant => if s.pwr.resume then PwrSt.slow else .run
      | x => x
    seq.run := .none, seq.steps := [], seq.place := 0 }

theorem goDark_eq {s : State} (light : s.flt.dark = false) : s.goDark = s.darkened.abruptStop.beginRailDown .dark :=
  if_neg (by rw [light]; decide)

theorem goDark_dark_eq {s : State} (dark : s.flt.dark = true) : s.goDark = s := if_pos dark

theorem dark_stays : After.stays .dark := ⟨by decide, by decide, by decide⟩

theorem goDark_stopped (s : State) : s.Stopped s.goDark := by
  cases light : s.flt.dark with
  | true => rw [goDark_dark_eq light]; exact State.Stopped.refl s
  | false =>
    rw [goDark_eq light]
    exact State.Stopped.of_eq (t := s.darkened) rfl rfl rfl rfl rfl rfl rfl
      ((abruptStop_stopped _).moved (beginRailDown_moved _ (.inl dark_stays)))

theorem abruptStop_flt (s : State) : s.abruptStop.flt = s.flt := by rw [abruptStop_eq]
theorem abruptStop_pwr (s : State) : s.abruptStop.pwr = s.pwr := by rw [abruptStop_eq]
theorem abruptStop_seq (s : State) : s.abruptStop.seq = s.seq := by rw [abruptStop_eq]
theorem abruptStop_rtc (s : State) : s.abruptStop.rtc = s.rtc := by rw [abruptStop_eq]
theorem abruptStop_now (s : State) : s.abruptStop.now = s.now := by rw [abruptStop_eq]
theorem abruptStop_tree (s : State) : s.abruptStop.tree = s.tree := by rw [abruptStop_eq]
theorem abruptStop_up (s : State) : s.abruptStop.up = s.up := by rw [abruptStop_eq]
theorem abruptStop_link (s : State) : s.abruptStop.link = s.link := by rw [abruptStop_eq]
theorem abruptStop_acc (s : State) : s.abruptStop.acc = s.acc := by rw [abruptStop_eq]
theorem abruptStop_otp (s : State) : s.abruptStop.otp = s.otp := by rw [abruptStop_eq]
theorem abruptStop_clock (s : State) : s.abruptStop.clock = s.clock := by rw [abruptStop_eq]

theorem abruptStop_anyRail (s : State) : s.abruptStop.anyRail = s.anyRail := by rw [State.anyRail, abruptStop_seq, State.anyRail]

theorem State.Moved.dark {s t : State} (h : s.Moved t) : t.flt.dark = s.flt.dark := by
  show t.flt.core.dark = s.flt.core.dark
  rw [h.flt]

theorem State.Moved.history {s t : State} (h : s.Moved t) : t.flt.history = s.flt.history := by
  show t.flt.core.history = s.flt.core.history
  rw [h.flt]

/-- The reaction goes on, at whatever stage. -/
theorem State.Moved.react {s t : State} (h : s.Moved t) : t.flt.react.map Reacting.core = s.flt.react.map Reacting.core :=
  congrArg FaultState.react h.flt

theorem goDark_dark (s : State) : s.goDark.flt.dark = true := by
  cases light : s.flt.dark with
  | true => rw [goDark_dark_eq light, light]
  | false =>
    rw [goDark_eq light, (beginRailDown_moved _ (.inl dark_stays)).dark, abruptStop_flt]
    rfl

/-- Where an entry to DORMANT is stopped a rail is up. -/
def State.stopsUp (s : State) : Prop := s.anyRail = true ∨ s.pwr.st ≠ .enterDormant

theorem staysUp_stopsUp {s : State} (stays : s.staysUp) : s.stopsUp := stays.imp id And.right

theorem commitHold_moved (s : State) : s.Moved s.commitHold := by
  refine State.Moved.trans ?_ (beginRailDown_moved _ (.inl ⟨by decide, by decide, by decide⟩))
  exact State.Moved.of_eq rfl rfl rfl rfl rfl rfl rfl rfl

/-- The commit of an entry to DORMANT, before its rail-down. -/
def State.dormantCommitted (s : State) : State :=
  { s.copyMatch with pwr.committed := true, pwr.commitAt := s.now, seq.run := .none, seq.steps := [], seq.place := 0 }

theorem commitDormant_railed {s : State} (up : s.anyRail = true) : s.commitDormant = s.dormantCommitted.beginRailDown .dormant :=
  if_pos (Bool.or_eq_true_iff.mpr (.inl up))

theorem commitDormant_moved {s : State} (up : s.anyRail = true) : s.Moved s.commitDormant := by
  rw [commitDormant_railed up]
  have committed : s.Moved s.dormantCommitted := State.Moved.of_eq rfl rfl rfl rfl rfl rfl rfl rfl
  have railed : s.dormantCommitted.anyRail = true := up
  exact committed.trans (beginRailDown_moved _ (.inr (.inl railed)))

/-- A reaction put at a stage. -/
def State.reactingAt (s : State) (r : Reacting) (st : ReactStage) : State := { s with flt.react := some { r with stage := st, at_ := s.now } }

theorem reactStop_eq (s : State) (r : Reacting) : s.reactStop r = match s.pwr.st with
    | .hold => s.reactingAt r .waitReturn
    | .enterHold =>
      if !s.noBoundary then s.reactingAt r .waitReturn
      else if s.beforeFirstUp then s.reactingAt r .toDecision else (s.reactingAt r .waitReturn).commitHold
    | .enterDormant =>
      if !s.noBoundary then s.reactingAt r .waitReturn
      else if s.beforeFirstUp then s.reactingAt r .toDecision else (s.reactingAt r .waitReturn).commitDormant
    | _ =>
      if s.beforeFirstUp ∨ (r.fault = fltShortfall ∧ s.drills.startTest) then s.reactingAt r .toDecision
      else if r.level = .hold ∧ s.scan.scanning then State.reactingAt { s with panel.hlNow := none } r .waitBoundary
      else if s.abruptStop.anyRail ∨ s.abruptStop.seq.railStep ≠ 0 then
        (s.abruptStop.reactingAt r .railDown).beginRailDown .reaction
      else s.abruptStop.reactingAt r .toDecision := rfl

theorem reactingAt_core (s : State) (r : Reacting) (st : ReactStage) :
    (s.reactingAt r st).flt.core = { s.flt with react := some r.core } := rfl

/-- What a reaction's stop leaves: a stop, with the faults' record as it was but for the reaction. -/
structure State.ReactsWith (s : State) (r : Reacting) (t : State) : Prop extends s.Stopped t where
  flt : t.flt.core = { s.flt with react := some r.core }

theorem State.ReactsWith.moved {s t u : State} {r : Reacting} (h : s.ReactsWith r t) (g : t.Moved u) : s.ReactsWith r u :=
  ⟨h.toStopped.moved g, g.flt.trans h.flt⟩

theorem reactingAt_reacts (s : State) (r : Reacting) (st : ReactStage) : s.ReactsWith r (s.reactingAt r st) :=
  ⟨(State.Stopped.refl s).then_eq rfl rfl rfl rfl rfl rfl rfl, rfl⟩

theorem reactStop_reacts {s : State} (r : Reacting) (ups : s.stopsUp) : s.ReactsWith r (s.reactStop r) := by
  have put (st : ReactStage) := reactingAt_reacts s r st
  have stopped (st : ReactStage) : s.ReactsWith r (s.abruptStop.reactingAt r st) :=
    ⟨(abruptStop_stopped s).then_eq rfl rfl rfl rfl rfl rfl rfl, by rw [reactingAt_core, abruptStop_flt]⟩
  rw [reactStop_eq]
  split
  · exact put _
  · split
    · exact put _
    · split
      · exact put _
      · exact (put _).moved (commitHold_moved _)
  · rename_i entering
    split
    · exact put _
    · split
      · exact put _
      · exact (put _).moved (commitDormant_moved (ups.resolve_right (fun h => h entering)))
  · split
    · exact put _
    · split
      · exact ⟨(State.Stopped.refl s).then_eq rfl rfl rfl rfl rfl rfl rfl, rfl⟩
      · split
        · exact (stopped _).moved (beginRailDown_moved _ (.inl ⟨by decide, by decide, by decide⟩))
        · exact stopped _

end Sys2Proof.Machine
end

section
/-! PROOFS. A raised fault: its sticky bit, and what the reaction that follows leaves (R463, R467, R472 to R475). -/

namespace Sys2Proof.Machine

/-! ### The sticky bit (R418, R474) -/

/-- From s to t only the records of a fault's bit change: sticky bits, the first fault, the causes of attention, the bits just set. -/
def State.Marked (s t : State) : Prop :=
  t = { s with
    flt.sticky0 := t.flt.sticky0, flt.sticky1 := t.flt.sticky1, flt.first := t.flt.first, rtc.bak := t.rtc.bak, acc.hwSet := t.acc.hwSet
    pwr.attnHeld := t.pwr.attnHeld, link.attnFault := t.link.attnFault }

theorem State.Marked.refl (s : State) : s.Marked s := rfl

theorem State.Marked.trans {s t u : State} (h : s.Marked t) (g : t.Marked u) : s.Marked u := by
  unfold State.Marked at *
  rw [h] at g
  exact g

theorem attnArises_marked (s : State) (k : Nat) : s.Marked (s.attnArises k) := by
  unfold State.attnArises
  split <;> rfl

theorem stickyWrite_marked (s : State) (n : Nat) (b : Bool) : s.Marked (s.stickyWrite n b) := by
  unfold State.stickyWrite
  split
  · rfl
  · split <;> rfl

theorem hwSet_marked (s : State) (a : Nat) (m : Word) : s.Marked (s.hwSet a m) := rfl

/-- The bit set, before attention and the capture of the first fault. -/
def State.stuck (s : State) (n : Nat) : State := (s.stickyWrite n true).hwSet (stickyReg n) (1#32 <<< (n % 32))

/-- The bit newly set counts for attention. -/
def State.alerted (s : State) (newly : Bool) : State :=
  if newly && s.link.cfg.getLsbD 0 then { (s.attnArises 3).hwSet 0x501 8 with link.attnFault := true } else s

/-- The first fault captured, with its frame. -/
def State.captured (s : State) (n frame : Nat) : State :=
  if s.takesFirst n then { s.hwSet 0x601 0x80000000 with flt.first := some (n, frame) } else s

theorem setSticky_eq (s : State) (n : Nat) : s.setSticky n = ((s.stuck n).alerted (!s.sticky n)).captured n (s.scan.frame.toNat % 65536) := by
  have link : (s.stuck n).link = s.link := State.stickyWrite_link s n true
  unfold State.alerted
  rw [link]
  rfl

theorem alerted_marked (s : State) (newly : Bool) : s.Marked (s.alerted newly) := by
  unfold State.alerted
  split
  · exact ((attnArises_marked s 3).trans (hwSet_marked _ _ _)).trans rfl
  · exact State.Marked.refl s

theorem captured_marked (s : State) (n frame : Nat) : s.Marked (s.captured n frame) := by
  unfold State.captured
  split
  · exact (hwSet_marked s _ _).trans rfl
  · exact State.Marked.refl s

theorem setSticky_marked (s : State) (n : Nat) : s.Marked (s.setSticky n) := by
  rw [setSticky_eq]
  exact (((stickyWrite_marked s n true).trans (hwSet_marked _ _ _)).trans (alerted_marked _ _)).trans (captured_marked _ _ _)

/-! #### The bit reads 1 -/

/-- A bit that a register of sticky bits holds (R418). -/
def stickyNumber (n : Nat) : Prop := n < 64 ∨ 96 ≤ n ∧ n < 101

theorem sticky_low (s : State) {n : Nat} (low : n < 32) : s.sticky n = s.flt.sticky0.getLsbD n := if_pos low

theorem sticky_mid (s : State) {n : Nat} (above : ¬ n < 32) (mid : n < 64) : s.sticky n = s.flt.sticky1.getLsbD (n - 32) :=
  (if_neg above).trans (if_pos mid)

theorem sticky_high (s : State) {n : Nat} (above : ¬ n < 32) (high : ¬ n < 64) : s.sticky n = s.rtc.bak.getLsbD (n - 96) :=
  (if_neg above).trans (if_neg high)

theorem setBit_self {w : Nat} (v : BitVec w) {k : Nat} (small : k < w) : (setBit v k true).getLsbD k = true := by
  rw [setBit_getLsbD _ _ _ _ small, if_pos rfl]

/-- Setting a bit clears none. -/
theorem setBit_true_keeps {w : Nat} (v : BitVec w) (i : Nat) {j : Nat} (up : v.getLsbD j = true) : (setBit v i true).getLsbD j = true := by
  show (v ||| BitVec.ofNat w (2 ^ i)).getLsbD j = true
  rw [BitVec.getLsbD_or, up, Bool.true_or]

theorem stickyWrite_sticky (s : State) {n : Nat} (number : stickyNumber n) : (s.stickyWrite n true).sticky n = true := by
  unfold stickyNumber at number
  by_cases low : n < 32
  · rw [State.stickyWrite, if_pos low, sticky_low _ low]
    exact setBit_self _ low
  · by_cases mid : n < 64
    · rw [State.stickyWrite, if_neg low, if_pos mid, sticky_mid _ low mid]
      exact setBit_self _ (by omega)
    · rw [State.stickyWrite, if_neg low, if_neg mid, sticky_high _ low mid]
      exact setBit_self _ (by omega)

/-- The words of sticky bits only gain. -/
theorem stickyWrite_words (s : State) (m : Nat) (i : Nat) :
    (s.flt.sticky0.getLsbD i = true → (s.stickyWrite m true).flt.sticky0.getLsbD i = true)
    ∧ (s.flt.sticky1.getLsbD i = true → (s.stickyWrite m true).flt.sticky1.getLsbD i = true)
    ∧ (s.rtc.bak.getLsbD i = true → (s.stickyWrite m true).rtc.bak.getLsbD i = true) := by
  unfold State.stickyWrite
  split
  · exact ⟨setBit_true_keeps _ m, id, id⟩
  · split
    · exact ⟨id, setBit_true_keeps _ _, id⟩
    · exact ⟨id, id, setBit_true_keeps _ _⟩

theorem attnArises_sticky (s : State) (k n : Nat) : (s.attnArises k).sticky n = s.sticky n := by
  unfold State.attnArises
  split <;> rfl

theorem alerted_sticky (s : State) (newly : Bool) (n : Nat) : (s.alerted newly).sticky n = s.sticky n := by
  unfold State.alerted
  split
  · exact attnArises_sticky s 3 n
  · rfl

theorem captured_sticky (s : State) (m frame n : Nat) : (s.captured m frame).sticky n = s.sticky n := by
  unfold State.captured
  split <;> rfl

theorem setSticky_sticky (s : State) {n : Nat} (number : stickyNumber n) : (s.setSticky n).sticky n = true := by
  rw [setSticky_eq, captured_sticky, alerted_sticky]
  exact stickyWrite_sticky s number

/-- A bit that reads 1 stays. -/
theorem setSticky_sticky_mono (s : State) (m : Nat) {n : Nat} (set : s.sticky n = true) : (s.setSticky m).sticky n = true := by
  rw [setSticky_eq, captured_sticky, alerted_sticky]
  show (s.stickyWrite m true).sticky n = true
  by_cases low : n < 32
  · rw [sticky_low _ low] at set ⊢
    exact (stickyWrite_words s m n).1 set
  · by_cases mid : n < 64
    · rw [sticky_mid _ low mid] at set ⊢
      exact (stickyWrite_words s m (n - 32)).2.1 set
    · rw [sticky_high _ low mid] at set ⊢
      exact (stickyWrite_words s m (n - 96)).2.2 set

/-! ### What a marked state keeps -/

section
variable {s t : State} (h : s.Marked t)
include h

theorem State.Marked.now : t.now = s.now := by rw [h]
theorem State.Marked.mem : t.mem = s.mem := by rw [h]
theorem State.Marked.seq : t.seq = s.seq := by rw [h]
theorem State.Marked.tree : t.tree = s.tree := by rw [h]
theorem State.Marked.strap : t.strap = s.strap := by rw [h]
theorem State.Marked.panel : t.panel = s.panel := by rw [h]
theorem State.Marked.scan : t.scan = s.scan := by rw [h]
theorem State.Marked.otp : t.otp = s.otp := by rw [h]
theorem State.Marked.clock : t.clock = s.clock := by rw [h]
theorem State.Marked.up : t.up = s.up := by rw [h]
theorem State.Marked.pwrKept : s.pwrKept t := by rw [State.pwrKept, h]
theorem State.Marked.st : t.pwr.st = s.pwr.st := by rw [h]
theorem State.Marked.react : t.flt.react = s.flt.react := by rw [h]
theorem State.Marked.dark : t.flt.dark = s.flt.dark := by rw [h]
theorem State.Marked.deliveryAt : t.rtc.deliveryAt = s.rtc.deliveryAt := by rw [h]
theorem State.Marked.version : t.link.version = s.link.version := by rw [h]

theorem State.Marked.memKept {u : State} (kept : t.memKept u) : s.memKept u := memKept_of_mem h.mem h.strap kept

theorem State.Marked.staysUp (stays : s.staysUp) : t.staysUp := by
  unfold State.staysUp at *
  rw [State.anyRail, h.seq, h.deliveryAt, h.st]
  exact stays

end

/-! ### The reaction (R463, R472, R475) -/

/-- A record of the faults alone does not matter to a stop. -/
theorem State.Stopped.with_flt {s u : State} {f : FaultState} (zero : f.sticky0 = s.flt.sticky0) (one : f.sticky1 = s.flt.sticky1)
    (g : ({ s with flt := f } : State).Stopped u) : s.Stopped u := by
  refine State.Stopped.of_eq (t := { s with flt := f }) rfl ?_ rfl rfl rfl rfl rfl g
  unfold State.untouched
  dsimp only
  rw [zero, one]

theorem State.Stopped.flt_after {s : State} {f : FaultState} (zero : f.sticky0 = s.flt.sticky0) (one : f.sticky1 = s.flt.sticky1) :
    s.Stopped { s with flt := f } := State.Stopped.with_flt zero one (State.Stopped.refl _)

theorem beginReaction_stopped {s : State} (level : Reaction) (n : Nat) (also : List Nat) (ups : s.stopsUp) :
    s.Stopped (s.beginReaction level n also) := by
  unfold State.beginReaction
  split
  · exact goDark_stopped s
  · refine State.Stopped.with_flt (f := { s.flt with history := (s.now :: s.flt.history).take 3 }) rfl rfl ?_
    exact (reactStop_reacts (s := { s with flt.history := (s.now :: s.flt.history).take 3 }) _ ups).toStopped

theorem duringReaction_stopped {s : State} (r : Reacting) (level : Reaction) (n : Nat) (ups : s.stopsUp) :
    s.Stopped (s.duringReaction r level n) := by
  unfold State.duringReaction
  dsimp only
  split
  · exact beginReaction_stopped level n [] ups
  · split
    · split
      · exact (reactStop_reacts _ ups).toStopped
      · exact State.Stopped.flt_after rfl rfl
    · exact State.Stopped.flt_after rfl rfl

/-- The reaction that a final delivery's fault leaves in force (R475). -/
def State.deliveryReaction (s : State) (level : Reaction) (n : Nat) : Reacting :=
  match s.flt.react with
  | some r => if r.level = .hold then { r with level := level, fault := n } else r
  | none => { level := level, fault := n, stage := .waitReturn, at_ := s.now, repair := false, later := [], waits := [] }

theorem reactDelivery_eq (s : State) (level : Reaction) (n : Nat) : s.reactDelivery level n =
    let s1 := { s with flt.react := some (s.deliveryReaction level n) }
    if s.rtc.deliveryDone then s1 else State.beginRailDown { s1.abruptStop with rtc.deliveryDone := true } .delivery := rfl

theorem reactDelivery_stopped {s : State} (level : Reaction) (n : Nat) (up : s.anyRail = true) :
    s.Stopped (s.reactDelivery level n) := by
  rw [reactDelivery_eq]
  dsimp only
  generalize s.deliveryReaction level n = r
  have put : s.Stopped { s with flt.react := some r } := State.Stopped.flt_after rfl rfl
  split
  · exact put
  · have railed : State.anyRail { s with flt.react := some r } = true := up
    refine State.Stopped.with_flt (f := { s.flt with react := some r }) rfl rfl ?_
    generalize ({ s with flt.react := some r } : State) = u at railed
    have ended : u.Stopped { u.abruptStop with rtc.deliveryDone := true } :=
      (abruptStop_stopped u).then_eq rfl rfl rfl rfl rfl rfl rfl
    have still : State.anyRail { u.abruptStop with rtc.deliveryDone := true } = true := (abruptStop_anyRail u).trans railed
    exact ended.moved (beginRailDown_moved _ (.inr (.inl still)))

theorem react_stopped {s : State} (level : Reaction) (n : Nat) (stays : s.staysUp) : s.Stopped (s.react level n) := by
  have dormant := staysUp_stopsUp stays
  have higher : s.Stopped (if s.rtc.deliveryAt.isSome then s.reactDelivery level n
      else match s.flt.react with
        | some r => s.duringReaction r level n
        | none => s.beginReaction level n []) := by
    split
    · rename_i delivers
      refine reactDelivery_stopped level n (stays.resolve_right fun h => ?_)
      rw [h.1] at delivers
      cases delivers
    · split
      · exact duringReaction_stopped _ level n dormant
      · exact beginReaction_stopped level n [] dormant
  unfold State.react
  split
  · exact State.Stopped.refl s
  · cases level with
    | note => exact State.Stopped.refl s
    | ease => exact State.Stopped.refl s
    | dark => exact goDark_stopped s
    | hold => exact higher
    | safe => exact higher

/-! ### A fault raised -/

/-- A fault's bit is marked, and its reaction stops what it stops. -/
def State.Faulted (s t : State) : Prop := ∃ u, s.Marked u ∧ u.Stopped t

theorem State.Marked.faulted {s t : State} (h : s.Marked t) : s.Faulted t := ⟨t, h, State.Stopped.refl t⟩

theorem raiseAs_of_recording {s : State} {n : Nat} (level : Reaction) (records : n < 96 → s.recording = true) :
    s.raiseAs n level = (s.setSticky n).react level n := by
  refine if_neg fun h => ?_
  rw [records h.1] at h
  exact absurd h.2 (by decide)

theorem raiseAs_silent {s : State} {n : Nat} (level : Reaction) (low : n < 96) (silent : s.recording = false) : s.raiseAs n level = s :=
  if_pos ⟨low, by rw [silent]; rfl⟩

theorem raiseAs_faulted {s : State} (n : Nat) (level : Reaction) (stays : s.staysUp) : s.Faulted (s.raiseAs n level) := by
  by_cases quiet : n < 96 ∧ s.recording = false
  · rw [raiseAs_silent level quiet.1 quiet.2]
    exact (State.Marked.refl s).faulted
  · rw [raiseAs_of_recording level fun low => by simpa using fun h => quiet ⟨low, h⟩]
    have marked := setSticky_marked s n
    exact ⟨_, marked, react_stopped level n (marked.staysUp stays)⟩

theorem raiseAs_sticky {s : State} {n : Nat} (level : Reaction) (number : stickyNumber n) (records : n < 96 → s.recording = true)
    (stays : s.staysUp) : (s.raiseAs n level).sticky n = true := by
  rw [raiseAs_of_recording level records, (react_stopped level n ((setSticky_marked s n).staysUp stays)).toSteered.sticky]
  exact setSticky_sticky s number

theorem raise_faulted {s : State} (n : Nat) (stays : s.staysUp) : s.Faulted (s.raise n) := raiseAs_faulted n _ stays

theorem raise_sticky {s : State} {n : Nat} (number : stickyNumber n) (records : n < 96 → s.recording = true) (stays : s.staysUp) :
    (s.raise n).sticky n = true := raiseAs_sticky _ number records stays

/-- A fault without a stop is a mark. -/
theorem raise_mild {s : State} {n : Nat} (mild : faultReaction n = .note ∨ faultReaction n = .ease)
    (records : n < 96 → s.recording = true) : s.raise n = s.setSticky n := by
  have still (t : State) : t.react (faultReaction n) n = t := by
    unfold State.react
    rcases mild with h | h
    all_goals
      rw [h]
      exact ite_self t
  exact (raiseAs_of_recording _ records).trans (still _)

theorem raise_mild_marked {s : State} {n : Nat} (mild : faultReaction n = .note ∨ faultReaction n = .ease) : s.Marked (s.raise n) := by
  by_cases quiet : n < 96 ∧ s.recording = false
  · rw [State.raise, raiseAs_silent _ quiet.1 quiet.2]
    exact State.Marked.refl s
  · rw [raise_mild mild fun low => by simpa using fun h => quiet ⟨low, h⟩]
    exact setSticky_marked s n

theorem raise_mild_sticky {s : State} {n : Nat} (mild : faultReaction n = .note ∨ faultReaction n = .ease) (number : stickyNumber n)
    (records : n < 96 → s.recording = true) : (s.raise n).sticky n = true := by
  rw [raise_mild mild records]
  exact setSticky_sticky s number

section
variable {s t : State} (h : s.Faulted t)
include h

theorem State.Faulted.now : t.now = s.now := by
  obtain ⟨u, marked, stopped⟩ := h
  exact stopped.toSteered.now.trans marked.now

theorem State.Faulted.memKept : s.memKept t := by
  obtain ⟨u, marked, stopped⟩ := h
  exact marked.memKept stopped.mem

theorem State.Faulted.first : t.seq.first = s.seq.first := by
  obtain ⟨u, marked, stopped⟩ := h
  exact stopped.toSteered.first.trans (by rw [marked.seq])

theorem State.Faulted.goaSeen : t.panel.goaSeen = s.panel.goaSeen := by
  obtain ⟨u, marked, stopped⟩ := h
  exact stopped.toSteered.goaSeen.trans (by rw [marked.panel])

theorem State.Faulted.goaLine : t.panel.goaLine = s.panel.goaLine := by
  obtain ⟨u, marked, stopped⟩ := h
  exact stopped.toSteered.goaLine.trans (by rw [marked.panel])

theorem State.Faulted.vinOv : t.tree.vinOv = s.tree.vinOv := by
  obtain ⟨u, marked, stopped⟩ := h
  exact stopped.toSteered.vinOv.trans (by rw [marked.tree])

theorem State.Faulted.otp : t.otp = s.otp := by
  obtain ⟨u, marked, stopped⟩ := h
  exact stopped.toSteered.otp.trans marked.otp

theorem State.Faulted.ovl {n : Nat} (small : n < 8) : (vget t.panel.vcom n).ovl = (vget s.panel.vcom n).ovl := by
  obtain ⟨u, marked, stopped⟩ := h
  rw [stopped.toSteered.channels n small, marked.panel]

theorem State.Faulted.shown {k : Nat} (small : k < 8) (up : t.enabled k = true) : s.enabled k = true
    ∧ t.seq.uv.getLsbD k = s.seq.uv.getLsbD k ∧ t.seq.ov.getLsbD k = s.seq.ov.getLsbD k
    ∧ t.seq.oc.getLsbD k = s.seq.oc.getLsbD k := by
  obtain ⟨u, marked, stopped⟩ := h
  have shown := stopped.toSteered.shown k small up
  rw [State.enabled, marked.seq] at shown
  exact shown

end

end Sys2Proof.Machine
end

section
/-! PROOFS. What a rail-down leaves of the device where its end takes the power states nowhere (R329 to R331, R342, R463). -/

namespace Sys2Proof.Machine

/-- From s to t only the sequencer, the panel, the power tree and the plots' record change; a takeover stays one. -/
structure State.Lowered (s t : State) : Prop where
  frame : t = { s with seq := t.seq, panel := t.panel, tree := t.tree, therm := t.therm }
  hedge : t.seq.hedge = s.seq.hedge
  cause : t.seq.hedgeCause = s.seq.hedgeCause
  phase : s.seq.hedge = true → t.seq.phase = s.seq.phase

theorem State.Lowered.refl (s : State) : s.Lowered s := ⟨rfl, rfl, rfl, fun _ => rfl⟩

theorem State.Lowered.trans {s t u : State} (h : s.Lowered t) (g : t.Lowered u) : s.Lowered u where
  frame := by
    have first := h.frame
    have second := g.frame
    rw [first] at second
    exact second
  hedge := g.hedge.trans h.hedge
  cause := g.cause.trans h.cause
  phase taken := (g.phase (h.hedge.trans taken)).trans (h.phase taken)

theorem showPhase_lowered (s : State) (p : SeqPhase) : s.Lowered (s.showPhase p) := by
  unfold State.showPhase
  split
  · exact State.Lowered.refl s
  · rename_i idle
    exact ⟨rfl, rfl, rfl, fun taken => absurd (Or.inl taken) idle⟩

theorem setEnable_lowered (s : State) (k : Nat) (b : Bool) : s.Lowered (s.setEnable k b) := ⟨rfl, rfl, rfl, fun _ => rfl⟩
theorem vcomRampDown_lowered (s : State) (e : Nat) : s.Lowered (s.vcomRampDown e) := ⟨rfl, rfl, rfl, fun _ => rfl⟩
theorem vcomFloat_lowered (s : State) : s.Lowered s.vcomFloat := ⟨rfl, rfl, rfl, fun _ => rfl⟩
theorem startDrop_lowered (s : State) (k : Nat) : s.Lowered (s.startDrop k) := ⟨rfl, rfl, rfl, fun _ => rfl⟩
theorem lightsOff_lowered (s : State) : s.Lowered s.lightsOff := ⟨rfl, rfl, rfl, fun _ => rfl⟩
theorem dropAux_lowered (s : State) (n e : Nat) : s.Lowered (s.dropAux n e) := ⟨rfl, rfl, rfl, fun _ => rfl⟩
theorem dropLsw_lowered (s : State) (n : Nat) : s.Lowered (s.dropLsw n) := ⟨rfl, rfl, rfl, fun _ => rfl⟩

theorem dropStep_lowered (s : State) (k : Nat) : s.Lowered (s.dropStep k) := by
  unfold State.dropStep
  split
  · exact ⟨rfl, rfl, rfl, fun _ => rfl⟩
  · exact startDrop_lowered s k

theorem dropItems_lowered (s : State) (keep : Bool) (e : Nat) : s.Lowered (s.dropItems keep e) := by
  unfold State.dropItems
  refine foldl_related State.Lowered State.Lowered.refl (fun h g => h.trans g) _ (fun t n => ?_) _ s
  split
  · exact State.Lowered.refl t
  · exact (dropLsw_lowered t n).trans (dropAux_lowered _ n e)

theorem darkTail_lowered (s : State) : s.Lowered s.darkTail :=
  ((lightsOff_lowered s).trans (dropItems_lowered _ _ _)).trans ⟨rfl, rfl, rfl, fun _ => rfl⟩

theorem hedgeTail_lowered (s : State) : s.Lowered s.hedgeTail := ⟨rfl, rfl, rfl, fun _ => rfl⟩

theorem hedgeAtOnce_lowered (s : State) : s.Lowered s.hedgeAtOnce :=
  ((lightsOff_lowered s).trans (dropItems_lowered _ _ _)).trans ⟨rfl, rfl, rfl, fun _ => rfl⟩

theorem railsDown_lowered (s : State) (ran : Bool) : s.Lowered (s.railsDown ran) := by
  unfold State.railsDown
  refine ((vcomFloat_lowered s).trans ?_).trans (showPhase_lowered _ _)
  exact ⟨rfl, rfl, rfl, fun _ => rfl⟩

theorem nextDown_lowered (s : State) (k : Nat) : s.Lowered (s.nextDown k).1 := by
  cases next : s.dropAfter k with
  | none => rw [nextDown_none next]; exact ⟨rfl, rfl, rfl, fun _ => rfl⟩
  | some j =>
    by_cases first : j = 1
    · rw [first] at next
      rw [nextDown_vcom next]
      exact ((setEnable_lowered s 8 false).trans (vcomRampDown_lowered _ _)).trans ⟨rfl, rfl, rfl, fun _ => rfl⟩
    · rw [nextDown_rail next first]
      exact dropStep_lowered s j

/-- A purpose whose end leaves the power states, reactions and the backup domain alone. -/
def After.plain (a : After) : Prop := a = .nothing ∨ a = .dark ∨ a = .hedge

theorem railDownEnd_lowered {s : State} (ran : Bool) (plain : s.seq.after.plain) : s.Lowered (s.railDownEnd ran) := by
  have down := railsDown_lowered s ran
  rw [railDownEnd_eq]
  rcases plain with h | h | h
  · rw [h]; exact down
  · rw [h]; exact down.trans (darkTail_lowered _)
  · rw [h]; exact down.trans (hedgeTail_lowered _)

theorem downFrom_lowered {s : State} {k : Nat} (plain : s.seq.after.plain ∨ (s.dropAfter k).isSome) : s.Lowered (s.downFrom k) := by
  cases next : s.dropAfter k with
  | some j =>
    rw [downFrom_some next]
    exact nextDown_lowered s k
  | none =>
    rw [downFrom_none next]
    have idle : s.Lowered { s with seq.railStep := 0, seq.vglHold := false } := ⟨rfl, rfl, rfl, fun _ => rfl⟩
    refine idle.trans (railDownEnd_lowered _ (plain.resolve_right ?_))
    rw [next]
    decide

theorem downBegun_lowered (s : State) (a : After) : s.Lowered (s.downBegun a) :=
  (showPhase_lowered s _).trans ⟨rfl, rfl, rfl, fun _ => rfl⟩

theorem beginRailDown_lowered {s : State} (a : After) (plain : a.plain ∨ s.hasDown) : s.Lowered (s.beginRailDown a) := by
  by_cases going : s.seq.railStep ≠ 0 ∧ ¬ s.seq.rising
  · rw [beginRailDown_going a going]
    exact ⟨rfl, rfl, rfl, fun _ => rfl⟩
  · rw [beginRailDown_begun a going]
    refine (downBegun_lowered s a).trans (downFrom_lowered ?_)
    rcases plain with plain | up | down
    · exact .inl plain
    · obtain ⟨j, next⟩ := downBegun_next a up
      exact .inr (by rw [next]; rfl)
    · exact absurd down going

/-! ### What a lowered state keeps -/

section
variable {s t : State} (h : s.Lowered t)
include h

theorem State.Lowered.now : t.now = s.now := by rw [h.frame]
theorem State.Lowered.mem : t.mem = s.mem := by rw [h.frame]
theorem State.Lowered.scan : t.scan = s.scan := by rw [h.frame]
theorem State.Lowered.pwr : t.pwr = s.pwr := by rw [h.frame]
theorem State.Lowered.flt : t.flt = s.flt := by rw [h.frame]
theorem State.Lowered.acc : t.acc = s.acc := by rw [h.frame]
theorem State.Lowered.rtc : t.rtc = s.rtc := by rw [h.frame]
theorem State.Lowered.up : t.up = s.up := by rw [h.frame]
theorem State.Lowered.link : t.link = s.link := by rw [h.frame]
theorem State.Lowered.otp : t.otp = s.otp := by rw [h.frame]
theorem State.Lowered.clock : t.clock = s.clock := by rw [h.frame]
theorem State.Lowered.strap : t.strap = s.strap := by rw [h.frame]

end

/-! ### A rail-down that finds nothing to do -/

theorem dropAfter_none {s : State} (k : Nat) (down : s.anyRail = false) : s.dropAfter k = none := by
  have none_ (j : Nat) : s.enabled j = false := by
    have zero : s.seq.acted = 0 := by simpa [State.anyRail] using down
    rw [State.enabled, zero]
    exact BitVec.getLsbD_zero
  simp [State.dropAfter, none_]

/-- With nothing raised a rail-down ends at once. -/
theorem beginRailDown_ends {s : State} (a : After) (down : s.anyRail = false) (idle : s.seq.railStep = 0) :
    s.beginRailDown a = State.railDownEnd { s.downBegun a with seq.railStep := 0, seq.vglHold := false } false := by
  rw [beginRailDown_begun a (fun h => h.1 idle)]
  refine downFrom_none (dropAfter_none 0 ?_)
  rw [State.anyRail, State.downBegun, showPhase_seq]
  exact down

theorem railDownEnd_dark {s : State} (ran : Bool) (dark : s.seq.after = .dark) : (s.railDownEnd ran).seq.run = .hedgeDrop := by
  rw [railDownEnd_eq, dark]
  rfl

end Sys2Proof.Machine
end

section
/-! PROOFS. The supervisors and the overloads (R116, R122, R338 to R340): what a detector records and the fault it raises. -/

namespace Sys2Proof.Machine

/-! ### A supervisor's event -/

/-- The record of a supervisor's event: the first one captured, its bit fresh; the memories and the rails stay. -/
structure State.Noted (s t : State) (source kind : Nat) : Prop where
  now : t.now = s.now
  recording : t.recording = s.recording
  memory : t.mem = s.mem ∧ t.strap = s.strap
  stays : s.staysUp → t.staysUp
  acted : t.seq.acted = s.seq.acted
  first : s.seq.first = none → t.seq.first = some { source := source, kind := kind, frame := s.scan.frame.toNat % 65536 }

/-- The capture alone. -/
def State.firstTaken (s : State) (source kind : Nat) : State :=
  { s.hwSet 0xE03 0x80000000 with seq.first := some { source := source, kind := kind, frame := s.scan.frame.toNat % 65536 } }

theorem supFirst_none {s : State} (source kind : Nat) (none_ : s.seq.first = none) : s.supFirst source kind = s.firstTaken source kind := by
  rw [State.supFirst, none_]
  rfl

theorem supFirst_some {s : State} (source kind : Nat) {x : SupEvent} (seen : s.seq.first = some x) : s.supFirst source kind = s := by
  rw [State.supFirst, seen]

theorem supFirst_noted (s : State) (source kind : Nat) : s.Noted (s.supFirst source kind) source kind := by
  cases seen : s.seq.first with
  | none =>
    rw [supFirst_none source kind seen]
    exact ⟨rfl, rfl, ⟨rfl, rfl⟩, id, rfl, fun _ => rfl⟩
  | some x =>
    rw [supFirst_some source kind seen]
    exact ⟨rfl, rfl, ⟨rfl, rfl⟩, id, rfl, fun h => absurd (seen.symm.trans h) (by simp)⟩

theorem supFirst_bits (s : State) (source kind : Nat) : (s.supFirst source kind).seq.uv = s.seq.uv
    ∧ (s.supFirst source kind).seq.ov = s.seq.ov ∧ (s.supFirst source kind).seq.oc = s.seq.oc := by
  unfold State.supFirst
  split <;> exact ⟨rfl, rfl, rfl⟩

/-- What a detector of a panel rail leaves (R338). -/
def State.seenBy (s : State) (k kind flt : Nat) (t : State) : Prop :=
  t.now = s.now ∧ (s.recording = true → t.sticky flt = true) ∧ s.memKept t
    ∧ (s.seq.first = none → t.seq.first = some { source := k, kind := kind, frame := s.scan.frame.toNat % 65536 })

theorem raised_seenBy {s u : State} {k kind flt : Nat} (noted : s.Noted u k kind) (number : flt < 64) (stays : s.staysUp) :
    s.seenBy k kind flt (u.raise flt) := by
  have faulted := raiseAs_faulted flt (faultReaction flt) (noted.stays stays)
  refine ⟨faulted.now.trans noted.now, fun records => ?_, memKept_of_mem noted.memory.1 noted.memory.2 faulted.memKept,
    fun none_ => faulted.first.trans (noted.first none_)⟩
  exact raiseAs_sticky _ (.inl number) (fun _ => noted.recording.trans records) (noted.stays stays)

/-- The supervisors' bits that `SUP_STAT` shows (R346). -/
def State.showing (s : State) (uv ov oc : BitVec 8) : State := { s with seq.uv := uv, seq.ov := ov, seq.oc := oc }

theorem supFirst_showing (s : State) (uv ov oc : BitVec 8) (source kind : Nat) :
    s.Noted ((s.showing uv ov oc).supFirst source kind) source kind := by
  have noted := supFirst_noted (s.showing uv ov oc) source kind
  exact ⟨noted.now, noted.recording, noted.memory, noted.stays, noted.acted, noted.first⟩

/-! ### The panel rails (R338, R340) -/

/-- A detector shows its bit, notes its event and raises its fault: what follows keeps the bits of a rail that stays up. -/
theorem shown_raised {s : State} {k : Fin 8} (uv ov oc : BitVec 8) (kind : Nat) {flt : Nat} (number : flt < 64) (stays : s.staysUp) :
    s.seenBy k.val kind flt (((s.showing uv ov oc).supFirst k.val kind).raise flt)
    ∧ ((((s.showing uv ov oc).supFirst k.val kind).raise flt).enabled k.val = true →
      (((s.showing uv ov oc).supFirst k.val kind).raise flt).seq.uv.getLsbD k.val = uv.getLsbD k.val
      ∧ (((s.showing uv ov oc).supFirst k.val kind).raise flt).seq.ov.getLsbD k.val = ov.getLsbD k.val
      ∧ (((s.showing uv ov oc).supFirst k.val kind).raise flt).seq.oc.getLsbD k.val = oc.getLsbD k.val) := by
  have noted := supFirst_showing s uv ov oc k.val kind
  obtain ⟨low, high, current⟩ := supFirst_bits (s.showing uv ov oc) k.val kind
  refine ⟨raised_seenBy noted number stays, fun up => ?_⟩
  obtain ⟨-, uv', ov', oc'⟩ := (raise_faulted flt (noted.stays stays)).shown k.isLt up
  rw [low] at uv'
  rw [high] at ov'
  rw [current] at oc'
  exact ⟨uv', ov', oc'⟩

section
variable {s : State} (k : Fin 8) (stays : s.staysUp)
include stays

theorem railUv_armed (good : s.tree.pg.getLsbD k.val = true) (blanked : vget s.seq.blankTo k.val ≤ s.now) :
    s.seenBy k.val 0 fltRailUv (s.railUvFired k.val true)
      ∧ ((s.railUvFired k.val true).enabled k.val = true → (s.railUvFired k.val true).seq.uv.getLsbD k.val = true) := by
  have fired : s.railUvFired k.val true = ((s.showing (setBit s.seq.uv k true) s.seq.ov s.seq.oc).supFirst k.val 0).raise fltRailUv :=
    (if_neg (by decide)).trans (if_pos ⟨good, blanked⟩)
  obtain ⟨seen, bits⟩ := shown_raised (k := k) (setBit s.seq.uv k true) s.seq.ov s.seq.oc 0 (flt := fltRailUv) (by decide) stays
  rw [fired]
  exact ⟨seen, fun up => (bits up).1.trans (setBit_self _ k.isLt)⟩

theorem railOv_armed (on : s.enabled k.val = true) (blanked : vget s.seq.blankOv k.val ≤ s.now) :
    s.seenBy k.val 1 fltRailOv (s.railOvFired k.val true)
      ∧ ((s.railOvFired k.val true).enabled k.val = true → (s.railOvFired k.val true).seq.ov.getLsbD k.val = true) := by
  have fired : s.railOvFired k.val true = ((s.showing s.seq.uv (setBit s.seq.ov k true) s.seq.oc).supFirst k.val 1).raise fltRailOv :=
    (if_neg (by decide)).trans (if_pos ⟨on, blanked⟩)
  obtain ⟨seen, bits⟩ := shown_raised (k := k) s.seq.uv (setBit s.seq.ov k true) s.seq.oc 1 (flt := fltRailOv) (by decide) stays
  rw [fired]
  exact ⟨seen, fun up => (bits up).2.1.trans (setBit_self _ k.isLt)⟩

theorem railOc_armed (on : s.enabled k.val = true) :
    s.seenBy k.val 2 fltRailOc (s.railOcFired k.val true)
      ∧ ((s.railOcFired k.val true).enabled k.val = true → (s.railOcFired k.val true).seq.oc.getLsbD k.val = true) := by
  have fired : s.railOcFired k.val true = ((s.showing s.seq.uv s.seq.ov (setBit s.seq.oc k true)).supFirst k.val 2).raise fltRailOc :=
    (if_neg (by decide)).trans (if_pos on)
  obtain ⟨seen, bits⟩ := shown_raised (k := k) s.seq.uv s.seq.ov (setBit s.seq.oc k true) 2 (flt := fltRailOc) (by decide) stays
  rw [fired]
  exact ⟨seen, fun up => (bits up).2.2.trans (setBit_self _ k.isLt)⟩

end

theorem railUv_unarmed {s : State} (k : Nat) (off : s.tree.pg.getLsbD k = false ∨ s.now < vget s.seq.blankTo k) :
    s.railUvFired k true = s := by
  refine (if_neg (by decide)).trans (if_neg fun armed => ?_)
  rcases off with low | blank
  · rw [low] at armed; exact absurd armed.1 (by decide)
  · omega

theorem railOv_unarmed {s : State} (k : Nat) (off : s.enabled k = false ∨ s.now < vget s.seq.blankOv k) :
    s.railOvFired k true = s := by
  refine (if_neg (by decide)).trans (if_neg fun armed => ?_)
  rcases off with low | blank
  · rw [low] at armed; exact absurd armed.1 (by decide)
  · omega

theorem railOc_unarmed {s : State} (k : Nat) (off : s.enabled k = false) : s.railOcFired k true = s :=
  (if_neg (by decide)).trans (if_neg (by rw [off]; decide))

/-! ### The internal rails: DARK (R338, R463) -/

/-- What DARK brings, where nothing has the device already. -/
structure State.DarkBegun (s t : State) : Prop where
  dark : t.flt.dark = true
  quiet : t.flt.react = none
  scan : t.scan.scanning = false
  falls : s.anyRail = true → t.seq.after = .dark ∧ t.seq.rising = false
  drops : s.anyRail = false → s.seq.railStep = 0 → t.seq.run = .hedgeDrop

theorem goDark_begun {s : State} (light : s.flt.dark = false) : s.DarkBegun s.goDark := by
  have seq : s.darkened.abruptStop.seq = s.darkened.seq := abruptStop_seq _
  have flt : s.darkened.abruptStop.flt = s.darkened.flt := abruptStop_flt _
  have scan := congrArg ScanState.scanning (abruptStop_scan s.darkened)
  rw [goDark_eq light]
  generalize s.darkened.abruptStop = u at seq flt scan
  have lowered := beginRailDown_lowered (s := u) .dark (.inl (.inr (.inl rfl)))
  refine ⟨?_, ?_, ?_, fun up => ?_, fun down idle => ?_⟩
  · rw [lowered.flt, flt]; rfl
  · rw [lowered.flt, flt]; rfl
  · rw [lowered.scan]; exact scan
  · obtain ⟨after, rising, -⟩ := beginRailDown_goes_down (s := u) .dark (.inl (by rw [State.anyRail, seq]; exact up))
    exact ⟨after, rising⟩
  · rw [beginRailDown_ends .dark (by rw [State.anyRail, seq]; exact down) (by rw [seq]; exact idle)]
    exact railDownEnd_dark _ rfl

/-- An internal rail's undervoltage as it is noted. -/
theorem intUv_noted (s : State) (r : IntRail) :
    s.Noted (State.supFirst { s with flt.intUv := true } (intRailSource r) 0) (intRailSource r) 0 := by
  have noted := supFirst_noted { s with flt.intUv := true } (intRailSource r) 0
  exact ⟨noted.now, noted.recording, noted.memory, noted.stays, noted.acted, noted.first⟩

theorem recording_of_complete {s : State} (complete : s.up.stage = .complete) : s.recording = true := by
  rw [State.recording, complete]
  rfl

theorem e0Runs_of_complete {s : State} (complete : s.up.stage = .complete) : s.e0Runs = true := by
  rw [State.e0Runs, complete]
  rfl

/-- A capture changes nothing but the first event and its fresh bit. -/
theorem supFirst_frame (s : State) (source kind : Nat) : s.supFirst source kind =
    { s with seq.first := (s.supFirst source kind).seq.first, acc.hwSet := (s.supFirst source kind).acc.hwSet } := by
  unfold State.supFirst
  split <;> rfl

/-- DARK's fault: its bit, then DARK unless something has the device already. -/
theorem raise_intUv {s : State} (records : s.recording = true) (runs : s.e0Runs = true) : s.raise fltIntUv =
    if s.seq.hedge || s.flt.dark || s.resetOrder then s.setSticky fltIntUv else (s.setSticky fltIntUv).goDark := by
  have marked := setSticky_marked s fltIntUv
  rw [State.raise, raiseAs_of_recording _ fun _ => records]
  generalize s.setSticky fltIntUv = u at marked ⊢
  have order : u.resetOrder = s.resetOrder := by rw [State.resetOrder, marked.seq, State.resetOrder]
  have run : u.e0Runs = true := by rw [State.e0Runs, marked.up]; exact runs
  unfold State.react
  rw [run, marked.seq, marked.dark, order]
  rfl

/-- An internal rail's undervoltage after start-up: noted, its bit set, the memories kept. -/
theorem intUv_seen {s : State} (r : IntRail) (complete : s.up.stage = .complete) :
    (s.intUvFired r).sticky fltIntUv = true ∧ (s.intUvFired r).now = s.now ∧ s.memKept (s.intUvFired r)
      ∧ (s.seq.first = none → (s.intUvFired r).seq.first
          = some { source := intRailSource r, kind := 0, frame := s.scan.frame.toNat % 65536 })
      ∧ if s.flt.dark = true ∨ s.seq.hedge = true ∨ s.resetOrder = true then
          (s.intUvFired r).scan = s.scan ∧ s.pwrKept (s.intUvFired r) ∧ (s.intUvFired r).mem = s.mem ∧ (s.intUvFired r).tree = s.tree
        else s.DarkBegun (s.intUvFired r) := by
  have noted := intUv_noted s r
  have frame := supFirst_frame { s with flt.intUv := true } (intRailSource r) 0
  rw [show s.intUvFired r = (State.supFirst { s with flt.intUv := true } (intRailSource r) 0).raise fltIntUv from if_pos complete]
  generalize State.supFirst { s with flt.intUv := true } (intRailSource r) 0 = u at noted frame ⊢
  have stage : u.up.stage = .complete := by rw [frame]; exact complete
  have held : (u.seq.hedge || u.flt.dark || u.resetOrder) = (s.seq.hedge || s.flt.dark || s.resetOrder) := by rw [frame]; rfl
  have marked := setSticky_marked u fltIntUv
  have set := setSticky_sticky u (n := fltIntUv) (.inl (by decide))
  rw [raise_intUv (recording_of_complete stage) (e0Runs_of_complete stage), held]
  generalize u.setSticky fltIntUv = v at marked set ⊢
  have first (t : State) (same : t.seq.first = v.seq.first) (none_ : s.seq.first = none) :
      t.seq.first = some { source := intRailSource r, kind := 0, frame := s.scan.frame.toNat % 65536 } := by
    rw [same, marked.seq]
    exact noted.first none_
  have kept (t : State) (mem : v.memKept t) : s.memKept t := memKept_of_mem noted.memory.1 noted.memory.2 (marked.memKept mem)
  by_cases taken : s.flt.dark = true ∨ s.seq.hedge = true ∨ s.resetOrder = true
  · rw [if_pos taken, if_pos (by rcases taken with h | h | h <;> simp [h])]
    refine ⟨set, marked.now.trans noted.now, kept v (.inl rfl), first v rfl, ?_, ?_, marked.mem.trans noted.memory.1, ?_⟩
    · rw [marked.scan, frame]
    · have pwr := marked.pwrKept
      have same : u.pwr = s.pwr := by rw [frame]
      rw [State.pwrKept, same] at pwr
      exact pwr
    · rw [marked.tree, frame]
  · obtain ⟨light, idle, order⟩ : s.flt.dark = false ∧ s.seq.hedge = false ∧ s.resetOrder = false := by
      simpa [not_or] using taken
    rw [if_neg taken, if_neg (by simp [light, idle, order])]
    have stopped := goDark_stopped v
    have dark : v.flt.dark = false := by rw [marked.dark, frame]; exact light
    obtain ⟨isDark, quiet, scan, falls, drops⟩ := goDark_begun dark
    refine ⟨(stopped.toSteered.sticky _).trans set, stopped.toSteered.now.trans (marked.now.trans noted.now), kept _ stopped.mem,
      first _ stopped.toSteered.first, isDark, quiet, scan, fun up => falls ?_, fun down step => drops ?_ ?_⟩
    · rw [State.anyRail, marked.seq, noted.acted]; exact up
    · rw [State.anyRail, marked.seq, noted.acted]; exact down
    · rw [marked.seq, frame]; exact step

/-- Settles O52: a detector's event is captured and its fault raised, whose stop keeps the bits of the rails that stay up. -/
theorem supervisorsFire : Obligations.SupervisorsFire := by
  unfold Obligations.SupervisorsFire
  refine ⟨fun s k stays => ⟨fun good blanked => ?_, fun on blanked => ?_, fun on => ?_⟩,
    fun s k => ⟨fun off => congrArg _ (railUv_unarmed _ off), fun off => congrArg _ (railOv_unarmed _ off),
      fun off => congrArg _ (railOc_unarmed _ off), rfl, rfl, rfl⟩,
    fun s r => ⟨fun early => congrArg _ (if_neg early), fun complete => ?_⟩⟩
  · exact ⟨_, rfl, railUv_armed k stays good blanked⟩
  · exact ⟨_, rfl, railOv_armed k stays on blanked⟩
  · exact ⟨_, rfl, railOc_armed k stays on⟩
  · obtain ⟨set, now, mem, first, rest⟩ := intUv_seen r complete
    refine ⟨_, rfl, set, now, mem, first, ?_⟩
    split at rest
    · rename_i taken
      rw [if_pos taken]
      exact rest
    · rename_i free
      rw [if_neg free]
      exact ⟨rest.dark, rest.quiet, rest.scan, rest.falls, rest.drops⟩

/-! ### Overloads (R116, R122, R340) -/

/-- A release of the scan's locks leaves the ledger, and with no aging visit waiting the pixels. -/
theorem releaseRows_pixels (s : State) : s.releaseRows.mem.ledger = s.mem.ledger
    ∧ (s.mem.ageWait = none → s.releaseRows.mem.pixels = s.mem.pixels) := by
  unfold State.releaseRows State.release State.releaseAge
  dsimp only
  split
  · rename_i a waits
    exact ⟨rfl, fun none_ => absurd (none_.symm.trans waits) (by simp)⟩
  · exact ⟨rfl, fun _ => rfl⟩

theorem memKept_pixels {s t : State} (kept : s.memKept t) : t.mem.ledger = s.mem.ledger
    ∧ (s.mem.ageWait = none → t.mem.pixels = s.mem.pixels) := by
  rcases kept with same | released
  · rw [same]
    exact ⟨rfl, fun _ => rfl⟩
  · rw [released]
    exact releaseRows_pixels s

/-- Settles O36: the record is made before SAFE's fault is raised, and no reaction touches it. -/
theorem overloadsRecorded : Obligations.OverloadsRecorded := by
  unfold Obligations.OverloadsRecorded
  refine ⟨fun s line => ⟨fun up blanked records stays => ⟨_, rfl, ?_⟩, fun off => congrArg _ (if_neg fun armed => ?_)⟩,
    fun s ch => ⟨fun up driven blanked ramp records stays => ⟨_, rfl, ?_⟩, fun off => congrArg _ (if_neg fun armed => ?_)⟩⟩
  · have fired : s.gateFired line.val = State.raise
        { s.hwSet 0x302 0x80000000 with panel.goaLine := BitVec.ofNat 4 line, panel.goaSeen := true } fltGate := if_pos ⟨up, blanked⟩
    have faulted := raise_faulted (s := { s.hwSet 0x302 0x80000000 with
      panel.goaLine := BitVec.ofNat 4 line, panel.goaSeen := true }) fltGate stays
    obtain ⟨ledger, pixels⟩ := memKept_pixels faulted.memKept
    rw [fired]
    refine ⟨faulted.goaSeen, ?_, faulted.now, raise_sticky (.inl (by decide)) (fun _ => records) stays, ledger, pixels⟩
    rw [faulted.goaLine]
    exact Nat.mod_eq_of_lt line.isLt
  · rcases off with low | early
    · rw [low] at armed; exact absurd armed.1 (by decide)
    · omega
  · have fired : s.vcomFired ch.val = State.raise { s.hwSet 0x301 (1#32 <<< (8 + ch.val)) with
        panel.vcom := vset s.panel.vcom ch { vget s.panel.vcom ch.val with ovl := true } } fltVcom :=
      if_pos ⟨up, driven, blanked, fun h => ramp ⟨h.1, by simpa using h.2⟩⟩
    have faulted := raise_faulted (s := { s.hwSet 0x301 (1#32 <<< (8 + ch.val)) with
      panel.vcom := vset s.panel.vcom ch { vget s.panel.vcom ch.val with ovl := true } }) fltVcom stays
    obtain ⟨ledger, pixels⟩ := memKept_pixels faulted.memKept
    rw [fired]
    refine ⟨?_, faulted.now, raise_sticky (.inl (by decide)) (fun _ => records) stays, ledger, pixels⟩
    rw [faulted.ovl ch.isLt]
    exact congrArg VcomCh.ovl (vget_vset_self _ _ ch.isLt)
  · obtain ⟨railed, driven, blanked, -⟩ := armed
    rcases off with low | still | early
    · rw [low] at railed; cases railed
    · exact driven still
    · omega

end Sys2Proof.Machine
end

section
/-! PROOFS. The steps of a sequence plan and of rail-up and rail-down (R316, R329 to R331, R334, R335, R337). -/

namespace Sys2Proof.Machine

/-! ### Plans (R316, R335, R337) -/

theorem injected_none {s : State} (none_ : s.flt.injecting = []) (n : Nat) : s.injected n = false := by
  rw [State.injected, none_]
  rfl

theorem meet_none {s : State} (none_ : s.flt.injecting = []) (n : Nat) (f : State → State) : s.meet n f = s :=
  if_neg (by rw [injected_none none_]; decide)

/-- Power-good of an auxiliary rail, by itself. -/
def State.auxUp (s : State) (n e : Nat) : State :=
  { s with now := max s.now e, tree.aux := vmod s.tree.aux n (fun a => { a with pg := true, armed := true, ramp := .none }) }

theorem auxArmed_plain {s : State} {n e : Nat} (rising : (vget s.tree.aux n).ramp = .up e) (none_ : s.flt.injecting = []) :
    s.auxArmed n = s.auxUp n e := by
  have good : s.auxGood n = s.auxUp n e := by
    rw [State.auxGood, Aux.riseEnd, rising]
    rfl
  have still : (s.auxUp n e).flt.injecting = [] := none_
  rw [State.auxArmed, good]
  generalize s.auxUp n e = u at still
  split
  · rw [meet_none still, meet_none still, meet_none still]
  · rfl

theorem riseEnd_up {s : State} {n e : Nat} (rising : (vget s.tree.aux n).ramp = .up e) : (vget s.tree.aux n).riseEnd.isSome = true := by
  rw [Aux.riseEnd, rising]
  rfl

theorem planAwaits_aux {s : State} {n : Fin 4} {l : List PlanStep} (run : s.seq.run = .powerUp) (steps : s.seq.steps = .aux n :: l) :
    s.planAwaits = some n := by
  rw [State.planAwaits, run, steps]

/-- A plan that goes on to a delay waits for its end. -/
theorem planNext_delay {s : State} {x : PlanStep} {ms : Nat} {l : List PlanStep} (run : s.seq.run = .powerUp)
    (steps : s.seq.steps = x :: .delay ms :: l) :
    s.planNext = { s with seq.steps := .delay ms :: l, seq.place := s.seq.place + 1, seq.stepAt := s.now } := by
  rw [State.planNext, steps]
  dsimp only
  rw [State.runSteps]
  case heq => exact run

/-- A plan that goes on to a rail raises it, and waits for its power-good where EN permits it. -/
theorem planNext_aux {s : State} {x : PlanStep} {m : Fin 4} {l : List PlanStep} (run : s.seq.run = .powerUp)
    (steps : s.seq.steps = x :: .aux m :: l) (en : (vget (s.raiseAux m).tree.aux m).en = true) :
    s.planNext = { s.raiseAux m with seq.steps := .aux m :: l, seq.place := s.seq.place + 1, seq.stepAt := s.now } := by
  rw [State.planNext, steps]
  dsimp only
  rw [State.runSteps]
  case heq => exact run
  dsimp only
  rw [if_pos en]

/-- A rail that the plan raises, and that may run, ramps up. -/
theorem raiseAux_free {s : State} {n : Nat} (en : (vget s.tree.aux n).en = true) (free : (vget s.tree.aux n).latched = false)
    (idle : (vget s.tree.aux n).running = false) : s.raiseAux n = s.modAux n (fun a =>
      { a with raised := true, running := true, pg := false, armed := false, ramp := .up (s.now + usToSclk 2000) }) := by
  unfold State.raiseAux State.auxStart
  rw [modAux_modAux]
  refine modAux_congr s n ?_
  dsimp only
  rw [en, free, idle]
  rfl

theorem planAwaits_none_of_run {s : State} (run : s.seq.run = .none) : s.planAwaits = none := by
  rw [State.planAwaits, run]

theorem auxPgTimeout_delay {s : State} {n : Fin 4} {ms : Nat} {l : List PlanStep} (run : s.seq.run = .powerUp)
    (steps : s.seq.steps = .aux n :: .delay ms :: l) : ∃ t, exec .auxPgTimeout s = .next t
      ∧ t.now = max s.now (s.seq.stepAt + usToSclk 10000) ∧ t.tree.aux = s.tree.aux ∧ t.seq.steps = .delay ms :: l
      ∧ t.seq.place = s.seq.place + 1 ∧ t.seq.stepAt = t.now ∧ (s.recording = true → t.sticky fltAuxPg = true) ∧ t.mem = s.mem := by
  have mild : faultReaction fltAuxPg = .note ∨ faultReaction fltAuxPg = .ease := .inl (by decide)
  have marked := raise_mild_marked (s := s.reach (s.seq.stepAt + usToSclk 10000)) mild
  have set (records : s.recording = true) := raise_mild_sticky (s := s.reach (s.seq.stepAt + usToSclk 10000)) mild (.inl (by decide))
    fun _ => records
  have next : exec .auxPgTimeout s = .next ((s.reach (s.seq.stepAt + usToSclk 10000)).raise fltAuxPg).planNext := by
    show Host.Outcome.next s.auxPgTimeout = _
    rw [State.auxPgTimeout, planAwaits_aux run steps]
  rw [next]
  generalize (s.reach (s.seq.stepAt + usToSclk 10000)).raise fltAuxPg = u at marked set
  have seq : u.seq = s.seq := marked.seq
  refine ⟨_, rfl, ?_⟩
  rw [planNext_delay (s := u) (by rw [seq]; exact run) (by rw [seq]; exact steps)]
  exact ⟨marked.now, congrArg TreeState.aux marked.tree, rfl, by rw [seq], rfl, set, marked.mem⟩

/-- Settles O50: each event ends the step in progress, and the next step begins where it stands. -/
theorem planSteps_settled : Obligations.PlanSteps := by
  unfold Obligations.PlanSteps
  refine ⟨fun s n l e ms run steps rising none_ => ⟨?_, auxPgTimeout_delay run steps⟩, fun s m l ms run steps en free idle => ?_,
    fun s n e awaits first rising none_ => ?_, fun s n e run tail falling => ?_⟩
  · show Host.Outcome.next s.planPg = _
    rw [State.planPg, planAwaits_aux run steps]
    dsimp only
    rw [riseEnd_up rising, if_pos rfl, auxArmed_plain rising none_, planNext_delay (s := s.auxUp n e) run steps]
    rfl
  · show Host.Outcome.next s.delayEnd = _
    have raised : (s.reach (s.seq.stepAt + usToSclk (1000 * ms))).raiseAux m = _ := raiseAux_free en free idle
    rw [State.delayEnd, steps]
    dsimp only
    rw [planNext_aux (s := s.reach (s.seq.stepAt + usToSclk (1000 * ms))) run steps ?_, raised]
    · rfl
    · rw [raised]
      exact (congrArg Aux.en (vget_vmod_self _ _ m.isLt)).trans en
  · show Host.Outcome.next s.planPg = _
    rw [State.planPg, awaits]
    dsimp only
    rw [first]
    exact congrArg _ (auxArmed_plain rising none_)
  · show Host.Outcome.next (s.auxRampEnd n) = _
    have down : s.auxDown n = { s with
        now := max s.now e, tree.aux := vmod s.tree.aux n (fun a => { a with running := false, armed := false, ov := false, ramp := .none }) } := by
      rw [State.auxDown, falling]
      rfl
    rw [State.auxRampEnd, if_pos tail, down]
    dsimp only
    rw [run, falling]
    dsimp only
    rw [State.dropNext, run]
    rfl

end Sys2Proof.Machine
end

section
/-! PROOFS. The ends of VCOM's ramps: a rail-up's, a rail-down's, a step's alone, one channel's (R47, R120, R330, R331). -/

namespace Sys2Proof.Machine

theorem showPhase_frame (s : State) (p : SeqPhase) : s.showPhase p = { s with seq.phase := (s.showPhase p).seq.phase } := by
  unfold State.showPhase
  split <;> rfl

theorem ms_one : usToSclk 1000 = 201327 := ramp_span.2

/-! ### A rail-up's end -/

/-- The rails up with VCOM at its trims, before the scan is seen to. -/
def State.vcomStood (s : State) : State :=
  { (s.reach (s.seq.railAt + usToSclk 1000)).vcomRampDone.showPhase .up with
    seq.railStep := 0, seq.lone := false
    seq.timeUp := min 65535 ((max s.now (s.seq.railAt + usToSclk 1000) - s.seq.beganAt) * 100000 / sclkHz) }

theorem vcomUpEnd_eq (s : State) : s.vcomUpEnd =
    if s.vcomStood.scanMayStart then { s.vcomStood with scan.startDue := some s.vcomStood.now }
    else match s.vcomStood.flt.react with
      | some r => { s.vcomStood with flt.react := some { r with stage := .waitCond, waits := r.waits ++ [fltShortfall] } }
      | none => s.vcomStood := rfl

/-- What a rail-up's end leaves beside the sequencer's records and the channels. -/
theorem vcomStood_frame (s : State) : s.vcomStood = { s with
    now := max s.now (s.seq.railAt + usToSclk 1000), panel.vcom := (s.reach (s.seq.railAt + usToSclk 1000)).vcomRampDone.panel.vcom
    seq := s.vcomStood.seq } := by
  unfold State.vcomStood
  rw [showPhase_frame]
  rfl

theorem vcomRampDone_vget (s : State) {n : Nat} (small : n < 8) : vget s.vcomRampDone.panel.vcom n = match (vget s.panel.vcom n).phase with
    | .rampUp x => if x ≤ s.now then { vget s.panel.vcom n with phase := .atTrim } else vget s.panel.vcom n
    | .rampDown x => if x ≤ s.now then { vget s.panel.vcom n with phase := .off } else vget s.panel.vcom n
    | _ => vget s.panel.vcom n := by
  refine (vget_vmapIdx _ _ small).trans ?_
  rfl

theorem vcomUpEnd_keeps (s : State) : s.vcomUpEnd.now = s.vcomStood.now ∧ s.vcomUpEnd.seq = s.vcomStood.seq
    ∧ s.vcomUpEnd.tree = s.vcomStood.tree ∧ s.vcomUpEnd.mem = s.vcomStood.mem ∧ s.vcomUpEnd.pwr = s.vcomStood.pwr
    ∧ s.vcomUpEnd.panel = s.vcomStood.panel := by
  rw [vcomUpEnd_eq]
  split
  · exact ⟨rfl, rfl, rfl, rfl, rfl, rfl⟩
  · split <;> exact ⟨rfl, rfl, rfl, rfl, rfl, rfl⟩

theorem vcomStood_mayStart (s : State) : s.vcomStood.scanMayStart = s.scanMayStart := by
  have hedge : s.vcomStood.seq.hedge = s.seq.hedge := by
    unfold State.vcomStood
    rw [showPhase_frame]
    rfl
  have frame := vcomStood_frame s
  generalize s.vcomStood = t at hedge frame ⊢
  have condition : t.condition fltShortfall = s.condition fltShortfall := by rw [frame]; rfl
  rw [State.scanMayStart, condition, hedge, frame]
  rfl

/-! ### A rail-down's ramp -/

/-- The channels at 0 V, with their blanking begun. -/
def State.vcomBlanked (s : State) : State :=
  { (s.reach (s.seq.railAt + s.vcomDownLen)).vcomZero with
    seq.vcomBlankTo := max s.now (s.seq.railAt + s.vcomDownLen) + usToSclk 1000 }

/-- The same with the hedge's step, before the next drop. -/
def State.vcomDropped (s : State) : State :=
  if s.vcomBlanked.seq.hedge then { s.vcomBlanked with seq.hedgeStep := 3 } else s.vcomBlanked

theorem vcomDropped_frame (s : State) : s.vcomDropped = { s.vcomBlanked with seq.hedgeStep := s.vcomDropped.seq.hedgeStep } := by
  unfold State.vcomDropped
  split <;> rfl

theorem vcomDropped_hedge {s : State} (taken : s.seq.hedge = true) : s.vcomDropped.seq.hedgeStep = 3 := by
  have under : s.vcomBlanked.seq.hedge = true := taken
  rw [State.vcomDropped, if_pos under]

theorem vcomDownEnd_eq (s : State) : s.vcomDownEnd =
    if s.vcomDropped.seq.lone then State.loneEnd { s.vcomDropped with tree.railsUp := false } else s.vcomDropped.downFrom 1 := rfl

theorem vcomZero_phase (s : State) {n : Nat} (small : n < 8) :
    (vget s.vcomZero.panel.vcom n).phase = .zero ∨ (vget s.vcomZero.panel.vcom n).phase = .off := by
  have set : vget s.vcomZero.panel.vcom n = match (vget s.panel.vcom n).phase with
      | .off => vget s.panel.vcom n
      | _ => { vget s.panel.vcom n with phase := .zero } := (vget_vmapIdx _ _ small).trans rfl
  rw [set]
  split
  · rename_i off
    exact .inr off
  · exact .inl rfl

/-- A drop leaves the channels and the marks of VCOM's ramp. -/
theorem dropStep_vcom (s : State) (j : Nat) : (s.dropStep j).panel.vcom = s.panel.vcom
    ∧ (s.dropStep j).seq.vcomBlankTo = s.seq.vcomBlankTo ∧ (s.dropStep j).seq.hedgeStep = s.seq.hedgeStep := by
  unfold State.dropStep
  split <;> exact ⟨rfl, rfl, rfl⟩

theorem downFrom_vcom {s : State} {r : Nat} (rail : r < 8) (up : s.enabled r = true) :
    ∃ j, 1 < j ∧ j < 10 ∧ s.downFrom 1 = s.dropStep j := by
  obtain ⟨j, next⟩ := dropAfter_exists (k := 1) up (.inl ⟨rail, by decide⟩)
  obtain ⟨above, below, -⟩ := dropAfter_range next
  refine ⟨j, above, below, ?_⟩
  rw [downFrom_some next, nextDown_rail next (by omega)]

/-- A step alone ends with a rail still raised: no step follows. -/
theorem loneEnd_railed {s : State} (up : s.anyRail = true) : s.loneEnd =
    State.showPhase { s with seq.railStep := 0, seq.rising := false, seq.lone := false } (if s.tree.railsUp then .up else .idle) :=
  if_pos up

theorem loneEnd_frame {s : State} (up : s.anyRail = true) : s.loneEnd = { s with
    seq := { s.seq with railStep := 0, rising := false, lone := false, phase := s.loneEnd.seq.phase } } := by
  rw [loneEnd_railed up, showPhase_frame]

theorem enabled_of_acted {s t : State} (acted : t.seq.acted = s.seq.acted) (k : Nat) : t.enabled k = s.enabled k := by
  rw [State.enabled, acted, State.enabled]

/-! ### One channel's ramp -/

theorem vcomEnd_up {s : State} (step : s.seq.railStep = 9) (rising : s.seq.rising = true) : s.vcomEnd = s.vcomUpEnd :=
  if_pos ⟨step, rising⟩

theorem vcomEnd_down {s : State} (step : s.seq.railStep = 1) (falling : s.seq.rising = false) : s.vcomEnd = s.vcomDownEnd := by
  have up : ¬ (s.seq.railStep = 9 ∧ s.seq.rising = true) := fun h => by rw [falling] at h; cases h.2
  exact (if_neg up).trans (if_pos ⟨step, by rw [falling]; decide⟩)

theorem vcomEnd_one {s : State} {e : Nat} (up : ¬ (s.seq.railStep = 9 ∧ s.seq.rising = true))
    (down : ¬ (s.seq.railStep = 1 ∧ s.seq.rising = false)) (due : s.vcomRampEndAt = some e) : s.vcomEnd = (s.reach e).vcomRampDone := by
  refine (if_neg up).trans ((if_neg fun h => down ⟨h.1, by simpa using h.2⟩).trans ?_)
  rw [due]

/-- Settles O35: of the four ends each leaves the sequencer where the next step, or none, begins. -/
theorem vcomRampsEnd : Obligations.VcomRampsEnd := by
  unfold Obligations.VcomRampsEnd
  refine ⟨fun s step rising => ⟨_, rfl, ?_⟩, fun s step falling lone railed => ⟨_, rfl, ?_⟩,
    fun s step falling lone railed => ⟨_, rfl, ?_⟩, fun s e up down due => ⟨_, rfl, ?_⟩⟩
  · rw [vcomEnd_up step rising]
    obtain ⟨now, seq, tree, mem, pwr, panel⟩ := vcomUpEnd_keeps s
    have frame := vcomStood_frame s
    have start (may : s.scanMayStart = true) : s.vcomUpEnd.scan.startDue = some s.vcomStood.now := by
      rw [vcomUpEnd_eq, if_pos (vcomStood_mayStart s ▸ may)]
    have stood : s.vcomStood.now = max s.now (s.seq.railAt + 201327) := by rw [frame, ms_one]
    refine ⟨now.trans stood, by rw [seq]; rfl, ?_, fun may => by rw [start may, stood], ?_, ?_, ?_, fun n small e phase passed => ?_⟩
    · rw [seq, ← ms_one]; rfl
    · rw [tree, frame]
    · rw [mem, frame]
    · rw [pwr, frame]
    · rw [panel, frame]
      refine (congrArg VcomCh.phase (vcomRampDone_vget _ small)).trans ?_
      have same : (vget (s.reach (s.seq.railAt + usToSclk 1000)).panel.vcom n).phase = .rampUp e := phase
      have over_ : e ≤ (s.reach (s.seq.railAt + usToSclk 1000)).now := by rw [ms_one]; exact passed
      rw [same]
      dsimp only
      rw [if_pos over_]
  · obtain ⟨k, small, up⟩ := railed
    have frame := vcomDropped_frame s
    have step3 := vcomDropped_hedge (s := s)
    rw [vcomEnd_down step falling, vcomDownEnd_eq]
    generalize s.vcomDropped = u at frame step3 ⊢
    have plain : u.seq.lone = false := by rw [frame]; exact lone
    have raised : u.enabled k = true := by rw [frame]; exact up
    rw [if_neg (by rw [plain]; decide)]
    obtain ⟨j, above, below, drop⟩ := downFrom_vcom small raised
    rw [drop]
    obtain ⟨vcom, blank, hedgeStep⟩ := dropStep_vcom u j
    have lowered := dropStep_lowered u j
    obtain ⟨-, falls, at_⟩ := dropStep_falls u j
    refine ⟨?_, fun n small => ?_, ?_, falls, by omega, by omega, fun taken => hedgeStep.trans (step3 taken), ?_, ?_, ?_⟩
    · rw [lowered.now, frame]; rfl
    · rw [vcom, frame]
      exact vcomZero_phase _ small
    · rw [blank, lowered.now, frame, ← ms_one]; rfl
    · rw [lowered.mem, frame]; rfl
    · rw [lowered.link, frame]; rfl
    · rw [lowered.pwr, frame]; rfl
  · have frame := vcomDropped_frame s
    rw [vcomEnd_down step falling, vcomDownEnd_eq]
    generalize s.vcomDropped = u at frame ⊢
    have alone : u.seq.lone = true := by rw [frame]; exact lone
    have raised : State.anyRail { u with tree.railsUp := false } = true := by rw [frame]; exact railed
    rw [if_pos alone, loneEnd_frame raised]
    refine ⟨?_, rfl, rfl, fun n small => ?_, fun k _ => ?_, ?_, ?_, ?_, ?_⟩
    · rw [frame]; rfl
    · rw [frame]
      exact vcomZero_phase _ small
    · exact enabled_of_acted (by rw [frame]; rfl) k
    · rw [frame]; rfl
    · rw [frame]; rfl
    · rw [frame]; rfl
    · rw [frame]; rfl
  · rw [vcomEnd_one up down due]
    exact ⟨rfl, fun n small => vcomRampDone_vget _ small⟩

end Sys2Proof.Machine
end

section
/-! PROOFS. The steps of rail-up and rail-down and their limits (R329 to R331, R334, R346). -/

namespace Sys2Proof.Machine

/-! ### Power-good (R305, R330) -/

/-- The rising rail is power-good. -/
def State.railUpTo (s : State) : State :=
  { s.reach (s.seq.railAt + usToSclk 1000) with tree.pg := setBit s.tree.pg (upRail s.seq.railStep) true }

theorem railGood_eq {s : State} (rising : s.railRising = true) :
    s.railGood = if s.seq.lone then s.railUpTo.loneEnd else s.railUpTo.nextUp s.seq.railStep := if_pos rising

theorem powerGood_plain {s : State} (rising : s.railRising = true) (none_ : s.railGood.flt.injecting = []) : s.powerGood = s.railGood := by
  rw [State.powerGood, if_pos rising]
  generalize s.railGood = u at none_ ⊢
  dsimp only
  split
  · rw [meet_none none_, meet_none none_, meet_none none_, meet_none none_, meet_none none_]
  · rw [meet_none none_, meet_none none_]

theorem upRail_lt (k : Nat) : upRail k < 8 := by
  unfold upRail
  rcases Nat.lt_or_ge k 9 with h | h
  · interval_cases k <;> decide
  · rw [List.getD_eq_default _ _ (by simpa using h)]
    decide

/-- What a step up leaves alone. -/
structure State.StepUp (s t : State) : Prop where
  now : t.now = s.now
  pg : t.tree.pg = s.tree.pg
  railAt : t.seq.railAt = s.now
  rising : t.seq.rising = true
  beganAt : t.seq.beganAt = s.seq.beganAt
  lone : t.seq.lone = s.seq.lone
  phase : t.seq.phase = s.seq.phase
  rest : t.mem = s.mem ∧ t.pwr = s.pwr ∧ t.link = s.link ∧ t.scan = s.scan ∧ t.flt = s.flt

theorem startUpStep_up (s : State) (k : Nat) : s.StepUp (s.startUpStep k) :=
  ⟨rfl, rfl, rfl, rfl, rfl, rfl, rfl, rfl, rfl, rfl, rfl, rfl⟩

theorem startVcomStep_up (s : State) : s.StepUp s.startVcomStep := ⟨rfl, rfl, rfl, rfl, rfl, rfl, rfl, rfl, rfl, rfl, rfl, rfl⟩

theorem startUpStep_rail (s : State) (k : Nat) : (s.startUpStep k).seq.railStep = k ∧ (s.startUpStep k).enabled (upRail k) = true
    ∧ (s.startUpStep k).tree.disch.getLsbD (upRail k) = false := by
  refine ⟨rfl, ?_, ?_⟩
  · have on : (s.startUpStep k).enabled (upRail k) = (s.setEnable (upRail k) true).enabled (upRail k) := rfl
    rw [on, State.setEnable_enabled _ _ _ _ (by have := upRail_lt k; omega), if_pos rfl]
  · refine (setBit_getLsbD _ _ _ _ (upRail_lt k)).trans ?_
    rw [if_pos rfl]

theorem startVcomStep_rail (s : State) : s.startVcomStep.seq.railStep = 9 ∧ s.startVcomStep.enabled 8 = true
    ∧ s.startVcomStep.tree.railsUp = true := by
  refine ⟨rfl, ?_, rfl⟩
  have on : s.startVcomStep.enabled 8 = (s.setEnable 8 true).enabled 8 := rfl
  rw [on, State.setEnable_enabled _ _ _ _ (by decide), if_pos rfl]

/-- The step after step k of a rail-up. -/
def State.riseAfter (s : State) (k : Nat) : Option Nat :=
  (List.range 9).find? (fun j => decide (k < j) && !s.seq.skip.getLsbD (upRail j) && !s.tree.pg.getLsbD (upRail j))

theorem nextUp_eq (s : State) (k : Nat) : s.nextUp k = match s.riseAfter k with
    | some j => s.startUpStep j
    | none => s.startVcomStep := rfl

theorem nextUp_up (s : State) (k : Nat) : s.StepUp (s.nextUp k) := by
  rw [nextUp_eq]
  split
  · exact startUpStep_up _ _
  · exact startVcomStep_up _

/-- The end of a step that was asked for alone, with a rail raised. -/
theorem loneEnd_keeps {s : State} (up : s.anyRail = true) : s.loneEnd.now = s.now ∧ s.loneEnd.seq.railStep = 0
    ∧ s.loneEnd.seq.lone = false ∧ s.loneEnd.tree = s.tree ∧ s.loneEnd.seq.acted = s.seq.acted ∧ s.loneEnd.mem = s.mem
    ∧ s.loneEnd.pwr = s.pwr ∧ s.loneEnd.link = s.link ∧ s.loneEnd.scan = s.scan ∧ s.loneEnd.flt = s.flt := by
  rw [loneEnd_frame up]
  exact ⟨rfl, rfl, rfl, rfl, rfl, rfl, rfl, rfl, rfl, rfl⟩

/-! ### Discharge (R331, R334) -/

/-- A drop's end as it stands, with its rail's blanking and whether its limit held it. -/
def State.dropEnded (s : State) (held : Bool) : State :=
  { s with seq.blankTo := vset s.seq.blankTo (downRail s.seq.railStep) (s.now + usToSclk 1000)
           seq.stuckRails := setBit s.seq.stuckRails (downRail s.seq.railStep) held }

theorem endDrop_eq (s : State) (held : Bool) : s.endDrop held =
    if s.seq.lone then (s.dropEnded held).loneEnd else (s.dropEnded held).downFrom s.seq.railStep := rfl

theorem railFalling_parts {s : State} (falling : s.railFalling = true) :
    s.seq.rising = false ∧ 2 ≤ s.seq.railStep ∧ s.seq.vglHold = false := by
  simp only [State.railFalling, Bool.and_eq_true, Bool.not_eq_true', decide_eq_true_eq] at falling
  exact ⟨falling.1.1, falling.1.2, falling.2⟩

theorem discharged_falling {s : State} (falling : s.railFalling = true) : s.discharged = s.endDrop false := by
  obtain ⟨-, -, free⟩ := railFalling_parts falling
  exact (if_neg (by rw [free]; decide)).trans (if_pos falling)

/-- The next drop begins at once unless VGL waits for the source rails. -/
theorem endDrop_next {s : State} {j : Nat} (held : Bool) (falling : s.railFalling = true) (lone : s.seq.lone = false)
    (next : s.dropAfter s.seq.railStep = some j) (free : j = 9 → (s.dropEnded held).sourcesHeld = false) :
    s.endDrop held = (s.dropEnded held).startDrop j := by
  obtain ⟨-, step, -⟩ := railFalling_parts falling
  have still : (s.dropEnded held).dropAfter s.seq.railStep = some j := next
  obtain ⟨above, -, -⟩ := dropAfter_range next
  rw [endDrop_eq, lone, if_neg (by decide), downFrom_some still, nextDown_rail still (by omega)]
  exact if_neg fun h => by rw [free h.1] at h; exact absurd h.2 (by decide)

theorem startDrop_rail (s : State) (k : Nat) : (s.startDrop k).enabled (downRail k) = false
    ∧ (s.startDrop k).tree.pg.getLsbD (downRail k) = false ∧ (s.startDrop k).tree.disch.getLsbD (downRail k) = true := by
  refine ⟨?_, ?_, ?_⟩
  · have off : (s.startDrop k).enabled (downRail k) = (s.setEnable (downRail k) false).enabled (downRail k) := rfl
    rw [off, State.setEnable_enabled _ _ _ _ (by have := downRail_lt k; omega), if_pos rfl]
  · exact (setBit_getLsbD _ _ _ _ (downRail_lt k)).trans (if_pos rfl)
  · exact (setBit_getLsbD _ _ _ _ (downRail_lt k)).trans (if_pos rfl)

/-- No source rail is held where their six bits are 0. -/
theorem sourcesHeld_false {s : State} (none_ : s.seq.stuckRails.toNat % 64 = 0) : s.sourcesHeld = false := by
  unfold State.sourcesHeld
  have low (r : Nat) (small : r < 6) : s.seq.stuckRails.getLsbD r = false := by
    have bit : (s.seq.stuckRails.toNat % 2 ^ 6).testBit r = false := by
      rw [show s.seq.stuckRails.toNat % 2 ^ 6 = 0 from none_]
      exact Nat.zero_testBit r
    rw [Nat.testBit_mod_two_pow, decide_eq_true small, Bool.true_and] at bit
    exact bit
  simpa [anyTo] using low

theorem railDownEnd_nothing {s : State} (ran : Bool) (nothing : s.seq.after = .nothing) : s.railDownEnd ran = s.railsDown ran := by
  rw [railDownEnd_eq, nothing]

theorem railsDown_frame (s : State) (ran : Bool) : s.railsDown ran = { s.vcomFloat with seq := (s.railsDown ran).seq } := by
  unfold State.railsDown
  rw [showPhase_frame]

theorem railsDown_seq (s : State) (ran : Bool) : (s.railsDown ran).seq.railStep = 0
    ∧ (s.railsDown ran).seq.timeDown = (if ran then min 65535 ((s.now - s.seq.beganAt) * 100000 / sclkHz) else s.seq.timeDown) := by
  unfold State.railsDown
  rw [showPhase_frame]
  exact ⟨rfl, rfl⟩

/-! ### The limits (R330, R331) -/

theorem railPg_number : stickyNumber fltRailPg ∧ stickyNumber fltDisch := ⟨.inl (by decide), .inl (by decide)⟩

theorem disch_mild : faultReaction fltDisch = .note ∨ faultReaction fltDisch = .ease := .inl (by decide)

/-- A rise that its limit ends rises no more. -/
theorem beginRailDown_stops (s : State) (rising : s.railRising = true) : (s.beginRailDown .nothing).railRising = false := by
  have up : s.seq.rising = true := by
    simp only [State.railRising, Bool.and_eq_true] at rising
    exact rising.1.1
  rw [beginRailDown_begun .nothing fun h => h.2 up]
  have after : (s.downBegun .nothing).seq.after = .nothing := rfl
  generalize s.downBegun .nothing = u at after
  cases next : u.dropAfter 0 with
  | some j =>
    rw [downFrom_some next, State.railRising, (nextDown_falls next).2.1]
    rfl
  | none =>
    rw [downFrom_none next, railDownEnd_nothing (s := { u with seq.railStep := 0, seq.vglHold := false }) _ after, State.railRising,
      (railsDown_seq _ _).1]
    simp

/-- A drop whose limit runs out, with the fault it raises. -/
def State.dischLate (s : State) (to_ : Nat) : State := State.raise { s.reach to_ with seq.dischRaised := true } fltDisch

theorem dischLate_marked (s : State) (to_ : Nat) : ({ s.reach to_ with seq.dischRaised := true } : State).Marked (s.dischLate to_) :=
  raise_mild_marked disch_mild

theorem dischLate_sticky {s : State} (to_ : Nat) (records : s.recording = true) : (s.dischLate to_).sticky fltDisch = true :=
  raise_mild_sticky disch_mild railPg_number.2 fun _ => records

theorem dischLate_seq (s : State) (to_ : Nat) : (s.dischLate to_).seq = { s.seq with dischRaised := true } := (dischLate_marked s to_).seq

/-- A step's drop counts as ended at its limit. -/
theorem dischOver_next {s : State} {j : Nat} (falling : s.railFalling = true) (lone : s.seq.lone = false)
    (next : s.dropAfter s.seq.railStep = some j) (ne : j ≠ 9) :
    s.dischOver = ((s.dischLate (s.seq.railAt + s.dischLimit)).dropEnded true).startDrop j := by
  have seq := dischLate_seq s (s.seq.railAt + s.dischLimit)
  have over_ : s.dischOver = (s.dischLate (s.seq.railAt + s.dischLimit)).endDrop true := if_pos falling
  rw [over_]
  generalize s.dischLate (s.seq.railAt + s.dischLimit) = u at seq ⊢
  have falls : u.railFalling = true := by rw [State.railFalling, seq]; exact falling
  refine endDrop_next true falls (by rw [seq]; exact lone) ?_ fun nine => absurd nine ne
  unfold State.dropAfter State.enabled at next ⊢
  rw [seq]
  exact next

theorem dischOver_ends {s : State} {j : Nat} (falling : s.railFalling = true) (lone : s.seq.lone = false) (records : s.recording = true)
    (next : s.dropAfter s.seq.railStep = some j) (ne : j ≠ 9) : s.dischOver.now = max s.now (s.seq.railAt + s.dischLimit)
      ∧ s.dischOver.seq.railStep = j ∧ s.dischOver.sticky fltDisch = true ∧ s.dischOver.seq.dischRaised = true
      ∧ s.dischOver.enabled (downRail j) = false := by
  have marked := dischLate_marked s (s.seq.railAt + s.dischLimit)
  have set := dischLate_sticky (s.seq.railAt + s.dischLimit) records
  rw [dischOver_next falling lone next ne]
  generalize s.dischLate (s.seq.railAt + s.dischLimit) = u at marked set ⊢
  exact ⟨marked.now, rfl, set, congrArg SeqState.dischRaised marked.seq, (startDrop_rail _ _).1⟩

/-- VGL held for its limit drops; the fault is raised once. -/
theorem vglHoldOver_ends {s : State} (held : s.seq.vglHold = true) (records : s.recording = true) :
    s.vglHoldOver.now = max s.now (s.seq.railAt + s.holdLimit) ∧ s.vglHoldOver.seq.vglHold = false ∧ s.vglHoldOver.seq.railStep = 9
      ∧ s.vglHoldOver.seq.rising = false ∧ s.vglHoldOver.enabled 7 = false ∧ s.vglHoldOver.tree.disch.getLsbD 7 = true
      ∧ (s.seq.dischRaised = false → s.vglHoldOver.sticky fltDisch = true) := by
  have over_ : s.vglHoldOver = (if s.seq.dischRaised then s.reach (s.seq.railAt + s.holdLimit)
      else s.dischLate (s.seq.railAt + s.holdLimit)).startDrop 9 := if_pos held
  have dropped (u : State) (now : u.now = max s.now (s.seq.railAt + s.holdLimit)) : (u.startDrop 9).now = max s.now (s.seq.railAt + s.holdLimit)
      ∧ (u.startDrop 9).seq.vglHold = false ∧ (u.startDrop 9).seq.railStep = 9 ∧ (u.startDrop 9).seq.rising = false
      ∧ (u.startDrop 9).enabled 7 = false ∧ (u.startDrop 9).tree.disch.getLsbD 7 = true := by
    obtain ⟨off, -, disch⟩ := startDrop_rail u 9
    exact ⟨now, rfl, rfl, rfl, off, disch⟩
  rw [over_]
  cases raised : s.seq.dischRaised with
  | true =>
    rw [if_pos rfl]
    obtain ⟨now, hold, step, rising, off, disch⟩ := dropped (s.reach (s.seq.railAt + s.holdLimit)) rfl
    exact ⟨now, hold, step, rising, off, disch, fun h => by cases h⟩
  | false =>
    rw [if_neg (by decide)]
    obtain ⟨now, hold, step, rising, off, disch⟩ := dropped _ (dischLate_marked s (s.seq.railAt + s.holdLimit)).now
    exact ⟨now, hold, step, rising, off, disch, fun _ => dischLate_sticky _ records⟩

theorem pgTimeout_ends {s : State} (rising : s.railRising = true) (records : s.recording = true) (stays : s.staysUp) :
    s.pgTimeout.now = max s.now (s.seq.railAt + usToSclk 5000) ∧ s.pgTimeout.railRising = false ∧ s.pgTimeout.sticky fltRailPg = true
      ∧ (s.seq.first = none → s.pgTimeout.seq.first
          = some { source := upRail s.seq.railStep, kind := 3, frame := s.scan.frame.toNat % 65536 })
      ∧ s.memKept s.pgTimeout := by
  have noted := supFirst_noted (s.reach (s.seq.railAt + usToSclk 5000)) (upRail s.seq.railStep) 3
  have ended : s.pgTimeout =
      let u := ((s.reach (s.seq.railAt + usToSclk 5000)).supFirst (upRail s.seq.railStep) 3).raise fltRailPg
      if u.railRising then u.beginRailDown .nothing else u := if_pos rising
  rw [ended]
  generalize (s.reach (s.seq.railAt + usToSclk 5000)).supFirst (upRail s.seq.railStep) 3 = v at noted
  have faulted := raise_faulted fltRailPg (noted.stays stays)
  have set := raise_sticky railPg_number.1 (fun _ => noted.recording.trans records) (noted.stays stays)
  have first (none_ : s.seq.first = none) := faulted.first.trans (noted.first none_)
  have kept : s.memKept (v.raise fltRailPg) := memKept_of_mem noted.memory.1 noted.memory.2 faulted.memKept
  have now := faulted.now.trans noted.now
  generalize v.raise fltRailPg = u at set first kept now
  dsimp only
  split
  · rename_i still
    have moved := beginRailDown_moved (s := u) .nothing (.inl ⟨by decide, by decide, by decide⟩)
    refine ⟨moved.toSteered.now.trans now, beginRailDown_stops u still, (moved.toSteered.sticky _).trans set,
      fun none_ => moved.toSteered.first.trans (first none_), kept.imp moved.mem.trans moved.mem.trans⟩
  · rename_i ended
    exact ⟨now, Bool.eq_false_iff.mpr ended, set, first, kept⟩

/-- Settles O49: each step's end begins the step that the rail order has next, and a limit raises its fault first. -/
theorem railSteps : Obligations.RailSteps := by
  unfold Obligations.RailSteps
  refine ⟨fun s rising none_ lone => ⟨_, rfl, ?_⟩, fun s rising none_ lone railed => ⟨_, rfl, ?_⟩,
    fun s rising records stays => ⟨_, rfl, pgTimeout_ends rising records stays⟩,
    fun s j falling lone next free => ⟨_, rfl, ?_⟩, fun s falling lone railed => ⟨_, rfl, ?_⟩,
    fun s falling lone nothing last => ⟨_, rfl, ?_⟩, fun s j falling lone records next ne => ⟨_, rfl, ?_⟩,
    fun s held records => ⟨_, rfl, ?_⟩⟩
  · have good : s.railGood = s.railUpTo.nextUp s.seq.railStep := (railGood_eq rising).trans (if_neg (by rw [lone]; decide))
    have up := nextUp_up s.railUpTo s.seq.railStep
    obtain ⟨mem, pwr, link, scan, flt⟩ := up.rest
    rw [powerGood_plain rising (by rw [good, flt]; exact none_), good]
    refine ⟨?_, up.pg, up.railAt.trans up.now.symm, up.rising, fun j next => ?_, fun none_ => ?_, mem, pwr, link, scan, flt⟩
    · rw [up.now, ← ms_one]; rfl
    · rw [nextUp_eq, show s.railUpTo.riseAfter s.seq.railStep = some j from next]
      exact startUpStep_rail _ j
    · rw [nextUp_eq, show s.railUpTo.riseAfter s.seq.railStep = none from none_]
      exact startVcomStep_rail _
  · have good : s.railGood = s.railUpTo.loneEnd := (railGood_eq rising).trans (if_pos lone)
    obtain ⟨now, step, alone, tree, acted, mem, pwr, link, scan, flt⟩ := loneEnd_keeps (s := s.railUpTo) railed
    rw [powerGood_plain rising (by rw [good, flt]; exact none_), good]
    refine ⟨?_, step, alone, tree, fun k _ => enabled_of_acted acted k, mem, pwr, link, scan, flt⟩
    rw [now, ← ms_one]; rfl
  · rw [discharged_falling falling, endDrop_next false falling lone next fun nine => sourcesHeld_false (free nine)]
    obtain ⟨off, pg, disch⟩ := startDrop_rail (s.dropEnded false) j
    exact ⟨rfl, rfl, rfl, rfl, off, pg, disch, rfl, rfl, rfl, rfl, rfl⟩
  · obtain ⟨now, step, alone, tree, acted, mem, pwr, link, scan, flt⟩ := loneEnd_keeps (s := s.dropEnded false) railed
    rw [discharged_falling falling, endDrop_eq, lone, if_pos rfl]
    exact ⟨now, step, alone, tree, fun k _ => enabled_of_acted acted k, mem, pwr, link, flt⟩
  · have last : (s.dropEnded false).dropAfter s.seq.railStep = none := last
    obtain ⟨-, step, -⟩ := railFalling_parts falling
    have ran : (!(s.seq.railStep == 0)) = true := by
      rw [Bool.not_eq_true', beq_eq_false_iff_ne]
      omega
    rw [discharged_falling falling, endDrop_eq, lone, if_neg (by decide), downFrom_none last, ran,
      railDownEnd_nothing (s := { s.dropEnded false with seq.railStep := 0, seq.vglHold := false }) _ nothing]
    have frame := railsDown_frame { s.dropEnded false with seq.railStep := 0, seq.vglHold := false } true
    obtain ⟨zero, time⟩ := railsDown_seq { s.dropEnded false with seq.railStep := 0, seq.vglHold := false } true
    refine ⟨zero, time, fun n small => ?_, ?_, ?_, ?_⟩
    · rw [frame]
      exact congrArg VcomCh.phase (vget_vmapIdx _ _ small)
    · rw [frame]; rfl
    · rw [frame]; rfl
    · rw [frame]; rfl
  · exact dischOver_ends falling lone records next ne
  · obtain ⟨now, hold, step, rising, off, disch, set⟩ := vglHoldOver_ends held records
    exact ⟨now, hold, step, rising, off, disch, set, congrArg _ (if_pos held)⟩

end Sys2Proof.Machine
end

section
/-! PROOFS. A reaction's decision point and the end of its recovery (R465, R469, R471, R472). -/

namespace Sys2Proof.Machine

/-! ### The decision point (R469) -/

/-- A reaction at a stage of its own, with nothing left to decide. -/
def State.deciding (s : State) (n : Nat) (r : Reacting) : State := { s with now := n, flt.react := some r }

theorem condition_deciding (s : State) (n : Nat) (r : Reacting) (k : Nat) : (s.deciding n r).condition k = s.condition k := rfl

theorem condition_now (s : State) (n : Nat) : State.condition { s with now := n } = s.condition := rfl

theorem mustWait_deciding (s : State) (n : Nat) (r q : Reacting) (waits : q.waits = r.waits) :
    (s.deciding n q).mustWait q = s.mustWait r := by
  unfold State.mustWait
  rw [waits]
  rfl

/-- The decision point's time, with no repair to make. -/
theorem reactionDecision_at {s : State} {r : Reacting} (react : s.flt.react = some r) (stage : r.stage = .toDecision)
    (dormant : s.pwr.st ≠ .enterDormant) (repair : r.repair = false) :
    s.reactionDecision = State.atDecision { s with now := max s.now (r.at_ + 201327) } r := by
  have same : { r with repair := false } = r := by rw [← repair]
  rw [State.reactionDecision, react]
  refine (if_pos ⟨stage, dormant⟩).trans ?_
  dsimp only
  rw [same, if_neg (by rw [repair]; decide), ms_one]
  rfl

/-- The decision with no fault left to apply. -/
theorem reactionDecision_quiet {s : State} {r : Reacting} (react : s.flt.react = some r) (stage : r.stage = .toDecision)
    (dormant : s.pwr.st ≠ .enterDormant) (repair : r.repair = false) (quiet : r.later.filter s.condition = []) :
    s.reactionDecision = (s.deciding (max s.now (r.at_ + 201327)) { r with stage := .waitCond, later := [] }).tryReactUp := by
  rw [reactionDecision_at react stage dormant repair, State.atDecision, condition_now, quiet, List.mergeSort_nil]
  rfl

theorem tryReactUp_held {s : State} {n : Nat} {r : Reacting} (stage : r.stage = .waitCond) (waits : s.mustWait r = true) :
    (s.deciding n r).tryReactUp = s.deciding n r := by
  show (if r.stage = .waitCond then _ else _) = _
  rw [if_pos stage, mustWait_deciding s n r r rfl, if_pos waits]

theorem tryReactUp_free {s : State} {n : Nat} {r : Reacting} (stage : r.stage = .waitCond) (free : s.mustWait r = false) :
    (s.deciding n r).tryReactUp = (s.deciding n r).reactUp r := by
  show (if r.stage = .waitCond then _ else _) = _
  rw [if_pos stage, mustWait_deciding s n r r rfl, free]
  rfl

/-- A start-up's rail-up that runs goes on. -/
theorem reactUp_rising {s : State} {n : Nat} {r : Reacting} (down : s.tree.railsUp = false) (step : s.seq.railStep ≠ 0)
    (rising : s.seq.rising = true) : (s.deciding n r).reactUp r = s.deciding n { r with stage := .railUp, at_ := n } := by
  refine (if_neg fun h => ?_).trans (if_pos ⟨step, rising⟩)
  have up : s.tree.railsUp = true := h.1
  rw [down] at up
  cases up

/-- Otherwise it begins, where the device runs. -/
theorem reactUp_begins {s : State} {n : Nat} {r : Reacting} (run : s.pwr.st = .run ∨ s.pwr.st = .slow) (down : s.tree.railsUp = false)
    (step : s.seq.railStep = 0) (plan : s.up.planDone = true) : (s.deciding n r).reactUp r =
      State.beginRailUp { s.deciding n { r with stage := .railUp, at_ := n } with up.firstUp := false } := by
  have st : (s.deciding n r).pwr.st ≠ .ret := by
    rcases run with h | h <;> exact fun g => absurd (h.symm.trans g) (by decide)
  refine (if_neg fun h => ?_).trans ((if_neg fun h => h.1 step).trans ((if_neg fun h => st h.1).trans (if_neg fun h => h plan)))
  have up : s.tree.railsUp = true := h.1
  rw [down] at up
  cases up

/-- With nothing power-good and nothing skipped a rail-up begins with VGL. -/
theorem beginRailUp_first {s : State} (pg : s.tree.pg = 0) (skip : s.seq.skip = 0) :
    s.beginRailUp.seq.railStep = 1 ∧ s.beginRailUp.seq.rising = true ∧ s.beginRailUp.enabled 7 = true
      ∧ s.beginRailUp.seq.beganAt = s.now ∧ s.beginRailUp.now = s.now ∧ s.beginRailUp.flt = s.flt ∧ s.beginRailUp.mem = s.mem := by
  unfold State.beginRailUp
  rw [showPhase_frame]
  dsimp only
  generalize (s.showPhase .railUp).seq.phase = p
  have begun : State.riseAfter { s with seq.phase := p, seq.beganAt := s.now, seq.lone := false } 0 = some 1 := by
    unfold State.riseAfter
    dsimp only
    rw [pg, skip]
    rfl
  rw [nextUp_eq, begun]
  obtain ⟨step, on, -⟩ := startUpStep_rail { s with seq.phase := p, seq.beganAt := s.now, seq.lone := false } 1
  exact ⟨step, rfl, on, rfl, rfl, rfl, rfl⟩

/-- The third reaction within 10 s is DARK. -/
theorem reactionDecision_third {s : State} {r : Reacting} (react : s.flt.react = some r) (stage : r.stage = .toDecision)
    (dormant : s.pwr.st ≠ .enterDormant) (repair : r.repair = false) (present : r.later.filter s.condition ≠ [])
    (third : ({ s with now := max s.now (r.at_ + 201327) } : State).thirdSoon = true) :
    s.reactionDecision = State.goDark { s with now := max s.now (r.at_ + 201327) } := by
  rw [reactionDecision_at react stage dormant repair]
  have still : State.condition { s with now := max s.now (r.at_ + 201327) } = s.condition := rfl
  generalize ({ s with now := max s.now (r.at_ + 201327) } : State) = u at third still ⊢
  unfold State.atDecision
  dsimp only
  rw [still]
  split
  · rename_i none_
    exact absurd (by simpa using congrArg List.length none_) (by simpa using present)
  · exact if_pos third

/-! ### The end of recovery (R472) -/

theorem recoveryEnd_eq {s : State} {r : Reacting} (react : s.flt.react = some r) (stage : r.stage = .frame) :
    s.recoveryEnd = State.endRecovery { s with now := max s.now (r.at_ + s.frameTime) } r := by
  rw [State.recoveryEnd, react]
  exact if_pos stage

theorem endRecovery_quiet {s : State} {r : Reacting} (quiet : r.later.filter s.condition = []) :
    s.endRecovery r = { s with flt.react := none } := by
  unfold State.endRecovery
  dsimp only
  rw [quiet, List.mergeSort_nil]

theorem endRecovery_again {s : State} {r : Reacting} {f : Nat} {l : List Nat}
    (present : (r.later.filter s.condition).mergeSort (· ≤ ·) = f :: l) :
    s.endRecovery r = State.beginReaction { s with flt.react := none } .safe f l := by
  unfold State.endRecovery
  dsimp only
  rw [present]

/-- The record of a reaction begun: its faults, and the moment it joins the last ones. -/
theorem State.ReactsWith.reacting {s t : State} {r : Reacting} (h : s.ReactsWith r t) :
    t.flt.history = s.flt.history ∧ ∃ q, t.flt.react = some q ∧ q.core = r.core := by
  have history : t.flt.core.history = s.flt.history := by rw [h.flt]
  have react : t.flt.core.react = some r.core := by rw [h.flt]
  refine ⟨history, ?_⟩
  have mapped : t.flt.react.map Reacting.core = some r.core := react
  obtain ⟨q, found, same⟩ := Option.map_eq_some_iff.mp mapped
  exact ⟨q, found, same⟩

/-- The faults that waited begin one reaction, unless it is the third within 10 s. -/
theorem beginReaction_begun {s : State} (level : Reaction) (n : Nat) (also : List Nat) (soon : s.thirdSoon = false) (ups : s.stopsUp) :
    s.memKept (s.beginReaction level n also) ∧ (s.beginReaction level n also).now = s.now
      ∧ (s.beginReaction level n also).flt.history = (s.now :: s.flt.history).take 3
      ∧ ∃ q, (s.beginReaction level n also).flt.react = some q ∧ q.level = level ∧ q.fault = n ∧ q.waits = n :: also ∧ q.later = [] := by
  have begun : s.beginReaction level n also = State.reactStop { s with flt.history := (s.now :: s.flt.history).take 3 }
      { level := level, fault := n, stage := .toDecision, at_ := s.now, repair := n == fltAlmCrc, later := [], waits := n :: also } :=
    if_neg (by rw [soon]; decide)
  have reacts := reactStop_reacts (s := { s with flt.history := (s.now :: s.flt.history).take 3 })
    { level := level, fault := n, stage := .toDecision, at_ := s.now, repair := n == fltAlmCrc, later := [], waits := n :: also } ups
  obtain ⟨history, q, found, core⟩ := reacts.reacting
  rw [begun]
  refine ⟨memKept_of_mem (t := { s with flt.history := (s.now :: s.flt.history).take 3 }) rfl rfl reacts.toStopped.mem,
    reacts.toStopped.toSteered.now, history, q, found, ?_⟩
  exact ⟨congrArg Reacting.level core, congrArg Reacting.fault core, congrArg Reacting.waits core, congrArg Reacting.later core⟩

/-- Settles O56: at the decision point what is present decides between a wait, the rail-up and DARK; at the end of the recovery between
its release and one reaction more. -/
theorem reactionsEnd : Obligations.ReactionsEnd := by
  unfold Obligations.ReactionsEnd
  refine ⟨fun s r react stage dormant repair => ⟨fun quiet free down step rising => ?_, fun quiet waits => ?_,
      fun quiet free run down step plan pg skip => ⟨_, rfl, ?_⟩, fun present third => ⟨_, rfl, ?_⟩⟩,
    fun s r react stage => ⟨fun quiet => ⟨?_, fun light idle => ?_⟩, fun f l present soon stays => ⟨_, rfl, ?_⟩⟩,
    fun s r react => ⟨fun other => ?_, fun other => ?_⟩⟩
  · show Host.Outcome.next s.reactionDecision = _
    have free' : s.mustWait { r with stage := .waitCond, later := [] } = false := free
    rw [reactionDecision_quiet react stage dormant repair quiet, tryReactUp_free rfl free', reactUp_rising down step rising]
    rfl
  · show Host.Outcome.next s.reactionDecision = _
    have waits' : s.mustWait { r with stage := .waitCond, later := [] } = true := waits
    rw [reactionDecision_quiet react stage dormant repair quiet, tryReactUp_held rfl waits']
    rfl
  · have free' : s.mustWait { r with stage := .waitCond, later := [] } = false := free
    rw [reactionDecision_quiet react stage dormant repair quiet, tryReactUp_free rfl free', reactUp_begins run down step plan]
    obtain ⟨first, rising, on, began, now, flt, mem⟩ := beginRailUp_first (s := { s.deciding (max s.now (r.at_ + 201327))
      { r with stage := .railUp, at_ := max s.now (r.at_ + 201327), later := [] } with up.firstUp := false }) pg skip
    exact ⟨now, by rw [flt]; rfl, by rw [flt]; rfl, first, rising, on, began, mem⟩
  · have stopped := goDark_stopped { s with now := max s.now (r.at_ + 201327) }
    have dark := goDark_dark { s with now := max s.now (r.at_ + 201327) }
    rw [reactionDecision_third react stage dormant repair present third]
    exact ⟨stopped.toSteered.now, dark, memKept_of_mem (t := { s with now := max s.now (r.at_ + 201327) }) rfl rfl stopped.mem⟩
  · show Host.Outcome.next s.recoveryEnd = _
    rw [recoveryEnd_eq react stage, endRecovery_quiet (s := { s with now := max s.now (r.at_ + s.frameTime) }) quiet]
  · unfold State.faultN State.faultOut
    dsimp only
    rw [light, idle]
    simp
  · obtain ⟨mem, now, history, q, found⟩ := beginReaction_begun (s := { s with now := max s.now (r.at_ + s.frameTime), flt.react := none })
      .safe f l soon (staysUp_stopsUp stays)
    rw [recoveryEnd_eq react stage, endRecovery_again (s := { s with now := max s.now (r.at_ + s.frameTime) }) present]
    exact ⟨now, history, memKept_of_mem (t := { s with now := max s.now (r.at_ + s.frameTime), flt.react := none }) rfl rfl mem, q, found⟩
  · show Host.Outcome.next s.reactionDecision = _
    rw [State.reactionDecision, react]
    exact congrArg _ (if_neg fun h => other h.1)
  · show Host.Outcome.next s.recoveryEnd = _
    rw [State.recoveryEnd, react]
    exact congrArg _ (if_neg other)

end Sys2Proof.Machine
end

section
/-! PROOFS. The hedge's takeovers, with its rail order and its relock (R287, R288, R295, R296, R312, R341 to R343). -/

namespace Sys2Proof.Machine

/-! ### The stop (R220) -/

theorem hedgeStop_frame (s : State) : s.hedgeStop = { s with
    mem := s.hedgeStop.mem, panel := s.hedgeStop.panel, drills := s.hedgeStop.drills, scan := s.hedgeStop.scan, therm := s.hedgeStop.therm } := by
  unfold State.hedgeStop
  split
  · exact abruptStop_eq s
  · have stopped := stopScan_eq { s with scan.cleanLast := false }
    generalize State.stopScan { s with scan.cleanLast := false } = u at stopped ⊢
    rw [stopped]

theorem hedgeStop_mem (s : State) : s.hedgeStop.mem = s.releaseRows.mem := by
  unfold State.hedgeStop
  split
  · exact abruptStop_mem s
  · rw [stopScan_mem]
    exact releaseRows_mem rfl rfl

theorem hedgeStop_scan (s : State) : s.hedgeStop.scan.scanning = false ∧ s.hedgeStop.scan.startDue = none := by
  unfold State.hedgeStop
  split
  · rw [abruptStop_scan]
    exact ⟨rfl, rfl⟩
  · rw [stopScan_scan]
    exact ⟨rfl, rfl⟩

/-! ### The takeover as it begins (R341, R395) -/

/-- The bits that a takeover sets in this cycle. -/
def State.seizeMarks (s : State) : State := (s.hwSet 0x60B 4).hwSet 0x601 (if s.flt.first.isNone then 0x80000000 else 0)

/-- The device taken over, its scan stopped, before the relock and the rail order. -/
def State.seized (s : State) (cause : Nat) : State :=
  { (State.hedgeStop { s with seq.hedgeCause := setBit s.seq.hedgeCause cause true }).seizeMarks with
    seq.hedge := true, seq.phase := .hedge, seq.hedgeStep := 1, seq.run := .none, seq.steps := []
    seq.place := 0, seq.tail := 0, rtc.bak := setBit s.rtc.bak 2 true
    link.attnFault := s.link.attnFault || (!s.rtc.bak.getLsbD 2 && s.link.cfg.getLsbD 0)
    flt.first := s.flt.first.or (some (98, s.scan.frame.toNat % 65536)), pwr.st := .hedge, pwr.change := none
    seq.hedgeAt := s.now, flt.react := none, up.firstUp := false
    acc.posted := s.acc.posted.filter (fun p => p.backup) }

/-- What the takeover has of s once it is begun. -/
structure State.Seized (s : State) (cause : Nat) (u : State) : Prop where
  now : u.now = s.now
  seq : u.seq = { s.seq with
    hedgeCause := setBit s.seq.hedgeCause cause true, hedge := true, phase := .hedge, hedgeStep := 1, run := .none, steps := []
    place := 0, tail := 0, hedgeAt := s.now }
  pwr : u.pwr = { s.pwr with st := .hedge, change := none }
  scan : u.scan.scanning = false ∧ u.scan.startDue = none
  flt : u.flt = { s.flt with first := s.flt.first.or (some (98, s.scan.frame.toNat % 65536)), react := none }
  rtc : u.rtc = { s.rtc with bak := setBit s.rtc.bak 2 true }
  posted : u.acc.posted = s.acc.posted.filter (fun p => p.backup)
  mem : u.mem = s.releaseRows.mem
  otp : u.otp = s.otp
  version : u.link.version = s.link.version
  clock : u.clock = s.relockTried

theorem seized_seized (s : State) (cause : Nat) : s.Seized cause (s.seized cause).tryRelock := by
  have frame := hedgeStop_frame { s with seq.hedgeCause := setBit s.seq.hedgeCause cause true }
  have mem : (State.hedgeStop { s with seq.hedgeCause := setBit s.seq.hedgeCause cause true }).mem = s.releaseRows.mem :=
    (hedgeStop_mem _).trans (releaseRows_mem rfl rfl)
  have scan := hedgeStop_scan { s with seq.hedgeCause := setBit s.seq.hedgeCause cause true }
  unfold State.seized
  generalize State.hedgeStop { s with seq.hedgeCause := setBit s.seq.hedgeCause cause true } = w at frame mem scan ⊢
  have clock : w.clock = s.clock := by rw [frame]
  have now : w.now = s.now := by rw [frame]
  unfold State.tryRelock
  dsimp only
  split
  · rename_i due
    have tried : s.clock.xtalOk = true ∧ s.clock.relock = .none := by
      obtain ⟨-, xtal, idle⟩ := due
      exact ⟨(congrArg ClockState.xtalOk clock).symm.trans xtal, (congrArg ClockState.relock clock).symm.trans idle⟩
    refine ⟨now, by rw [frame]; rfl, by rw [frame]; rfl, scan, by rw [frame]; rfl, by rw [frame]; rfl, rfl, mem, by rw [frame]; rfl,
      by rw [frame]; rfl, ?_⟩
    rw [State.relockTried, if_pos tried, ← now, ← clock]
    rfl
  · rename_i due
    have untried : ¬ (s.clock.xtalOk = true ∧ s.clock.relock = .none) := fun h =>
      due ⟨rfl, (congrArg ClockState.xtalOk clock).trans h.1, (congrArg ClockState.relock clock).trans h.2⟩
    refine ⟨now, by rw [frame]; rfl, by rw [frame]; rfl, scan, by rw [frame]; rfl, by rw [frame]; rfl, rfl, mem, by rw [frame]; rfl,
      by rw [frame]; rfl, ?_⟩
    rw [State.relockTried, if_neg untried]
    exact clock

/-! ### The rail order under it (R342) -/

theorem takeover_eq {s : State} (cause : Nat) (free : s.seq.hedge = false) : s.takeover cause =
    let u := (s.seized cause).tryRelock
    if !u.anyRail && u.seq.railStep == 0 then u.hedgeAtOnce
    else
      let v := u.beginRailDown .hedge
      if v.seq.hedgeStep = 1 ∧ 2 ≤ v.seq.railStep then { v with seq.hedgeStep := 3 } else v := by
  refine (if_neg (by rw [free]; decide)).trans ?_
  have first (w : State) (same : w.flt.first = s.flt.first) :
      (w.hwSet 0x60B 4).hwSet 0x601 (if s.flt.first.isNone then 0x80000000 else 0) = w.seizeMarks := by
    rw [State.seizeMarks, same]
  have frame := hedgeStop_frame { s with seq.hedgeCause := setBit s.seq.hedgeCause cause true }
  have kept : (State.hedgeStop { s with seq.hedgeCause := setBit s.seq.hedgeCause cause true }).flt.first = s.flt.first := by rw [frame]
  rw [first _ kept]
  rfl

theorem takeover_again {s : State} (cause : Nat) (taken : s.seq.hedge = true) :
    s.takeover cause = { s with seq.hedgeCause := setBit s.seq.hedgeCause cause true } := if_pos taken

theorem nextDown_hedgeStep (s : State) (k : Nat) : (s.nextDown k).1.seq.hedgeStep = s.seq.hedgeStep := by
  cases next : s.dropAfter k with
  | none => rw [nextDown_none next]
  | some j =>
    by_cases first : j = 1
    · rw [first] at next
      rw [nextDown_vcom next]
      rfl
    · rw [nextDown_rail next first]
      exact (dropStep_vcom s j).2.2

theorem beginRailDown_hedgeStep {s : State} (a : After) (has : s.hasDown) : (s.beginRailDown a).seq.hedgeStep = s.seq.hedgeStep := by
  by_cases going : s.seq.railStep ≠ 0 ∧ ¬ s.seq.rising
  · rw [beginRailDown_going a going]
  · obtain ⟨j, next⟩ := downBegun_next a (has.resolve_right going)
    rw [beginRailDown_begun a going, downFrom_some next, nextDown_hedgeStep]
    show (s.showPhase .railDown).seq.hedgeStep = _
    rw [showPhase_seq]

/-- The rail order of a takeover from a state: what it leaves, and where it begins. -/
structure State.Ordered (u t : State) : Prop where
  lowered : u.Lowered t
  falls : u.anyRail = true → t.seq.after = .hedge ∧ t.seq.railStep ≠ 0 ∧ t.seq.rising = false ∧ t.seq.hedgeStep ≤ 3
  drops : u.anyRail = false → u.seq.railStep = 0 → t.seq.hedgeStep = 5 ∧ t.seq.run = .hedgeDrop ∧ t.seq.stepAt = t.now
    ∧ t.seq.hedgeEnd = t.now + 66 * 6144

theorem hedgeAtOnce_drops (u : State) : u.hedgeAtOnce.seq.hedgeStep = 5 ∧ u.hedgeAtOnce.seq.run = .hedgeDrop
    ∧ u.hedgeAtOnce.seq.stepAt = u.hedgeAtOnce.now ∧ u.hedgeAtOnce.seq.hedgeEnd = u.hedgeAtOnce.now + 66 * 6144 := by
  have now : u.hedgeAtOnce.now = u.now := (hedgeAtOnce_lowered u).now
  exact ⟨rfl, rfl, now.symm, by rw [now]; rfl⟩

theorem takeover_ordered {s : State} (cause : Nat) (free : s.seq.hedge = false) :
    (s.seized cause).tryRelock.Ordered (s.takeover cause) := by
  have step : (s.seized cause).tryRelock.seq.hedgeStep = 1 := by rw [(seized_seized s cause).seq]
  rw [takeover_eq cause free]
  generalize (s.seized cause).tryRelock = u at step ⊢
  dsimp only
  split
  · rename_i idle
    have down : u.anyRail = false := by simpa using (Bool.and_eq_true_iff.mp idle).1
    exact ⟨hedgeAtOnce_lowered u, fun up => absurd (up.symm.trans down) (by decide), fun _ _ => hedgeAtOnce_drops u⟩
  · rename_i busy
    have lowered := beginRailDown_lowered (s := u) .hedge (.inl (.inr (.inr rfl)))
    have order (up : u.anyRail = true) := beginRailDown_goes_down (s := u) .hedge (.inl up)
    have still (up : u.anyRail = true) := (beginRailDown_hedgeStep (s := u) .hedge (.inl up)).trans step
    have never (down : u.anyRail = false) (idle : u.seq.railStep = 0) : False := busy (by rw [down, idle]; rfl)
    generalize u.beginRailDown .hedge = v at lowered order still
    split
    · refine ⟨lowered.trans ⟨rfl, rfl, rfl, fun _ => rfl⟩, fun up => ?_, fun down idle => (never down idle).elim⟩
      obtain ⟨after, rising, going⟩ := order up
      exact ⟨after, going, rising, Nat.le_refl 3⟩
    · refine ⟨lowered, fun up => ?_, fun down idle => (never down idle).elim⟩
      obtain ⟨after, rising, going⟩ := order up
      exact ⟨after, going, rising, by rw [still up]; decide⟩

/-- A takeover, whatever its trigger. -/
theorem takeover_takenOver {s : State} (cause : Nat) (free : s.seq.hedge = false) : s.takenOver (s.takeover cause) cause
    ∧ (s.takeover cause).now = s.now ∧ (s.takeover cause).clock = s.relockTried
    ∧ (s.takeover cause).rtc = { s.rtc with bak := setBit s.rtc.bak 2 true }
    ∧ (s.takeover cause).flt = { s.flt with first := s.flt.first.or (some (98, s.scan.frame.toNat % 65536)), react := none } := by
  have seized := seized_seized s cause
  obtain ⟨lowered, falls, drops⟩ := takeover_ordered cause free
  generalize (s.seized cause).tryRelock = u at seized lowered falls drops
  generalize s.takeover cause = t at lowered falls drops
  have acted : u.anyRail = s.anyRail := by rw [State.anyRail, seized.seq, State.anyRail]
  refine ⟨⟨?_, ?_, ?_, ?_, ?_, ?_, ?_, ?_, ?_, ?_, ?_, ?_, fun up => falls (acted.trans up), fun down idle => drops (acted.trans down) ?_⟩,
    lowered.now.trans seized.now, lowered.clock.trans seized.clock, lowered.rtc.trans seized.rtc, lowered.flt.trans seized.flt⟩
  · rw [lowered.hedge, seized.seq]
  · rw [lowered.cause, seized.seq]
  · rw [lowered.phase (by rw [seized.seq]), seized.seq]
  · rw [lowered.pwr, seized.pwr]
  · rw [lowered.scan, seized.scan.1]
  · rw [lowered.scan, seized.scan.2]
  · rw [lowered.flt, seized.flt]
  · rw [lowered.rtc, seized.rtc]
    exact setBit_self _ (by decide)
  · rw [lowered.acc, seized.posted]
  · rw [lowered.mem, seized.mem]
  · rw [lowered.otp, seized.otp]
  · rw [lowered.link, seized.version]
  · rw [seized.seq]
    exact idle

end Sys2Proof.Machine
end

section
/-! PROOFS. What a stop of OTP programming leaves where no more of it is possible (R451, R452, R455), and the clock's events
(R288, R295, R296, R312). -/

namespace Sys2Proof.Machine

/-! ### OTP programming stops (R455) -/

/-- From s to t only the OTP's record, the COMMIT that waits for it and the window change, and the model's free values. -/
def State.Pulsed (s t : State) : Prop := t = { s with free := t.free, otp := t.otp, alm.ctrBusy := t.alm.ctrBusy, rw := t.rw }

theorem State.Pulsed.refl (s : State) : s.Pulsed s := rfl

theorem State.Pulsed.trans {s t u : State} (h : s.Pulsed t) (g : t.Pulsed u) : s.Pulsed u := by
  unfold State.Pulsed at *
  rw [h] at g
  exact g

theorem typesetFor_pulsed (s : State) (rb : Bool) : s.Pulsed (s.typesetFor rb) := by
  unfold State.typesetFor
  split
  · rfl
  · split <;> rfl

theorem sealCounted_pulsed (s : State) : s.Pulsed s.sealCounted := by
  have counted : s.Pulsed { s with otp.openings := s.otp.openings - 1, rw.postSeal := s.counter ctrSeal } := rfl
  unfold State.sealCounted
  dsimp only
  split
  · exact counted
  · exact counted.trans (typesetFor_pulsed _ false)

theorem pulseOp_pulsed (s : State) (e : OtpEnd) : s.Pulsed (s.pulseOp e) := by
  unfold State.pulseOp
  split <;> rfl

/-- Nothing that waits begins while programming is not possible (R452). -/
theorem otpNext_unable {s : State} (unable : s.progOk = false) : s.otpNext = s := if_pos (by rw [unable, Bool.not_false, Bool.or_true])

/-- Programming is possible, or not, as the supply, the lock and the backup domain have it. -/
theorem progOk_congr {s t : State} (supply : t.otp.supplyOk = s.otp.supplyOk) (clock : t.clock = s.clock) (rtc : t.rtc = s.rtc) :
    t.progOk = s.progOk := by
  rw [State.progOk, supply, clock, rtc, State.progOk]

/-- What follows the pulses of an operation: a COMMIT's counter, a seal opening counted, a healing that is due. -/
def State.pulsesEnd (s : State) (o : OtpOp) (before : Nat) (e : OtpEnd) : State :=
  match o with
  | .commit _ _ => match s.otp.commitTo with
    | some x => if s.raisedTo ctrAlmanac x.1 x.2 then { s with otp.commitTo := none, alm.ctrBusy := false } else s
    | none => s
  | .sealCount => if before < s.counterCells ctrSeal then
      { s.sealCounted with otp.healDue := s.sealCounted.otp.healDue || e.completed.isSome } else s
  | .heal => { s with otp.healDue := e.completed.isSome }
  | _ => s

theorem pulsesEnd_pulsed (s : State) (o : OtpOp) (before : Nat) (e : OtpEnd) : s.Pulsed (s.pulsesEnd o before e)
    ∧ (s.pulsesEnd o before e).otp.supplyOk = s.otp.supplyOk := by
  have counted := sealCounted_pulsed s
  have supply : s.sealCounted.otp.supplyOk = s.otp.supplyOk := by
    unfold State.sealCounted
    dsimp only
    split
    · rfl
    · unfold State.typeset State.typesetFor
      split
      · rfl
      · split <;> rfl
  cases o with
  | program w d => exact ⟨rfl, rfl⟩
  | raise c a b => exact ⟨rfl, rfl⟩
  | margin c w => exact ⟨rfl, rfl⟩
  | heal => exact ⟨rfl, rfl⟩
  | commit c t =>
    unfold State.pulsesEnd
    dsimp only
    split
    · split <;> exact ⟨rfl, rfl⟩
    · exact ⟨rfl, rfl⟩
  | sealCount =>
    unfold State.pulsesEnd
    dsimp only
    split
    · exact ⟨counted.trans rfl, supply⟩
    · exact ⟨rfl, rfl⟩

theorem otpDone_pulses {s : State} {o : OtpOp} (e : OtpEnd) (busy : s.otp.op = some o) (pulses : ∀ c w, o ≠ .margin c w) :
    s.otpDone e = (State.pulsesEnd { s.pulseOp (s.fitEnd e) with otp.op := none } o (s.counterCells ctrSeal) (s.fitEnd e)).otpNext := by
  rw [State.otpDone, busy]
  cases o with
  | margin c w => exact absurd rfl (pulses c w)
  | program w d => rfl
  | raise c a b => rfl
  | heal => rfl
  | commit c t => rfl
  | sealCount => rfl

theorem otpDone_unable {s : State} {o : OtpOp} (e : OtpEnd) (busy : s.otp.op = some o) (pulses : ∀ c w, o ≠ .margin c w)
    (unable : s.progOk = false) :
    s.otpDone e = State.pulsesEnd { s.pulseOp (s.fitEnd e) with otp.op := none } o (s.counterCells ctrSeal) (s.fitEnd e) := by
  have kept : (s.pulseOp (s.fitEnd e)).otp.supplyOk = s.otp.supplyOk := by
    unfold State.pulseOp
    split <;> rfl
  have pulsed := pulseOp_pulsed s (s.fitEnd e)
  rw [otpDone_pulses e busy pulses]
  generalize s.pulseOp (s.fitEnd e) = u at kept pulsed ⊢
  obtain ⟨ended, supply⟩ := pulsesEnd_pulsed { u with otp.op := none } o (s.counterCells ctrSeal) (s.fitEnd e)
  refine otpNext_unable ((progOk_congr (s := s) ?_ ?_ ?_).trans unable)
  · rw [supply]; exact kept
  · rw [ended, pulsed]
  · rw [ended, pulsed]

/-- A stop of programming, where none can go on, changes the OTP's records alone. -/
theorem stopPulses_pulsed {s : State} (unable : s.progOk = false) : s.Pulsed s.stopPulses
    ∧ s.stopPulses.otp.supplyOk = s.otp.supplyOk := by
  unfold State.stopPulses
  split
  · exact ⟨rfl, rfl⟩
  · exact ⟨rfl, rfl⟩
  · rename_i o none_ busy
    have drawn : s.draw.2.otp.op = some o := busy
    rw [otpDone_unable (s := s.draw.2) (s.cutPlace s.draw.1) drawn none_ unable]
    have kept : (s.draw.2.pulseOp (s.draw.2.fitEnd (s.cutPlace s.draw.1))).otp.supplyOk = s.otp.supplyOk := by
      unfold State.pulseOp
      split <;> rfl
    have first : s.Pulsed s.draw.2 := rfl
    have pulsed := first.trans (pulseOp_pulsed s.draw.2 (s.draw.2.fitEnd (s.cutPlace s.draw.1)))
    generalize s.draw.2.pulseOp (s.draw.2.fitEnd (s.cutPlace s.draw.1)) = u at kept pulsed ⊢
    obtain ⟨ended, supply⟩ := pulsesEnd_pulsed { u with otp.op := none } o (s.draw.2.counterCells ctrSeal)
      (s.draw.2.fitEnd (s.cutPlace s.draw.1))
    have idle : u.Pulsed { u with otp.op := none } := rfl
    exact ⟨(pulsed.trans idle).trans ended, supply.trans kept⟩

end Sys2Proof.Machine
end

section
/-! PROOFS. The triggers of the hedge, the relock and writes of the rail-enable word (R287, R288, R295, R312, R331, R334, R341). -/

namespace Sys2Proof.Machine

/-! ### Takeovers after a fault's record -/

/-- A takeover is of any state that has the same rails, memories, writes in flight and version. -/
theorem State.takenOver_of {s u t : State} {cause : Nat} (taken : u.takenOver t cause) (hedgeCause : u.seq.hedgeCause = s.seq.hedgeCause)
    (acted : u.seq.acted = s.seq.acted) (railStep : u.seq.railStep = s.seq.railStep) (posted : u.acc.posted = s.acc.posted)
    (mem : u.mem = s.mem) (strap : u.strap = s.strap) (otp : u.otp = s.otp) (version : u.link.version = s.link.version) :
    s.takenOver t cause := by
  have rails : u.anyRail = s.anyRail := by rw [State.anyRail, acted, State.anyRail]
  unfold State.takenOver at taken ⊢
  rw [rails, hedgeCause, railStep, posted, otp, version, releaseRows_mem mem strap] at taken
  exact taken

theorem State.Marked.takenOver {s u t : State} {cause : Nat} (marked : s.Marked u) (taken : u.takenOver t cause) : s.takenOver t cause :=
  State.takenOver_of taken (by rw [marked.seq]) (by rw [marked.seq]) (by rw [marked.seq]) (by rw [marked]) marked.mem marked.strap
    marked.otp marked.version

theorem recording_of_e0Runs {s : State} (runs : s.e0Runs = true) : s.recording = true := by
  simp only [State.e0Runs, List.contains_cons, List.contains_nil, Bool.or_false, Bool.or_eq_true, beq_iff_eq] at runs
  unfold State.recording
  rcases runs with h | h | h | h <;> (rw [h]; rfl)

theorem clock_mild : (faultReaction fltXtal = .note ∨ faultReaction fltXtal = .ease)
    ∧ (faultReaction fltXtalStop = .note ∨ faultReaction fltXtalStop = .ease)
    ∧ (faultReaction fltPll = .note ∨ faultReaction fltPll = .ease) := ⟨.inl (by decide), .inl (by decide), .inl (by decide)⟩

/-! ### The crystal's loss (R295) -/

/-- The crystal stopped. -/
def State.xtalStop (s : State) : State :=
  { s with clock.xtalOk := false, clock.xtalStopped := true, rtc.stopAt := s.now, rtc.subHeld := s.now - s.rtc.secondAt
           clock.relock := if s.clock.relock = Relock.running then Relock.none else s.clock.relock }

/-- Its two faults recorded. -/
def State.xtalNoted (s : State) : State := (s.raise fltXtal).raise fltXtalStop

theorem raiseAll_xtal (s : State) : s.raiseAll [fltXtal, fltXtalStop] = s.xtalNoted := by
  have sorted : [fltXtal, fltXtalStop].mergeSort (· ≤ ·) = [fltXtal, fltXtalStop] := List.mergeSort_of_pairwise (by simp [fltXtal, fltXtalStop])
  rw [State.raiseAll, sorted]
  rfl

theorem xtalNoted_marked (s : State) : s.Marked s.xtalNoted :=
  (raise_mild_marked clock_mild.1).trans (raise_mild_marked clock_mild.2.1)

theorem xtalNoted_sticky {s : State} (records : s.recording = true) :
    s.xtalNoted.sticky fltXtal = true ∧ s.xtalNoted.sticky fltXtalStop = true := by
  have first := raise_mild_sticky clock_mild.1 (.inl (by decide)) (s := s) fun _ => records
  unfold State.xtalNoted
  generalize s.raise fltXtal = u at first
  have high : fltXtalStop < 96 → u.recording = true := fun low => absurd low (by decide)
  refine ⟨?_, raise_mild_sticky clock_mild.2.1 (.inr ⟨by decide, by decide⟩) high⟩
  rw [raise_mild clock_mild.2.1 high]
  exact setSticky_sticky_mono u fltXtalStop first

theorem xtalLost_eq {s : State} (alive : s.rtc.alive = true) (ok : s.clock.xtalOk = true) (runs : s.e0Runs = true)
    (free : s.seq.hedge = false) :
    s.xtalLost true = State.takeover { s.xtalStop.xtalNoted with clock.onRc := true } 1 := by
  have marked := xtalNoted_marked s.xtalStop
  have idle : s.xtalStop.xtalNoted.seq.hedge = false := by rw [marked.seq]; exact free
  unfold State.xtalLost
  rw [if_pos ⟨alive, ok⟩]
  dsimp only
  rw [if_pos rfl, raiseAll_xtal, if_pos runs]
  refine congrArg (State.takeover · 1) (if_neg fun h => ?_)
  have taken : s.xtalStop.xtalNoted.seq.hedge = true := h.1
  rw [idle] at taken
  cases taken

/-- The hedge's own bit beside the others of the backup domain. -/
theorem taken_sticky {u t : State} (flt : t.flt = { u.flt with first := t.flt.first, react := none })
    (rtc : t.rtc = { u.rtc with bak := setBit u.rtc.bak 2 true }) {n : Nat} (set : u.sticky n = true) : t.sticky n = true := by
  by_cases low : n < 32
  · rw [sticky_low _ low] at set ⊢
    rw [flt]; exact set
  · by_cases mid : n < 64
    · rw [sticky_mid _ low mid] at set ⊢
      rw [flt]; exact set
    · rw [sticky_high _ low mid] at set ⊢
      rw [rtc]
      exact setBit_true_keeps _ _ set

theorem takeover_sticky {s : State} (cause : Nat) (free : s.seq.hedge = false) {n : Nat} (set : s.sticky n = true) :
    (s.takeover cause).sticky n = true := by
  obtain ⟨-, -, -, rtc, flt⟩ := takeover_takenOver cause free
  exact taken_sticky (by rw [flt]) rtc set

theorem relockTried_stopped {s : State} (stopped : s.clock.xtalOk = false) : s.relockTried = s.clock :=
  if_neg fun h => by rw [stopped] at h; cases h.1

theorem xtalLost_takes {s : State} (alive : s.rtc.alive = true) (ok : s.clock.xtalOk = true) (runs : s.e0Runs = true)
    (free : s.seq.hedge = false) : (s.xtalLost true).now = s.now ∧ s.takenOver (s.xtalLost true) 1
      ∧ (s.xtalLost true).sticky fltXtal = true ∧ (s.xtalLost true).sticky fltXtalStop = true
      ∧ (s.xtalLost true).clock = { s.clock with
          xtalOk := false, xtalStopped := true, onRc := true
          relock := if s.clock.relock = .running then .none else s.clock.relock }
      ∧ (s.xtalLost true).rtc.stopAt = s.now ∧ (s.xtalLost true).rtc.subHeld = s.now - s.rtc.secondAt := by
  have marked := xtalNoted_marked s.xtalStop
  obtain ⟨xtal, stop⟩ := xtalNoted_sticky (s := s.xtalStop) (recording_of_e0Runs (s := s.xtalStop) runs)
  rw [xtalLost_eq alive ok runs free]
  generalize s.xtalStop.xtalNoted = v at marked xtal stop ⊢
  have idle : State.seq { v with clock.onRc := true } = s.seq := marked.seq
  have idle' : (State.seq { v with clock.onRc := true }).hedge = false := by rw [idle]; exact free
  obtain ⟨taken, now, clock, rtc, -⟩ := takeover_takenOver (s := { v with clock.onRc := true }) 1 idle'
  have set := takeover_sticky (s := { v with clock.onRc := true }) 1 idle' xtal
  have set' := takeover_sticky (s := { v with clock.onRc := true }) 1 idle' stop
  have base : v.takenOver _ 1 := State.takenOver_of taken rfl rfl rfl rfl rfl rfl rfl rfl
  have whole : s.takenOver _ 1 := State.takenOver_of (marked.takenOver base) rfl rfl rfl rfl rfl rfl rfl rfl
  refine ⟨now.trans marked.now, whole, set, set', clock.trans ?_, ?_, ?_⟩
  · have stopped : (State.clock { v with clock.onRc := true }).xtalOk = false := congrArg ClockState.xtalOk marked.clock
    rw [relockTried_stopped stopped, marked.clock]
    rfl
  · rw [rtc, marked]; rfl
  · rw [rtc, marked]; rfl

/-! ### Loss of lock (R288, R452) -/

/-- The lock lost, with OTP programming stopped. -/
def State.unlocked (s : State) : State := State.stopPulses { s with clock.pllLock := false }

theorem unlocked_pulsed (s : State) : State.Pulsed { s with clock.pllLock := false } s.unlocked :=
  (stopPulses_pulsed (s := { s with clock.pllLock := false }) (by simp [State.progOk])).1

theorem lockLost_eq {s : State} (lock : s.clock.pllLock = true) : s.lockLost =
    if s.e0Runs then (s.unlocked.raise fltPll).takeover 2
    else { s.unlocked.raise fltPll with up.stage := .pll, up.at_ := s.now, therm.slowOn := false } := if_pos lock

theorem lockLost_takes {s : State} (lock : s.clock.pllLock = true) (runs : s.e0Runs = true) (free : s.seq.hedge = false) :
    s.lockLost.now = s.now ∧ s.unlocked.takenOver s.lockLost 2 ∧ s.lockLost.sticky fltPll = true
      ∧ s.lockLost.clock = ({ s with clock.pllLock := false } : State).relockTried := by
  have pulsed := unlocked_pulsed s
  have records : s.unlocked.recording = true := by
    rw [State.recording, pulsed]
    exact recording_of_e0Runs (s := s) runs
  have marked := raise_mild_marked (s := s.unlocked) clock_mild.2.2
  have set := raise_mild_sticky (s := s.unlocked) clock_mild.2.2 (.inl (by decide)) fun _ => records
  rw [lockLost_eq lock, if_pos runs]
  generalize s.unlocked = u at pulsed marked set ⊢
  generalize u.raise fltPll = v at marked set ⊢
  have idle : v.seq.hedge = false := by rw [marked.seq, pulsed]; exact free
  obtain ⟨taken, now, clock, -, -⟩ := takeover_takenOver 2 idle
  have clock' : v.clock = { s.clock with pllLock := false } := by rw [marked.clock, pulsed]
  have now' : v.now = s.now := by rw [marked.now, pulsed]
  refine ⟨now.trans now', marked.takenOver taken, takeover_sticky 2 idle set, clock.trans ?_⟩
  rw [State.relockTried, clock', now']
  rfl

/-! ### The relock (R287, R288, R312) -/

theorem relocking_iff (s : State) : s.relocking = true ↔ s.clock.relock = .running := by
  unfold State.relocking
  cases s.clock.relock <;> decide

theorem relockDone_idle {s : State} (idle : s.clock.relock ≠ .running) : s.relockDone = s ∧ s.relockFailed = s := by
  have off : ¬ s.relocking = true := fun h => idle ((relocking_iff s).mp h)
  exact ⟨if_neg off, if_neg off⟩

/-- With nothing that waits no operation begins. -/
theorem otpNext_nothing {s : State} (openings : s.otp.openings = 0) (commit : s.otp.commitTo = none) (heal : s.otp.healDue = false) :
    s.otpNext = s := by
  unfold State.otpNext
  rw [openings, commit, heal]
  split
  · rfl
  · rfl

theorem pump_nothing {s : State} (serving : s.link.serving = []) : s.pump = s := by
  have same : { s with link.serving := [] } = s := by rw [← serving]
  unfold State.pump
  rw [serving, same]
  exact ite_self s

theorem relockDone_running {s : State} (serving : s.link.serving = []) (openings : s.otp.openings = 0) (commit : s.otp.commitTo = none)
    (heal : s.otp.healDue = false) (running : s.clock.relock = .running) :
    s.relockDone = if s.clock.xtalOk then { s with
      now := max s.now (s.clock.relockAt + 32 * 6144), clock.relock := .done, clock.pllLock := true } else s := by
  have on : s.relocking = true := (relocking_iff s).mpr running
  have done (u : State) (waits : u.link.serving = []) (o : u.otp = s.otp) :
      State.pump (if u.otpNext.link.serving.isEmpty then u.otpNext else u.otpNext.reach (s.clock.relockAt + usToSclk 2000)) = u := by
    rw [otpNext_nothing (by rw [o]; exact openings) (by rw [o]; exact commit) (by rw [o]; exact heal), waits]
    exact pump_nothing waits
  refine (if_pos on).trans ?_
  cases ok : s.clock.xtalOk with
  | true =>
    have lock : s.relocked = { s with
        now := max s.now (s.clock.relockAt + 32 * 6144), clock.relock := .done, clock.pllLock := true } := if_pos ⟨running, ok⟩
    rw [lock, if_pos rfl]
    exact done _ serving rfl
  | false =>
    have still : s.relocked = s := if_neg fun h => by rw [ok] at h; cases h.2
    rw [still, if_neg (by decide)]
    exact done s serving rfl

theorem relockFailed_running {s : State} (serving : s.link.serving = []) (running : s.clock.relock = .running) :
    s.relockFailed = { s with
      now := max s.now (s.clock.relockAt + usToSclk 2000), clock.relock := .failed, tree.startReg := true } := by
  have on : s.relocking = true := (relocking_iff s).mpr running
  have failed : s.notRelocked = { s with
      now := max s.now (s.clock.relockAt + usToSclk 2000), clock.relock := .failed, tree.startReg := true } := if_pos running
  refine (if_pos on).trans ?_
  rw [failed, ← serving]

end Sys2Proof.Machine
end

section
/-! PROOFS. Writes of the rail-enable word, and its copies in disagreement (R329, R331, R334, R341). -/

namespace Sys2Proof.Machine

/-! ### One bit that a write changes (R334) -/

/-- The sequencer as a write's step finds it. -/
def State.writeBegun (t : State) : State := { t with seq.beganAt := t.now, seq.lone := true }

/-- The step that a bit of a write begins. -/
def State.actBit (t : State) (w : BitVec 9) (k : Nat) : State :=
  if w.getLsbD k then
    if k = 8 then (t.writeBegun.showPhase .railUp).startVcomStep else (t.writeBegun.showPhase .railUp).startUpStep (stepUpOf k)
  else if k = 8 then
    State.downFrom { (State.showPhase { t.writeBegun with seq.dischRaised := false } .railDown).abruptStop with seq.stuckRails := 0 } 0
  else (State.showPhase { t.writeBegun with seq.dischRaised := false } .railDown).dropStep (10 - stepUpOf k)

theorem actOn_eq (s : State) (w : BitVec 9) : s.actOn w = (s.enableChanges w).foldl (fun t k => t.actBit w k) s := rfl

/-- A rail's step up and its step down are the rail's. -/
theorem step_rail : ∀ k : Fin 8, upRail (stepUpOf k.val) = k.val ∧ downRail (10 - stepUpOf k.val) = k.val
    ∧ (10 - stepUpOf k.val = 9 ↔ k.val = 7) := by decide

theorem showPhase_shows {s : State} (p : SeqPhase) (free : s.seq.hedge = false) (phase : s.seq.phase ≠ .delivery) :
    (s.showPhase p).seq.phase = p := by
  rw [State.showPhase, if_neg]
  rintro (h | h)
  · rw [free] at h; cases h
  · exact phase h

/-- The sequencer's record before the drop that a write asks for. -/
def State.dropBegun (t : State) : State := State.showPhase { t.writeBegun with seq.dischRaised := false } .railDown

/-- VCOM's drop asked for alone stops the scan. -/
def State.vcomBegun (t : State) : State := { t.dropBegun.abruptStop with seq.stuckRails := 0 }

theorem dropBegun_frame (t : State) : t.dropBegun = { t with
    seq := { t.seq with beganAt := t.now, lone := true, dischRaised := false, phase := t.dropBegun.seq.phase } } := by
  unfold State.dropBegun
  rw [showPhase_frame]
  rfl

/-- The sequencer's record before the rise that a write asks for. -/
def State.riseBegun (t : State) : State := t.writeBegun.showPhase .railUp

theorem riseBegun_frame (t : State) : t.riseBegun = { t with
    seq := { t.seq with beganAt := t.now, lone := true, phase := t.riseBegun.seq.phase } } := by
  unfold State.riseBegun
  rw [showPhase_frame]
  rfl

section
variable {t : State} {w : BitVec 9}

theorem actBit_rise {k : Nat} (rail : k < 8) (on : w.getLsbD k = true) : t.actBit w k = t.riseBegun.startUpStep (stepUpOf k) := by
  rw [State.actBit, if_pos on, if_neg (by omega)]
  rfl

theorem actBit_vcomRise (on : w.getLsbD 8 = true) : t.actBit w 8 = t.riseBegun.startVcomStep := by
  rw [State.actBit, if_pos on, if_pos rfl]
  rfl

theorem actBit_drop {k : Nat} (rail : k < 8) (off : w.getLsbD k = false) : t.actBit w k = t.dropBegun.dropStep (10 - stepUpOf k) := by
  rw [State.actBit, if_neg (by rw [off]; decide), if_neg (by omega)]
  rfl

theorem vcomBegun_next (up : t.enabled 8 = true) : t.vcomBegun.dropAfter 0 = some 1 := by
  have still : t.vcomBegun.enabled 8 = true := by
    show t.dropBegun.abruptStop.seq.acted.getLsbD 8 = true
    rw [abruptStop_seq, dropBegun_frame]
    exact up
  generalize t.vcomBegun = u at still
  have range : List.range 10 = [0, 1, 2, 3, 4, 5, 6, 7, 8, 9] := rfl
  unfold State.dropAfter
  rw [range]
  simp [still]

theorem actBit_vcomDrop (off : w.getLsbD 8 = false) (up : t.enabled 8 = true) :
    t.actBit w 8 = { (t.vcomBegun.setEnable 8 false).vcomRampDown (t.vcomBegun.now + t.vcomBegun.vcomDownLen) with
      seq.railStep := 1, seq.railAt := t.vcomBegun.now, seq.rising := false, panel.hlNow := none } := by
  have next := vcomBegun_next up
  have drop : t.actBit w 8 = t.vcomBegun.downFrom 0 := by
    rw [State.actBit, if_neg (by rw [off]; decide), if_pos rfl]
    rfl
  rw [drop, downFrom_some next, nextDown_vcom next]

end

/-! ### What a step of a write keeps -/

/-- Time, clock and takeover stay, and the bits of other rails. -/
structure State.Acted (s t : State) (k : Nat) : Prop where
  now : t.now = s.now
  clock : t.clock = s.clock
  hedge : t.seq.hedge = s.seq.hedge
  others : ∀ j, j ≠ k → t.enabled j = s.enabled j

theorem setEnable_others (s : State) {k : Nat} (b : Bool) (small : k < 9) (j : Nat) (ne : j ≠ k) :
    (s.setEnable k b).enabled j = s.enabled j := by
  rw [State.setEnable_enabled _ _ _ _ small, if_neg ne]

theorem actBit_acted {t : State} {w : BitVec 9} {k : Nat} (small : k < 9) (change : w.getLsbD k = false → t.enabled k = true) :
    t.Acted (t.actBit w k) k := by
  have rise := riseBegun_frame t
  have drop := dropBegun_frame t
  rcases Nat.lt_or_ge k 8 with rail | vcom
  · obtain ⟨up, down, -⟩ := step_rail ⟨k, rail⟩
    dsimp only at up down
    cases on : w.getLsbD k with
    | true =>
      rw [actBit_rise rail on]
      generalize t.riseBegun = u at rise
      have others (j : Nat) (ne : j ≠ k) : (u.startUpStep (stepUpOf k)).enabled j = u.enabled j := by
        refine setEnable_others u (k := upRail (stepUpOf k)) true (by omega) j ?_
        rw [up]; exact ne
      exact ⟨by rw [rise]; rfl, by rw [rise]; rfl, by rw [rise]; rfl, fun j ne => (others j ne).trans (by rw [rise]; rfl)⟩
    | false =>
      rw [actBit_drop rail on]
      generalize t.dropBegun = u at drop
      have lowered := dropStep_lowered u (10 - stepUpOf k)
      have others (j : Nat) (ne : j ≠ k) : (u.dropStep (10 - stepUpOf k)).enabled j = u.enabled j := by
        unfold State.dropStep
        split
        · rfl
        · refine setEnable_others u (k := downRail (10 - stepUpOf k)) false (by omega) j ?_
          rw [down]; exact ne
      exact ⟨lowered.now.trans (by rw [drop]), lowered.clock.trans (by rw [drop]), lowered.hedge.trans (by rw [drop]),
        fun j ne => (others j ne).trans (by rw [drop]; rfl)⟩
  · obtain rfl : k = 8 := by omega
    cases on : w.getLsbD 8 with
    | true =>
      rw [actBit_vcomRise on]
      generalize t.riseBegun = u at rise
      have others (j : Nat) (ne : j ≠ 8) : u.startVcomStep.enabled j = u.enabled j := setEnable_others u true (by decide) j ne
      exact ⟨by rw [rise]; rfl, by rw [rise]; rfl, by rw [rise]; rfl, fun j ne => (others j ne).trans (by rw [rise]; rfl)⟩
    | false =>
      rw [actBit_vcomDrop on (change on)]
      have stopped : t.vcomBegun.now = t.now ∧ t.vcomBegun.clock = t.clock ∧ t.vcomBegun.seq.hedge = t.seq.hedge
          ∧ t.vcomBegun.seq.acted = t.seq.acted := by
        unfold State.vcomBegun
        dsimp only
        rw [abruptStop_now, abruptStop_clock, abruptStop_seq, drop]
        exact ⟨rfl, rfl, rfl, rfl⟩
      generalize t.vcomBegun = u at stopped
      obtain ⟨now, clock, hedge, acted⟩ := stopped
      exact ⟨now, clock, hedge, fun j ne => (setEnable_others u false (by decide) j ne).trans (enabled_of_acted acted j)⟩

/-- All the steps of a write keep time, clock and takeover. -/
theorem foldl_actBit (w : BitVec 9) (l : List Nat) : ∀ t : State, l.Nodup → (∀ k ∈ l, k < 9) →
    (∀ k ∈ l, w.getLsbD k = false → t.enabled k = true) →
    (l.foldl (fun t k => t.actBit w k) t).now = t.now ∧ (l.foldl (fun t k => t.actBit w k) t).clock = t.clock
      ∧ (l.foldl (fun t k => t.actBit w k) t).seq.hedge = t.seq.hedge := by
  induction l with
  | nil => exact fun t _ _ _ => ⟨rfl, rfl, rfl⟩
  | cons k l ih =>
    intro t nodup small change
    obtain ⟨fresh, rest⟩ := List.nodup_cons.mp nodup
    have acted := actBit_acted (small k List.mem_cons_self) (change k List.mem_cons_self)
    obtain ⟨now, clock, hedge⟩ := ih (t.actBit w k) rest (fun j mem => small j (List.mem_cons_of_mem _ mem)) fun j mem off => by
      rw [acted.others j fun same => fresh (same ▸ mem)]
      exact change j (List.mem_cons_of_mem _ mem) off
    exact ⟨now.trans acted.now, clock.trans acted.clock, hedge.trans acted.hedge⟩

theorem actOn_keeps (s : State) (w : BitVec 9) :
    (s.actOn w).now = s.now ∧ (s.actOn w).clock = s.clock ∧ (s.actOn w).seq.hedge = s.seq.hedge := by
  rw [actOn_eq]
  refine foldl_actBit w _ s (List.nodup_range.filter _) (fun k mem => ?_) fun k mem off => ?_
  · exact List.mem_range.mp (List.mem_filter.mp mem).1
  · have changed := (List.mem_filter.mp mem).2
    rw [off] at changed
    simpa using changed

end Sys2Proof.Machine
end

section
/-! PROOFS. Every trigger of the hedge, the relock and the rail-enable word, together. -/

namespace Sys2Proof.Machine

/-! ### A write of one bit (R334) -/

theorem railVote_legal {s : State} {x : BitVec 9} (runs : s.e0Runs = true) (free : s.seq.hedge = false) (legal : s.enableLegal x = true) :
    s.railVote (.write x) = s.actOn x := by
  refine (if_neg (by rw [runs]; decide)).trans ?_
  exact (if_neg (by rw [free]; decide)).trans (if_pos legal)

theorem railVote_illegal {s : State} {x : BitVec 9} (runs : s.e0Runs = true) (free : s.seq.hedge = false)
    (illegal : s.enableLegal x = false) : s.railVote (.write x) = s.raise fltSeqOrder := by
  refine (if_neg (by rw [runs]; decide)).trans ?_
  exact (if_neg (by rw [free]; decide)).trans (if_neg (by rw [illegal]; decide))

theorem enableLegal_none {s : State} {x : BitVec 9} (none_ : s.enableChanges x = []) : s.enableLegal x = true := by
  rw [State.enableLegal, none_]
  rfl

theorem actOn_none {s : State} {x : BitVec 9} (none_ : s.enableChanges x = []) : s.actOn x = s := by
  rw [actOn_eq, none_]
  rfl

theorem actOn_one {s : State} {x : BitVec 9} {k : Nat} (one : s.enableChanges x = [k]) : s.actOn x = s.actBit x k := by
  rw [actOn_eq, one]
  rfl

theorem enableChanges_mem {s : State} {x : BitVec 9} {k : Nat} (one : s.enableChanges x = [k]) : s.enabled k ≠ x.getLsbD k := by
  have mem : k ∈ s.enableChanges x := by rw [one]; exact List.mem_singleton_self k
  have changed := (List.mem_filter.mp mem).2
  simpa using changed

theorem riseBegun_keeps (t : State) : t.riseBegun.now = t.now ∧ t.riseBegun.seq.beganAt = t.now ∧ t.riseBegun.seq.lone = true
    ∧ t.riseBegun.tree = t.tree ∧ t.riseBegun.flt = t.flt ∧ t.riseBegun.mem = t.mem := by
  rw [riseBegun_frame]
  exact ⟨rfl, rfl, rfl, rfl, rfl, rfl⟩

theorem dropBegun_keeps (t : State) : t.dropBegun.now = t.now ∧ t.dropBegun.seq.beganAt = t.now ∧ t.dropBegun.seq.lone = true
    ∧ t.dropBegun.tree = t.tree ∧ t.dropBegun.flt = t.flt ∧ t.dropBegun.mem = t.mem ∧ t.dropBegun.seq.acted = t.seq.acted
    ∧ t.dropBegun.seq.stuckRails = t.seq.stuckRails := by
  rw [dropBegun_frame]
  exact ⟨rfl, rfl, rfl, rfl, rfl, rfl, rfl, rfl⟩

/-- A rail's rise asked for alone. -/
theorem actBit_riseSet {s : State} {x : BitVec 9} (k : Fin 8) (free : s.seq.hedge = false) (on : x.getLsbD k.val = true) :
    (s.actBit x k).seq.railStep = stepUpOf k.val ∧ (s.actBit x k).seq.rising = true ∧ (s.actBit x k).seq.railAt = s.now
      ∧ (s.actBit x k).seq.beganAt = s.now ∧ (s.actBit x k).seq.lone = true
      ∧ (s.seq.phase ≠ .delivery → (s.actBit x k).seq.phase = .railUp) ∧ (s.actBit x k).enabled k.val = true
      ∧ (s.actBit x k).tree.disch.getLsbD k.val = false ∧ vget (s.actBit x k).tree.trimNow k.val = vget s.tree.trim k.val
      ∧ (s.actBit x k).tree.pg = s.tree.pg ∧ (s.actBit x k).flt = s.flt ∧ (s.actBit x k).mem = s.mem := by
  obtain ⟨now, began, lone, tree, flt, mem⟩ := riseBegun_keeps s
  have shows (phase : s.seq.phase ≠ .delivery) : s.riseBegun.seq.phase = .railUp := showPhase_shows (s := s.writeBegun) _ free phase
  obtain ⟨up, -, -⟩ := step_rail k
  rw [actBit_rise k.isLt on]
  generalize s.riseBegun = u at now began lone tree flt mem shows
  obtain ⟨step, set, disch⟩ := startUpStep_rail u (stepUpOf k.val)
  have trim : vget (u.startUpStep (stepUpOf k.val)).tree.trimNow k.val = vget u.tree.trim k.val := by
    show vget (vset u.tree.trimNow (upRail (stepUpOf k.val)) (vget u.tree.trim (upRail (stepUpOf k.val)))) k.val = _
    rw [up, vget_vset_self _ _ k.isLt]
  have pg : u.tree.pg = s.tree.pg := by rw [tree]
  rw [up] at set disch
  exact ⟨step, rfl, now, began, lone, shows, set, disch, trim.trans (by rw [tree]), pg, flt, mem⟩

/-- A rail's drop asked for alone; VGL waits for the source rails. -/
theorem actBit_dropSet {s : State} {x : BitVec 9} (k : Fin 8) (free : s.seq.hedge = false) (off : x.getLsbD k.val = false)
    (up : s.enabled k.val = true) :
    (s.actBit x k).seq.railStep = 10 - stepUpOf k.val ∧ (s.actBit x k).seq.rising = false ∧ (s.actBit x k).seq.railAt = s.now
      ∧ (s.actBit x k).seq.beganAt = s.now ∧ (s.actBit x k).seq.lone = true
      ∧ (s.seq.phase ≠ .delivery → (s.actBit x k).seq.phase = .railDown) ∧ (s.actBit x k).flt = s.flt ∧ (s.actBit x k).mem = s.mem
      ∧ if k.val = 7 ∧ s.sourcesHeld = true then
          (s.actBit x k).seq.vglHold = true ∧ (s.actBit x k).tree = s.tree ∧ (s.actBit x k).enabled 7 = true
        else (s.actBit x k).enabled k.val = false ∧ (s.actBit x k).tree.disch.getLsbD k.val = true
          ∧ (s.actBit x k).tree.pg = setBit s.tree.pg k.val false ∧ (s.actBit x k).tree.railsUp = false := by
  obtain ⟨now, began, lone, tree, flt, mem, acted, stuck⟩ := dropBegun_keeps s
  have shows (phase : s.seq.phase ≠ .delivery) : s.dropBegun.seq.phase = .railDown :=
    showPhase_shows (s := { s.writeBegun with seq.dischRaised := false }) _ free phase
  obtain ⟨-, down, last⟩ := step_rail k
  rw [actBit_drop k.isLt off]
  generalize s.dropBegun = u at now began lone tree flt mem acted stuck shows
  have held : u.sourcesHeld = s.sourcesHeld := by rw [State.sourcesHeld, stuck, State.sourcesHeld]
  unfold State.dropStep
  split
  · rename_i hold
    have seven := last.mp hold.1
    rw [if_pos ⟨seven, held.symm.trans hold.2⟩]
    have raised : u.enabled 7 = true := (enabled_of_acted acted 7).trans (seven ▸ up)
    exact ⟨hold.1.symm, rfl, now, began, lone, shows, flt, mem, rfl, tree, raised⟩
  · rename_i free
    rw [if_neg fun h => free ⟨last.mpr h.1, held.trans h.2⟩]
    obtain ⟨low, -, disch⟩ := startDrop_rail u (10 - stepUpOf k.val)
    have pg : (u.startDrop (10 - stepUpOf k.val)).tree.pg = setBit u.tree.pg (downRail (10 - stepUpOf k.val)) false := rfl
    rw [down] at low disch pg
    exact ⟨rfl, rfl, now, began, lone, shows, flt, mem, low, disch, pg.trans (by rw [tree]), rfl⟩

/-- VCOM's rise asked for alone. -/
theorem actBit_vcomRiseSet {s : State} {x : BitVec 9} (on : x.getLsbD 8 = true) :
    (s.actBit x 8).seq.railStep = 9 ∧ (s.actBit x 8).seq.rising = true ∧ (s.actBit x 8).seq.railAt = s.now
      ∧ (s.actBit x 8).seq.lone = true ∧ (s.actBit x 8).enabled 8 = true ∧ (s.actBit x 8).tree.railsUp = true
      ∧ (s.actBit x 8).mem = s.mem := by
  have frame := riseBegun_frame s
  rw [actBit_vcomRise on]
  generalize s.riseBegun = u at frame
  obtain ⟨step, set, up⟩ := startVcomStep_rail u
  exact ⟨step, rfl, by rw [frame]; rfl, by rw [frame]; rfl, set, up, by rw [frame]; rfl⟩

/-- VCOM's drop asked for alone: the scan stops. -/
theorem actBit_vcomDropSet {s : State} {x : BitVec 9} (off : x.getLsbD 8 = false) (up : s.enabled 8 = true) :
    (s.actBit x 8).seq.railStep = 1 ∧ (s.actBit x 8).seq.rising = false ∧ (s.actBit x 8).seq.lone = true
      ∧ (s.actBit x 8).enabled 8 = false ∧ (s.actBit x 8).scan.scanning = false ∧ s.memKept (s.actBit x 8) := by
  have frame := dropBegun_frame s
  have seq : s.vcomBegun.seq = { s.dropBegun.seq with stuckRails := 0 } := by
    unfold State.vcomBegun
    dsimp only
    rw [abruptStop_seq]
  have scan : s.vcomBegun.scan.scanning = false := congrArg ScanState.scanning (abruptStop_scan s.dropBegun)
  have mem : s.vcomBegun.mem = s.releaseRows.mem :=
    (abruptStop_mem s.dropBegun).trans (releaseRows_mem (by rw [frame]) (by rw [frame]))
  rw [actBit_vcomDrop off up]
  generalize s.vcomBegun = u at seq scan mem
  have lone : u.seq.lone = true := by rw [seq, frame]
  have low : (u.setEnable 8 false).enabled 8 = false := by
    rw [State.setEnable_enabled _ _ _ _ (by decide), if_pos rfl]
  exact ⟨rfl, rfl, lone, low, scan, .inr mem⟩

/-! ### Copies that disagree (R334, R341) -/

theorem railVote_copies {s : State} {a b c : BitVec 9} (runs : s.e0Runs = true) (free : s.seq.hedge = false) (differ : ¬ (a = b ∧ b = c)) :
    s.railVote (.copies a b c) = State.takeover { (if s.enableLegal (Trip.maj { a := a, b := b, c := c })
      then s.actOn (Trip.maj { a := a, b := b, c := c }) else s) with seq.enable := { a := a, b := b, c := c } } 3 := by
  refine (if_neg (by rw [runs]; decide)).trans ((if_neg differ).trans ?_)
  rw [free]
  rfl

theorem relockTried_congr {s t : State} (clock : t.clock = s.clock) (now : t.now = s.now) : t.relockTried = s.relockTried := by
  rw [State.relockTried, clock, now, State.relockTried]

/-- Settles O54: each trigger ends in the one takeover, and a write in the step of its one rail. -/
theorem hedgeTakesOver : Obligations.HedgeTakesOver := by
  unfold Obligations.HedgeTakesOver
  refine ⟨fun s k kick runs => ⟨fun free => ⟨_, rfl, ?_⟩, fun taken => ?_⟩, fun s alive ok runs free => ⟨_, rfl, xtalLost_takes alive ok runs free⟩,
    fun s lock => ⟨fun runs free => ⟨_, rfl, lockLost_takes lock runs free⟩, fun idle => ⟨_, rfl, ?_⟩⟩,
    fun s serving openings commit heal => ⟨fun running => ⟨?_, ?_⟩, fun idle => ?_⟩, fun s runs free => ⟨fun a b c differ => ⟨_, rfl, ?_⟩,
      fun x none_ => ?_, fun x k one => ⟨fun on legal => ⟨_, rfl, ?_⟩, fun off legal => ⟨_, rfl, ?_⟩⟩,
      fun x one legal => ⟨fun on => ⟨_, rfl, ?_⟩, fun off => ⟨_, rfl, ?_⟩⟩, fun x illegal stays => ⟨_, rfl, ?_⟩⟩⟩
  · have dog : s.watchdog = State.takeover { s with now := max s.now (k + 2097 * 6144) } 0 := by
      rw [State.watchdog, kick]
      exact if_pos runs
    obtain ⟨taken, now, clock, -, -⟩ := takeover_takenOver (s := { s with now := max s.now (k + 2097 * 6144) }) 0 free
    rw [dog]
    exact ⟨now, State.takenOver_of taken rfl rfl rfl rfl rfl rfl rfl rfl, clock⟩
  · show Host.Outcome.next s.watchdog = _
    have dog : s.watchdog = State.takeover { s with now := max s.now (k + 2097 * 6144) } 0 := by
      rw [State.watchdog, kick]
      exact if_pos runs
    rw [dog, takeover_again (s := { s with now := max s.now (k + 2097 * 6144) }) 0 taken]
  · have pulsed := unlocked_pulsed s
    have marked := raise_mild_marked (s := s.unlocked) clock_mild.2.2
    have set (records : s.recording = true) : (s.unlocked.raise fltPll).sticky fltPll = true :=
      raise_mild_sticky clock_mild.2.2 (.inl (by decide)) fun _ => by
        rw [State.recording, pulsed]
        exact records
    rw [lockLost_eq lock, if_neg (by rw [idle]; decide)]
    generalize s.unlocked = u at pulsed marked set ⊢
    generalize u.raise fltPll = v at marked set ⊢
    refine ⟨?_, ?_, ?_, set, ?_, ?_⟩ <;> (rw [marked, pulsed])
  · exact congrArg _ (relockDone_running serving openings commit heal running)
  · exact congrArg _ (relockFailed_running serving running)
  · exact ⟨congrArg _ (relockDone_idle idle).1, congrArg _ (relockDone_idle idle).2⟩
  · have kept : (if s.enableLegal (Trip.maj { a := a, b := b, c := c }) then s.actOn (Trip.maj { a := a, b := b, c := c }) else s).now = s.now
        ∧ (if s.enableLegal (Trip.maj { a := a, b := b, c := c }) then s.actOn (Trip.maj { a := a, b := b, c := c }) else s).clock = s.clock
        ∧ (if s.enableLegal (Trip.maj { a := a, b := b, c := c }) then s.actOn (Trip.maj { a := a, b := b, c := c }) else s).seq.hedge
          = s.seq.hedge := by
      split
      · exact actOn_keeps s _
      · exact ⟨rfl, rfl, rfl⟩
    rw [railVote_copies runs free differ]
    generalize (if s.enableLegal (Trip.maj { a := a, b := b, c := c }) then s.actOn (Trip.maj { a := a, b := b, c := c }) else s) = u at kept ⊢
    obtain ⟨now, clock, hedge⟩ := kept
    obtain ⟨taken, now', clock', -, -⟩ := takeover_takenOver (s := { u with seq.enable := { a := a, b := b, c := c } }) 3 (hedge.trans free)
    exact ⟨now'.trans now, taken, clock'.trans (relockTried_congr (t := { u with seq.enable := { a := a, b := b, c := c } }) clock now)⟩
  · show Host.Outcome.next (s.railVote (.write x)) = _
    rw [railVote_legal runs free (enableLegal_none none_), actOn_none none_]
  · rw [railVote_legal runs free legal, actOn_one one]
    exact actBit_riseSet k free on
  · have up : s.enabled k.val = true := by
      have differ := enableChanges_mem one
      rw [off] at differ
      simpa using differ
    rw [railVote_legal runs free legal, actOn_one one]
    exact actBit_dropSet k free off up
  · rw [railVote_legal runs free legal, actOn_one one]
    exact actBit_vcomRiseSet on
  · have up : s.enabled 8 = true := by
      have differ := enableChanges_mem one
      rw [off] at differ
      simpa using differ
    rw [railVote_legal runs free legal, actOn_one one]
    exact actBit_vcomDropSet off up
  · rw [railVote_illegal runs free illegal]
    have records := recording_of_e0Runs runs
    exact ⟨raise_sticky (.inl (by decide)) (fun _ => records) stays, (raise_faulted fltSeqOrder stays).memKept⟩

end Sys2Proof.Machine
end

section
/-! PROOFS. The ends of a final delivery and of a backup run, and DORMANT as it is entered (R354, R437 to R440). -/

namespace Sys2Proof.Machine

/-! ### DORMANT (R354) -/

/-- DORMANT as it is entered with nothing held: the main domains off. -/
def State.dormantPlain (s : State) : State :=
  State.chargeFollow { s.mainReset with
    pwr.st := .dormant, up := { UpState.reset with stage := .off, at_ := s.now }
    rtc.path := false, rtc.backupRun := false, rtc.deliveryAt := none
    rtc.deliveryDone := false, rtc.runDoneAt := none, rtc.resetDue := false
    rtc.vinBack := false, pwr.vinGone := !s.tree.vinValid || s.rtc.vinBack || s.pwr.vinGone
    acc.posted := s.acc.posted.filter (fun p => p.backup) }

theorem alarmStart_none (s : State) : s.alarmStart 0 = s := by
  unfold State.alarmStart
  exact if_pos rfl

/-- With no wake, no RESET_N and no VIN nothing follows. -/
theorem enterDormant_plain {s : State} (due : s.rtc.resetDue = false) (reset : s.rtc.resetN = false) (vin : s.tree.vinValid = false)
    (held : s.pwr.held = false) (alarm : s.pwr.heldAlarm = 0) : s.enterDormant = s.dormantPlain := by
  unfold State.enterDormant
  dsimp only
  rw [due, reset, vin, held, alarm]
  refine (if_neg (by decide)).trans ((if_neg (by simp)).trans ((if_neg (by simp)).trans ?_))
  rw [if_neg (by decide), if_neg (by decide), alarmStart_none]
  unfold State.dormantPlain
  rw [vin]

theorem dormantPlain_eq (s : State) : s.dormantPlain = { s.mainReset with
    pwr := { s.mainReset.pwr with st := .dormant, vinGone := !s.tree.vinValid || s.rtc.vinBack || s.pwr.vinGone }
    up := { UpState.reset with stage := .off, at_ := s.now }
    rtc := { s.rtc with path := false, backupRun := false, deliveryAt := none, deliveryDone := false, runDoneAt := none, resetDue := false
                        vinBack := false, charging := s.dormantPlain.rtc.charging }
    acc.posted := s.acc.posted.filter (fun p => p.backup) } := by
  unfold State.dormantPlain
  rw [State.mainReset_eq]
  rfl

/-! ### The entry without a wait (R354) -/

/-- The entry to DORMANT as it is marked. -/
def State.unwaited (s : State) : State :=
  { s with pwr.st := .enterDormant, pwr.noWait := true, pwr.change := none, pwr.held := false, pwr.heldAlarm := 0
           pwr.committed := false, flt.react := s.flt.react.map Reacting.inert, up.firstUp := false }

theorem enterUnwaited_scanning {s : State} (scan : s.scan.scanning = true) : s.enterUnwaited = s.unwaited := if_pos scan

theorem enterUnwaited_idle {s : State} (still : s.scan.scanning = false) (idle : s.seqIdle = true) :
    s.enterUnwaited = { s.unwaited with scan.startDue := none } := by
  refine (if_neg (by rw [still]; decide)).trans (if_pos ?_)
  exact idle

/-! ### A delivery's end (R439) -/

theorem deliveryDown_falls {s : State} (up : s.anyRail = true) : s.deliveryDown.seq.after = .delivery ∧ s.deliveryDown.seq.railStep ≠ 0
    ∧ s.deliveryDown.seq.rising = false ∧ s.deliveryDown.rtc.deliveryDone = true ∧ s.deliveryDown.now = s.now
    ∧ s.deliveryDown.mem = s.mem ∧ s.deliveryDown.otp = s.otp ∧ s.deliveryDown.scan = s.scan := by
  have railed : State.anyRail { s with rtc.deliveryDone := true } = true := up
  obtain ⟨after, rising, going⟩ := beginRailDown_goes_down (s := { s with rtc.deliveryDone := true }) .delivery (.inl railed)
  have lowered := beginRailDown_lowered (s := { s with rtc.deliveryDone := true }) .delivery (.inr (.inl railed))
  exact ⟨after, going, rising, congrArg RtcState.deliveryDone lowered.rtc, lowered.now, lowered.mem, lowered.otp, lowered.scan⟩

theorem deliveryLimit_at {s : State} {d : Nat} (delivery : s.rtc.deliveryAt = some d) : s.deliveryLimit =
    if s.rtc.deliveryDone || s.scan.scanning || s.seq.hedge || s.flt.dark then s.reach (d + 49152 * cycle)
    else (s.reach (d + 49152 * cycle)).deliveryDown := by
  rw [State.deliveryLimit, delivery]
  rfl

theorem vbakLow_delivery {s : State} {d : Nat} (delivery : s.rtc.deliveryAt = some d) (done : s.rtc.deliveryDone = false)
    (free : s.seq.hedge = false) (light : s.flt.dark = false) : s.vbakLow = s.abruptStop.deliveryDown := by
  refine (if_neg (by rw [free, light]; decide)).trans ((if_pos (by rw [delivery]; rfl)).trans (if_neg ?_))
  rw [done]
  decide

/-! ### A backup run's end (R440) -/

theorem runEnds_of {s : State} (run : s.rtc.backupRun = true) (e0 : s.e0Runs = true) (st : s.pwr.st ≠ .enterDormant)
    (free : s.seq.hedge = false) (light : s.flt.dark = false) : s.runEnds = true := by
  have other : (s.pwr.st == .enterDormant) = false := beq_eq_false_iff_ne.mpr st
  rw [State.runEnds, run, e0, other, free, light]
  rfl

theorem vbakLow_run {s : State} (run : s.rtc.backupRun = true) (st : s.pwr.st ≠ .enterDormant) (free : s.seq.hedge = false)
    (light : s.flt.dark = false) (delivery : s.rtc.deliveryAt = none) :
    s.vbakLow = if s.e0Runs then s.abruptStop.enterUnwaited else s.enterDormant := by
  have other : (s.pwr.st == .enterDormant) = false := beq_eq_false_iff_ne.mpr st
  refine (if_neg (by rw [free, light]; decide)).trans ((if_neg (by rw [delivery]; decide)).trans (if_pos ?_))
  rw [run, other]
  rfl

theorem backupIdleEnd_done {s : State} (ends : s.runEnds = true) (done : (s.pgh_ 0).state = .done) :
    s.backupIdleEnd = (s.reach (s.rtc.quietAt + 2 * sclkHz)).enterUnwaited := if_pos (by rw [ends, done]; rfl)

theorem backupIdleEnd_busy {s : State} (busy : (s.pgh_ 0).state ≠ .done) : s.backupIdleEnd = s := by
  have other : ((s.pgh_ 0).state == .done) = false := beq_eq_false_iff_ne.mpr busy
  exact if_neg (by rw [other, Bool.and_false]; decide)

theorem backupTimeEnd_at {s : State} {d : Nat} (ends : s.runEnds = true) (done : s.rtc.runDoneAt = some d) :
    s.backupTimeEnd = (s.reach (d + 10 * sclkHz)).enterUnwaited := by
  rw [State.backupTimeEnd, done]
  exact if_pos ends

/-- What the entry without a wait marks. -/
theorem unwaited_marks (s : State) : s.unwaited.now = s.now ∧ s.unwaited.pwr.st = .enterDormant ∧ s.unwaited.pwr.noWait = true
    ∧ s.unwaited.scan = s.scan ∧ s.unwaited.mem = s.mem ∧ s.unwaited.seq = s.seq ∧ s.unwaited.rtc = s.rtc :=
  ⟨rfl, rfl, rfl, rfl, rfl, rfl, rfl⟩

/-- Settles O60: the limits begin the rail-down of a delivery or the unwaited entry of a backup run, where either is in progress. -/
theorem deliveryAndRunEnd : Obligations.DeliveryAndRunEnd := by
  unfold Obligations.DeliveryAndRunEnd
  refine ⟨fun s d delivery => ⟨fun held => ?_, fun done still free light up => ⟨_, rfl, ?_⟩, fun done free light up => ⟨_, rfl, ?_⟩⟩,
    fun s run e0 st free light scan => ⟨fun done => ⟨_, rfl, ?_⟩, fun busy => congrArg _ (backupIdleEnd_busy busy),
      fun d done => ⟨_, rfl, ?_⟩, fun delivery idle => ⟨_, rfl, ?_⟩⟩,
    fun s run e0 st free light delivery reset due vin held alarm => ⟨_, rfl, ?_⟩, fun s run delivery => ⟨?_, ?_, ?_, ?_⟩⟩
  · show Host.Outcome.next s.deliveryLimit = _
    rw [deliveryLimit_at delivery, if_pos (by rcases held with h | h | h | h <;> simp [h])]
    rfl
  · obtain ⟨after, going, rising, ended, now, mem, otp, -⟩ := deliveryDown_falls (s := s.reach (d + 49152 * cycle)) up
    rw [deliveryLimit_at delivery, done, still, free, light, if_neg (by decide)]
    exact ⟨now, ended, after, going, rising, mem, otp⟩
  · have railed : s.abruptStop.anyRail = true := (abruptStop_anyRail s).trans up
    obtain ⟨after, going, rising, ended, now, mem, otp, scan⟩ := deliveryDown_falls railed
    rw [vbakLow_delivery delivery done free light]
    refine ⟨now.trans (abruptStop_now s), ?_, ended, after, going, rising, .inr (mem.trans (abruptStop_mem s)), otp.trans (abruptStop_otp s)⟩
    rw [scan, abruptStop_scan]
  · rw [backupIdleEnd_done (runEnds_of run e0 st free light) done,
      enterUnwaited_scanning (s := s.reach (s.rtc.quietAt + 2 * sclkHz)) scan]
    exact unwaited_marks _
  · rw [backupTimeEnd_at (runEnds_of run e0 st free light) done, enterUnwaited_scanning (s := s.reach (d + 10 * sclkHz)) scan]
    exact unwaited_marks _
  · have still : s.abruptStop.scan.scanning = false := by rw [abruptStop_scan]
    have quiet : s.abruptStop.seqIdle = true := by rw [State.seqIdle, abruptStop_seq]; exact idle
    rw [vbakLow_run run st free light delivery, if_pos e0, enterUnwaited_idle still quiet]
    exact ⟨abruptStop_now s, rfl, rfl, still, .inr (abruptStop_mem s), abruptStop_rtc s⟩
  · rw [vbakLow_run run st free light delivery, if_neg (by rw [e0]; decide), enterDormant_plain due reset vin held alarm, dormantPlain_eq,
      State.mainReset_eq]
    exact ⟨rfl, rfl, rfl, rfl, rfl, rfl, fun none_ => by rw [State.cutOp_idle none_]⟩
  · exact congrArg _ (if_neg (by rw [State.runEnds, run]; simp))
  · show Host.Outcome.next s.backupTimeEnd = _
    unfold State.backupTimeEnd
    split
    · exact congrArg _ (if_neg (by rw [State.runEnds, run]; simp))
    · rfl
  · show Host.Outcome.next s.deliveryLimit = _
    rw [State.deliveryLimit, delivery]
  · show Host.Outcome.next s.vbakLow = _
    unfold State.vbakLow
    rw [delivery, run]
    exact congrArg _ (ite_self s)

end Sys2Proof.Machine
end

section
/-! PROOFS. RESET_N (R343, R347, R455, R480, R481, R487, R488). -/

namespace Sys2Proof.Machine

/-! ### The reset condition (R488) -/

/-- What of the backup domain a reset condition keeps. -/
def RtcState.keeps (r : RtcState) : Calendar × KeptSlot × KeptSlot × BitVec 5 := (r.cal, r.kept0, r.kept1, r.bak)

/-- The reset condition held, with the causes collected and what is kept. -/
structure State.HeldReset (t : State) (causes : BitVec 8) (keeps : Calendar × KeptSlot × KeptSlot × BitVec 5) : Prop where
  stage : t.up.stage = .held
  rstOut : t.up.rstOut = true
  resetN : t.rtc.resetN = true
  causes : t.rtc.causes = causes
  mem : t.mem = MemState.reset
  link : t.link = LinkState.reset
  flt : t.flt = FaultState.reset
  pgh : t.pgh = PghState.reset
  dst : t.rtc.dst = 0 ∧ t.rtc.dstNew = 0 ∧ t.rtc.dstPending = false
  keeps : t.rtc.keeps = keeps

/-- The records that the reset condition drops from the backup domain. -/
def State.resetDropped (s : State) : State :=
  { s with rtc.path := false, rtc.backupRun := false, rtc.deliveryAt := none, rtc.deliveryDone := false
           rtc.runDoneAt := none, rtc.resetDue := false, rtc.vinBack := false, acc.posted := []
           rtc.dst := 0, rtc.dstNew := 0, rtc.dstPending := false }

theorem enterReset_held {s : State} (reset : s.rtc.resetN = true) : s.enterReset =
    { s.resetDropped.mainReset.chargeFollow with up := { UpState.reset with stage := .held, at_ := s.now } } := if_pos reset

theorem enterReset_heldReset {s : State} (reset : s.rtc.resetN = true) : s.enterReset.HeldReset s.rtc.causes s.rtc.keeps := by
  rw [enterReset_held reset, State.mainReset_eq]
  exact ⟨rfl, rfl, reset, rfl, rfl, rfl, rfl, rfl, ⟨rfl, rfl, rfl⟩, rfl⟩

/-! ### RESET_N asserted -/

/-- RESET_N collected as a cause. -/
def State.resetCaused (s : State) : State := State.addCause { s with rtc.resetN := true } wakeResetBit

theorem resetCaused_eq (s : State) : s.resetCaused = { s with rtc.resetN := true, rtc.causes := s.rtc.causes ||| 0x10 } := rfl

/-- The same out of DORMANT. -/
theorem dormantCaused_eq (s : State) : s.resetCaused.addCause wakeDormantBit =
    { s with rtc.resetN := true, rtc.causes := s.rtc.causes ||| 0x90 } := by
  have both : setBit (setBit s.rtc.causes wakeResetBit true) wakeDormantBit true = s.rtc.causes ||| 0x90 := by
    show s.rtc.causes ||| BitVec.ofNat 8 (2 ^ 4) ||| BitVec.ofNat 8 (2 ^ 7) = _
    rw [BitVec.or_assoc]
    rfl
  unfold State.resetCaused State.addCause
  dsimp only
  rw [both]

section
variable {s : State} (released : s.rtc.resetN = false) (alive : s.rtc.alive = true)
include released alive

theorem resetAssert_off (off : s.up.stage = .off) : s.resetAssert = (s.resetCaused.addCause wakeDormantBit).enterReset := by
  exact (if_neg (by rw [released]; decide)).trans ((if_neg (by simp [alive])).trans (if_pos off))

theorem resetAssert_early (on : s.up.stage ≠ .off) (early : s.e0Runs = false) : s.resetAssert = s.resetCaused.enterReset := by
  refine (if_neg (by rw [released]; decide)).trans ((if_neg (by simp [alive])).trans ((if_neg on).trans (if_pos ?_)))
  rw [early]
  rfl

theorem resetAssert_runs (runs : s.e0Runs = true) : s.resetAssert =
    if s.resetOrder then { s with rtc.resetN := true }
    else if s.rtc.deliveryAt.isSome then { s with rtc.resetN := true, rtc.resetDue := true }
    else if s.seq.hedge then
      if s.seq.hedgeStep = 6 then s.resetCaused.enterReset else { s.resetCaused with rtc.resetDue := true }
    else if s.anyRail || !(s.seq.railStep == 0) then (State.stopPulses { s.resetCaused with otp.supplyOk := false }).beginResetOrder
      else (State.stopPulses { s.resetCaused with otp.supplyOk := false }).enterReset := by
  have on : s.up.stage ≠ .off := fun off => by
    rw [State.e0Runs, off] at runs
    cases runs
  exact (if_neg (by rw [released]; decide)).trans ((if_neg (by simp [alive])).trans ((if_neg on).trans
    (if_neg (by rw [runs]; decide))))

end

/-- RESET_N's order begun: programming has stopped, the scan with it, and the rails go down for the reset. -/
theorem beginResetOrder_falls {s : State} (has : s.hasDown) : s.beginResetOrder.seq.after = .reset ∧ s.beginResetOrder.seq.rising = false
    ∧ s.beginResetOrder.seq.railStep ≠ 0 ∧ s.beginResetOrder.flt.react = none ∧ s.beginResetOrder.up.stage = s.up.stage
    ∧ s.beginResetOrder.mem = s.releaseRows.mem ∧ s.beginResetOrder.link = s.link ∧ s.beginResetOrder.otp = s.otp
    ∧ s.beginResetOrder.scan.scanning = false ∧ s.beginResetOrder.rtc = { s.rtc with resetDue := true } := by
  have frame := hedgeStop_frame s
  have mem := hedgeStop_mem s
  have scan := hedgeStop_scan s
  unfold State.beginResetOrder
  dsimp only
  generalize s.hedgeStop = u at frame mem scan
  have down : State.hasDown { u with
      rtc.resetDue := true, flt.react := none, flt.dark := false, up.firstUp := false, seq.run := .none, seq.steps := []
      seq.place := 0, seq.after := .reset, pwr.change := none } := by
    rw [frame]
    exact has
  obtain ⟨after, rising, going⟩ := beginRailDown_goes_down .reset down
  have lowered := beginRailDown_lowered .reset (.inr down)
  refine ⟨after, rising, going, ?_, ?_, lowered.mem.trans mem, ?_, ?_, ?_, ?_⟩
  · rw [lowered.flt]
  · rw [lowered.up, frame]
  · rw [lowered.link, frame]
  · rw [lowered.otp, frame]
  · rw [lowered.scan]; exact scan.1
  · rw [lowered.rtc, frame]

/-- Programming stopped as RESET_N stops it. -/
theorem resetStopped (s : State) : State.Pulsed { s.resetCaused with otp.supplyOk := false }
      (State.stopPulses { s.resetCaused with otp.supplyOk := false })
    ∧ (State.stopPulses { s.resetCaused with otp.supplyOk := false }).otp.supplyOk = false :=
  stopPulses_pulsed (s := { s.resetCaused with otp.supplyOk := false }) rfl

/-- Where nothing is up, or nothing runs, the reset condition is reached at once. -/
theorem resetAssert_held {s : State} (released : s.rtc.resetN = false) (alive : s.rtc.alive = true)
    (down : s.e0Runs = false ∨ s.resetOrder = false ∧ s.rtc.deliveryAt = none
      ∧ (s.seq.hedge = true ∧ s.seq.hedgeStep = 6 ∨ s.seq.hedge = false ∧ s.anyRail = false ∧ s.seq.railStep = 0)) :
    s.resetAssert.HeldReset (s.rtc.causes ||| (if s.up.stage = .off then 0x90 else 0x10)) s.rtc.keeps := by
  by_cases off : s.up.stage = .off
  · rw [resetAssert_off released alive off, dormantCaused_eq, if_pos off]
    exact enterReset_heldReset rfl
  · rw [if_neg off]
    have caused : s.resetCaused.enterReset.HeldReset (s.rtc.causes ||| 0x10) s.rtc.keeps := enterReset_heldReset (s := s.resetCaused) rfl
    cases runs : s.e0Runs with
    | false =>
      rw [resetAssert_early released alive off runs]
      exact caused
    | true =>
      obtain ⟨order, delivery, rails⟩ := down.resolve_left (by rw [runs]; decide)
      rw [resetAssert_runs released alive runs, order, delivery, if_neg (by decide), if_neg (by decide)]
      rcases rails with ⟨taken, last⟩ | ⟨free, low, idle⟩
      · rw [if_pos taken, if_pos last]
        exact caused
      · rw [free, low, idle, if_neg (by decide), if_neg (by decide)]
        obtain ⟨pulsed, -⟩ := resetStopped s
        generalize State.stopPulses { s.resetCaused with otp.supplyOk := false } = u at pulsed
        have rtc : u.rtc = s.resetCaused.rtc := by rw [pulsed]
        have held := enterReset_heldReset (s := u) (by rw [rtc]; rfl)
        rw [rtc] at held
        exact held

/-- RESET_N's order, begun with a rail up or going down. -/
theorem resetAssert_order {s : State} (released : s.rtc.resetN = false) (alive : s.rtc.alive = true) (runs : s.e0Runs = true)
    (order : s.resetOrder = false) (delivery : s.rtc.deliveryAt = none) (free : s.seq.hedge = false)
    (has : s.anyRail = true ∨ s.seq.railStep ≠ 0 ∧ s.seq.rising = false) :
    s.resetAssert.rtc.resetN = true ∧ s.resetAssert.rtc.causes = s.rtc.causes ||| 0x10 ∧ s.resetAssert.scan.scanning = false
      ∧ s.resetAssert.seq.after = .reset ∧ s.resetAssert.seq.rising = false ∧ s.resetAssert.seq.railStep ≠ 0
      ∧ s.resetAssert.flt.react = none ∧ s.resetAssert.up.stage = s.up.stage ∧ s.resetAssert.mem = s.releaseRows.mem
      ∧ s.resetAssert.link = s.link ∧ s.resetAssert.rtc.resetDue = true ∧ s.resetAssert.otp.supplyOk = false := by
  have busy : (s.anyRail || !(s.seq.railStep == 0)) = true := by
    rcases has with up | ⟨going, -⟩
    · rw [up]; rfl
    · rw [beq_eq_false_iff_ne.mpr going, Bool.not_false, Bool.or_true]
  rw [resetAssert_runs released alive runs, order, delivery, if_neg (by decide), if_neg (by decide), free, if_neg (by decide), busy,
    if_pos rfl]
  obtain ⟨pulsed, supply⟩ := resetStopped s
  generalize State.stopPulses { s.resetCaused with otp.supplyOk := false } = u at pulsed supply ⊢
  have seq : u.seq = s.seq := by rw [pulsed]; rfl
  have has' : u.hasDown := by
    rw [State.hasDown, State.anyRail, seq]
    exact has.imp id fun h => ⟨h.1, by rw [h.2]; decide⟩
  obtain ⟨after, rising, going, react, stage, mem, link, otp, scan, rtc⟩ := beginResetOrder_falls has'
  refine ⟨?_, ?_, scan, after, rising, going, react, stage.trans (by rw [pulsed]; rfl), mem.trans (releaseRows_mem ?_ ?_),
    link.trans (by rw [pulsed]; rfl), ?_, by rw [otp, supply]⟩
  · rw [rtc, pulsed]; rfl
  · rw [rtc, pulsed]; rfl
  · rw [pulsed]; rfl
  · rw [pulsed]; rfl
  · rw [rtc]

/-- The start-up that a release in the reset condition begins. -/
theorem resetRelease_held {s : State} (alive : s.rtc.alive = true) (held : s.up.stage = .held) :
    s.resetRelease.rtc.resetN = false ∧ s.resetRelease.up.rstOut = true ∧ s.resetRelease.rtc.cal = s.rtc.cal ∧ s.resetRelease.now = s.now
      ∧ s.resetRelease.mem = MemState.reset
      ∧ if s.clock.xtalOk = true ∧ s.supplied = true then
          s.resetRelease.up.stage = .otp ∧ s.resetRelease.pwr.wake = s.rtc.causes ∧ s.resetRelease.rtc.causes = 0
        else s.resetRelease.up.stage = .wait ∧ s.resetRelease.pwr.wake = s.pwr.wake ∧ s.resetRelease.rtc.causes = s.rtc.causes := by
  have release : s.resetRelease = State.enterStartup { s with rtc.resetN := false } := if_pos ⟨held, alive⟩
  have may : State.mayStart { s with rtc.resetN := false } = (s.supplied && s.clock.xtalOk) := by
    show (s.supplied && s.clock.xtalOk && true && s.rtc.alive) = _
    rw [alive, Bool.and_true, Bool.and_true]
  rw [release, State.enterStartup_eq, State.mainReset_eq, may]
  by_cases ready : s.clock.xtalOk = true ∧ s.supplied = true
  · rw [if_pos ready, ready.1, ready.2]
    exact ⟨rfl, rfl, rfl, rfl, rfl, rfl, rfl, rfl⟩
  · have not_ : (s.supplied && s.clock.xtalOk) = false := by
      rw [Bool.and_comm]
      exact Bool.eq_false_iff.mpr fun h => ready (Bool.and_eq_true_iff.mp h)
    rw [if_neg ready, not_]
    exact ⟨rfl, rfl, rfl, rfl, rfl, rfl, rfl, rfl⟩

/-- Settles O48: what RESET_N's assertion begins by stage, and what its release does. -/
theorem resetPin : Obligations.ResetPin := by
  unfold Obligations.ResetPin
  refine ⟨fun s released alive => ⟨fun runs order => ?_, fun runs order delivery free has => ⟨_, rfl, resetAssert_order released alive runs
      order delivery free has⟩, fun runs order delivery => ?_, fun runs order delivery taken other => ?_, fun down => ⟨_, rfl, ?_⟩⟩,
    fun s => ⟨fun reset => congrArg _ (if_pos reset), fun gone => ?_⟩, fun s alive held => ⟨_, rfl, resetRelease_held alive held⟩,
    fun s other => congrArg _ (if_neg fun h => ?_)⟩
  · show Host.Outcome.next s.resetAssert = _
    rw [resetAssert_runs released alive runs, if_pos order]
  · show Host.Outcome.next s.resetAssert = _
    rw [resetAssert_runs released alive runs, if_neg (by rw [order]; decide), if_pos delivery]
  · show Host.Outcome.next s.resetAssert = _
    rw [resetAssert_runs released alive runs, order, delivery, if_neg (by decide), if_neg (by decide), if_pos taken, if_neg other]
    rfl
  · obtain ⟨stage, rstOut, resetN, causes, mem, link, flt, pgh, ⟨dst, new, pending⟩, keeps⟩ := resetAssert_held released alive down
    simp only [RtcState.keeps, Prod.mk.injEq] at keeps
    obtain ⟨cal, kept0, kept1, bak⟩ := keeps
    exact ⟨stage, rstOut, resetN, causes, mem, link, flt, pgh, dst, new, pending, cal, kept0, kept1, bak⟩
  · show Host.Outcome.next s.resetAssert = _
    unfold State.resetAssert
    rw [gone]
    cases reset : s.rtc.resetN with
    | true => rw [if_pos rfl, ← reset]
    | false => rfl
  · rcases other with stage | gone
    · exact stage h.1
    · rw [gone] at h
      exact absurd h.2 (by decide)

end Sys2Proof.Machine
end

section
/-! PROOFS. VIN's loss, return and overvoltage (R283, R338, R347, R354, R355, R422, R437, R438, R441). -/

namespace Sys2Proof.Machine

/-! ### What a stop of programming leaves of the window (R277) -/

/-- The session and the record under check, which a drawing of the window leaves. -/
def RwState.records (r : RwState) : Option Word × Option (Record × Option Byte × Nat) := (r.session, r.checking)

theorem typesetFor_records (s : State) (rb : Bool) : (s.typesetFor rb).rw.records = s.rw.records := by
  unfold State.typesetFor
  split
  · rfl
  · split <;> rfl

theorem sealCounted_records (s : State) : s.sealCounted.rw.records = s.rw.records := by
  unfold State.sealCounted
  dsimp only
  split
  · rfl
  · exact typesetFor_records _ false

theorem pulsesEnd_records (s : State) (o : OtpOp) (before : Nat) (e : OtpEnd) :
    (s.pulsesEnd o before e).rw.records = s.rw.records := by
  unfold State.pulsesEnd
  split
  · split
    · split <;> rfl
    · rfl
  · split
    · exact sealCounted_records s
    · rfl
  · rfl
  · rfl

theorem stopPulses_records {s : State} (unable : s.progOk = false) : s.stopPulses.rw.records = s.rw.records := by
  unfold State.stopPulses
  split
  · rfl
  · rfl
  · rename_i o none_ busy
    have drawn : s.draw.2.otp.op = some o := busy
    rw [otpDone_unable (s := s.draw.2) (s.cutPlace s.draw.1) drawn none_ unable, pulsesEnd_records]
    unfold State.pulseOp
    split <;> rfl

/-! ### Rails raised (R330, R333) -/

/-- From s to t the sequencer raises a rail, or the scan is due: the front light and VIN stay, and every other block. -/
structure State.Raised (s t : State) : Prop where
  frame : t = { s with seq := t.seq, panel := t.panel, tree := t.tree, scan := t.scan }
  led : t.tree.led = s.tree.led
  vin : t.tree.vinValid = s.tree.vinValid

theorem State.Raised.refl (s : State) : s.Raised s := ⟨rfl, rfl, rfl⟩

theorem nextUp_raised (s : State) (k : Nat) : s.Raised (s.nextUp k) := by
  rw [nextUp_eq]
  split
  · exact ⟨rfl, rfl, rfl⟩
  · exact ⟨rfl, rfl, rfl⟩

theorem beginRailUp_raised (s : State) : s.Raised s.beginRailUp := by
  unfold State.beginRailUp
  rw [showPhase_frame]
  dsimp only
  obtain ⟨frame, led, vin⟩ := nextUp_raised { s with seq.phase := (s.showPhase .railUp).seq.phase, seq.beganAt := s.now, seq.lone := false } 0
  exact ⟨frame, led, vin⟩

theorem deliveryUp_raised (s : State) : s.Raised s.deliveryUp := by
  unfold State.deliveryUp
  split
  · exact State.Raised.refl s
  · split
    · split
      · exact State.Raised.refl s
      · exact ⟨rfl, rfl, rfl⟩
    · exact beginRailUp_raised s

/-! ### Final delivery begins (R438) -/

theorem abortLoad_frame (s : State) :
    s.abortLoad = { s with alm := s.abortLoad.alm, otp := s.abortLoad.otp, acc.armed := s.abortLoad.acc.armed } := by
  unfold State.abortLoad
  split <;> rfl

/-- A front-light channel off. -/
def Led.dark (l : Led) : Led := { l with on := false, onWas := false, soft := none }

theorem lightsOff_off (s : State) {n : Nat} (small : n < 8) : (vget s.lightsOff.tree.led n).on = false :=
  congrArg Led.on (vget_vmapIdx s.tree.led (fun _ => Led.dark) small)

/-- What a final delivery begun shows. -/
structure State.DeliveryBegun (s t : State) : Prop where
  st : t.pwr.st = .delivery
  at_ : t.rtc.deliveryAt = some s.now
  path : t.rtc.path = true
  react : t.flt.react = none
  mem : t.mem = s.mem
  guarded : t.acc.guarded = s.acc.guarded
  checking : t.rw.checking = none
  dark : ∀ n, n < 8 → (vget t.tree.led n).on = false
  vin : t.tree.vinValid = s.tree.vinValid
  serving : t.link.serving = s.link.serving

/-- The loads off, before delivery is marked. -/
def State.unloaded (s : State) : State := (s.abortLoad.lightsOff).dropItems false (s.now + usToSclk 2000)

/-- Delivery marked. -/
def State.deliveryMarked (s t : State) : State :=
  { t with
    pwr.st := .delivery, pwr.change := none, pwr.held := false, pwr.committed := false, pwr.noWait := false
    seq.phase := .delivery, seq.skip := if s.windowUsesSix then 2 else 18, seq.run := .none, seq.steps := [], seq.place := 0
    seq.after := .nothing
    flt.react := none, up.firstUp := false, rtc.deliveryAt := some s.now, rtc.deliveryDone := false, rtc.path := true
    rtc.isolated := true
    rw.checking := none, rw.waiting := none, rw.rx := [], rw.requestDue := none, rw.requestWaits := false, rw.poff := true
    rw.typesetting := none, rw.typesetAgain := false, rw.firstDraw := false }

theorem beginDelivery_eq (s : State) : s.beginDelivery = ((s.deliveryMarked s.unloaded).typesetFor false).deliveryUp := rfl

theorem beginDelivery_begun (s : State) : s.DeliveryBegun s.beginDelivery := by
  have aborted := abortLoad_frame s
  have items : s.abortLoad.lightsOff.itemsOnly s.unloaded := dropItems_items _ _ _
  have off := fun n small => lightsOff_off s.abortLoad (n := n) small
  rw [beginDelivery_eq]
  have led : s.unloaded.tree.led = s.abortLoad.lightsOff.tree.led := by rw [items]
  have mem : s.unloaded.mem = s.mem := by rw [items]; show s.abortLoad.mem = _; rw [aborted]
  have guarded : s.unloaded.acc.guarded = s.acc.guarded := by rw [items]; show s.abortLoad.acc.guarded = _; rw [aborted]
  have vin : s.unloaded.tree.vinValid = s.tree.vinValid := by rw [items]; show s.abortLoad.tree.vinValid = _; rw [aborted]
  have link : s.unloaded.link = s.link := by rw [items]; show s.abortLoad.link = _; rw [aborted]
  clear items aborted
  generalize s.unloaded = t at led mem guarded vin link ⊢
  have drawn := typesetFor_pulsed (s.deliveryMarked t) false
  have checking := congrArg Prod.snd (typesetFor_records (s.deliveryMarked t) false)
  change (State.typesetFor _ false).rw.checking = none at checking
  generalize (s.deliveryMarked t).typesetFor false = u at drawn checking ⊢
  obtain ⟨frame, ledUp, vinUp⟩ := deliveryUp_raised u
  generalize u.deliveryUp = v at frame ledUp vinUp ⊢
  rw [frame]
  rw [drawn] at ledUp vinUp ⊢
  refine ⟨rfl, rfl, rfl, rfl, mem, guarded, checking, fun n small => ?_, ?_, ?_⟩
  · show (vget v.tree.led n).on = false
    rw [ledUp]
    show (vget t.tree.led n).on = false
    rw [led]
    exact off n small
  · exact vinUp.trans vin
  · exact congrArg LinkState.serving link

/-! ### VIN's loss (R347, R354, R437) -/

/-- VIN lost, before programming stops. -/
def State.vinGone (s : State) : State :=
  { s with tree.vinValid := false, rtc.charging := false, rtc.testing := none, rtc.onBackup := true
           rtc.vinLostAt := s.now
           pwr.vinGone := s.pwr.vinGone || s.up.stage == Stage.off, otp.supplyOk := false
           rw.checking := none, rw.waiting := none
           acc.guarded := if s.delivers && !s.resetOrder then s.acc.guarded.map (fun g => { g with reply := false }) else [] }

/-- VIN lost, with programming stopped. -/
def State.vinLost (s : State) : State := s.vinGone.stopPulses

theorem vinLost_pulsed (s : State) : s.vinGone.Pulsed s.vinLost :=
  (stopPulses_pulsed (s := s.vinGone) rfl).1

theorem vinLost_stage (s : State) : s.vinLost.up = s.up := by rw [vinLost_pulsed s]; rfl

theorem vinLost_delivers (s : State) : s.vinLost.delivers = s.delivers := by
  have session : s.vinLost.rw.session = s.rw.session := congrArg Prod.fst (stopPulses_records (s := s.vinGone) rfl)
  unfold State.delivers
  rw [session, vinLost_pulsed s]
  rfl

/-- What VIN's loss begins, by stage. -/
def State.lossActs (s : State) : State :=
  match s.up.stage with
  | .off => s
  | .held => { s with tree.startReg := false }
  | .wait | .otp | .otpFail | .straps | .pll | .boot => s.enterDormant
  | _ =>
    if s.resetOrder || s.rtc.deliveryAt.isSome then s
    else if s.seq.hedge then (if s.seq.hedgeStep = 6 then s.enterDormant else s)
    else if s.delivers then s.beginDelivery
    else if s.pwr.st = .enterDormant then (if s.pwr.committed then s else s.enterUnwaited)
    else s.enterUnwaited

theorem vinLoss_eq {s : State} (alive : s.rtc.alive = true) (vin : s.tree.vinValid = true) (conn : s.rtc.vbakConn = true) :
    s.vinLoss = s.vinLost.lossActs := by
  refine (if_neg (by rw [conn, Bool.not_true, Bool.and_false]; decide)).trans (if_pos ?_)
  rw [vin, alive]
  rfl

theorem vinLoss_unsupplied {s : State} (alive : s.rtc.alive = true) (vin : s.tree.vinValid = true) (conn : s.rtc.vbakConn = false) :
    s.vinLoss = State.powerOff { s with tree.vinValid := false } := if_pos (by rw [vin, alive, conn]; rfl)

theorem lossActs_complete {s : State} (complete : s.up.stage = .complete) (order : s.resetOrder = false)
    (delivery : s.rtc.deliveryAt = none) (free : s.seq.hedge = false) : s.lossActs =
      if s.delivers then s.beginDelivery
      else if s.pwr.st = .enterDormant then (if s.pwr.committed then s else s.enterUnwaited)
      else s.enterUnwaited := by
  unfold State.lossActs
  rw [complete]
  refine (if_neg ?_).trans (if_neg ?_)
  · rw [order, delivery]; decide
  · rw [free]; decide

theorem lossActs_off {s : State} (off : s.up.stage = .off) : s.lossActs = s := by
  rw [State.lossActs, off]

theorem lossActs_held {s : State} (held : s.up.stage = .held) : s.lossActs = { s with tree.startReg := false } := by
  rw [State.lossActs, held]

theorem lossActs_early {s : State}
    (early : s.up.stage = .wait ∨ s.up.stage = .otp ∨ s.up.stage = .straps ∨ s.up.stage = .pll ∨ s.up.stage = .boot) :
    s.lossActs = s.enterDormant := by
  unfold State.lossActs
  rcases early with h | h | h | h | h <;> rw [h]

/-! ### VIN's return (R355, R440, R441) -/

/-- VIN valid again, before what it begins. -/
def State.vinBack (s : State) : State :=
  { s with tree.vinValid := true, rtc.onBackup := false
           tree.startReg := s.tree.startReg || (s.up.stage == .held || s.up.stage == .wait) }

theorem vinReturn_eq {s : State} (alive : s.rtc.alive = true) (gone : s.tree.vinValid = false) : s.vinReturn =
    if s.vinBack.up.stage = .off then State.enterStartup ((s.vinBack.addCause wakeVinBit).addCause wakeDormantBit)
    else if s.vinBack.up.stage = .wait then State.tryTimeZero { s.vinBack with rtc.backupRun := false }
    else if s.vinBack.up.stage = .held then s.vinBack
    else if s.vinBack.rtc.backupRun ∧ s.vinBack.pwr.st ≠ .enterDormant ∧ ¬ s.vinBack.seq.hedge then s.vinBack.endBackupRun
    else State.countRace { s.vinBack with rtc.vinBack := true }
      (if s.vinBack.pwr.st = .enterDormant ∧ s.vinBack.raceWindow then 1 else 0) 0 :=
  if_pos (by rw [alive, gone]; rfl)

theorem chargeFollow_frame (s : State) : s.chargeFollow = { s with rtc.charging := s.chargeFollow.rtc.charging } := rfl

/-- A start-up whose time zero has come. -/
theorem enterStartup_zero {s : State} (may : s.mayStart = true) : s.enterStartup.up.stage = .otp
    ∧ s.enterStartup.tree.vinValid = s.tree.vinValid ∧ s.enterStartup.rtc.onBackup = s.rtc.onBackup
    ∧ s.enterStartup.pwr.wake = s.rtc.causes ∧ s.enterStartup.rtc.causes = 0 ∧ s.enterStartup.up.rstOut = true
    ∧ s.enterStartup.rtc.cal = s.rtc.cal := by
  rw [State.enterStartup_eq, State.mainReset_eq, may]
  exact ⟨rfl, rfl, rfl, rfl, rfl, rfl, rfl⟩

/-- VIN's return and DORMANT's end as causes of the start-up. -/
theorem vinCaused_causes (s : State) : ((s.addCause wakeVinBit).addCause wakeDormantBit).rtc.causes = s.rtc.causes ||| 0x88 := by
  show s.rtc.causes ||| BitVec.ofNat 8 (2 ^ 3) ||| BitVec.ofNat 8 (2 ^ 7) = _
  rw [BitVec.or_assoc]
  rfl

/-! ### VIN's overvoltage (R300, R338) -/

theorem raiseLevel_faulted {s : State} (n : Nat) (already : Bool) (stays : s.staysUp) : s.Faulted (s.raiseLevel n already) := by
  unfold State.raiseLevel
  split
  · unfold State.redetect
    split
    · exact (setSticky_marked s n).faulted
    · exact (State.Marked.refl s).faulted
  · exact raise_faulted n stays

theorem raiseLevel_sticky {s : State} {n : Nat} (number : stickyNumber n) (already : Bool) (records : s.recording = true) (stays : s.staysUp) :
    (s.raiseLevel n already).sticky n = true := by
  unfold State.raiseLevel
  split
  · unfold State.redetect
    split
    · exact setSticky_sticky s number
    · rename_i other
      rw [records] at other
      simpa using other
  · exact raise_sticky number (fun _ => records) stays

theorem supFirst_isSome (s : State) (source kind : Nat) : (s.supFirst source kind).seq.first.isSome = true := by
  cases seen : s.seq.first with
  | none => rw [supFirst_none source kind seen]; rfl
  | some x => rw [supFirst_some source kind seen, seen]; rfl

theorem vinOver_faulted {s : State} (stays : s.staysUp) (records : s.recording = true) :
    s.vinOver.tree.vinOv = true ∧ s.vinOver.now = s.now ∧ s.vinOver.sticky fltVinOv = true ∧ s.vinOver.seq.first.isSome = true := by
  have raised : s.vinOver = (State.supFirst { s with tree.vinOv := true } 8 1).raiseLevel fltVinOv (s.injected fltVinOv) := if_pos records
  have noted := supFirst_noted { s with tree.vinOv := true } 8 1
  have some_ := supFirst_isSome { s with tree.vinOv := true } 8 1
  have shown : (State.supFirst { s with tree.vinOv := true } 8 1).tree.vinOv = true := by rw [supFirst_frame]
  rw [raised]
  generalize State.supFirst { s with tree.vinOv := true } 8 1 = u at noted some_ shown
  have up : u.staysUp := noted.stays stays
  have faulted := raiseLevel_faulted fltVinOv (s.injected fltVinOv) up
  refine ⟨faulted.vinOv.trans shown, faulted.now.trans noted.now, ?_, ?_⟩
  · exact raiseLevel_sticky (.inl (by decide)) _ (noted.recording.trans records) up
  · rw [faulted.first, some_]

/-- Settles O47: VIN's loss by stage, its return, and its overvoltage. -/
theorem vinEvents : Obligations.VinEvents := by
  unfold Obligations.VinEvents
  refine fun s alive => ⟨fun vin conn => ⟨_, rfl, ?_⟩, fun vin conn => ?_, fun gone => ⟨fun off xtal reset => ⟨_, rfl, ?_⟩,
    fun wait xtal reset => ⟨_, rfl, ?_⟩, fun complete run => ⟨_, rfl, ?_⟩⟩, fun stays => ⟨_, rfl, ?_⟩, fun none_ => ?_⟩
  · rw [vinLoss_unsupplied alive vin conn, pump_nothing rfl]
    refine ⟨rfl, rfl, rfl, rfl, rfl, ?_, rfl, fun idle => ?_⟩
    · show (State.cutOp { s with tree.vinValid := false }).rtc.comp = _
      rw [State.cutOp_eq]
    · show (State.cutOp { s with tree.vinValid := false }).otp.words = _ ∧ (State.cutOp { s with tree.vinValid := false }).otp.thermo = _
      rw [State.cutOp_idle (s := { s with tree.vinValid := false }) idle]
      exact ⟨rfl, rfl⟩
  · have acts : exec .vinLoss s = .next s.vinLost.lossActs.pump :=
      congrArg (fun t : State => Host.Outcome.next t.pump) (vinLoss_eq alive vin conn)
    have pulsed := vinLost_pulsed s
    have up := vinLost_stage s
    have delivering := vinLost_delivers s
    rw [acts]
    show (s.up.stage = .off → Host.Outcome.next s.vinLost.lossActs.pump = .next s.vinLost.pump)
      ∧ (s.up.stage = .held → _ = Host.Outcome.next (State.pump { s.vinLost with tree.startReg := false })) ∧ _ ∧ _
      ∧ (_ → _ → _ → _ → _ → _ → _ → _ = Host.Outcome.next s.vinLost.unwaited.pump)
    generalize s.vinLost = w at pulsed up delivering ⊢
    refine ⟨fun off => ?_, fun held => ?_, fun early due reset held alarm => ⟨_, rfl, ?_⟩,
      fun complete order delivery free delivers serving => ⟨_, rfl, ?_⟩, fun complete order delivery free delivers scan other => ?_⟩
    · rw [lossActs_off (by rw [up]; exact off)]
    · rw [lossActs_held (by rw [up]; exact held)]
    · have rtc : w.rtc = s.vinGone.rtc := by rw [pulsed]
      have plain : w.enterDormant = w.dormantPlain := enterDormant_plain (by rw [rtc]; exact due) (by rw [rtc]; exact reset)
        (by rw [pulsed]; rfl) (by rw [pulsed]; exact held) (by rw [pulsed]; exact alarm)
      rw [lossActs_early (by rw [up]; exact early), plain, dormantPlain_eq, State.mainReset_eq, rtc, pump_nothing rfl]
      exact ⟨rfl, rfl, rfl, rfl, rfl, rfl, rfl⟩
    · have begins : w.lossActs = w.beginDelivery := by
        rw [lossActs_complete (by rw [up]; exact complete) (by rw [pulsed]; exact order) (by rw [pulsed]; exact delivery)
          (by rw [pulsed]; exact free), delivering, delivers]
        rfl
      have begun := beginDelivery_begun w
      have none_ : w.link.serving = [] := by rw [pulsed]; exact serving
      have kept : w.acc.guarded = s.acc.guarded.map (fun g => { g with reply := false }) := by
        rw [pulsed]
        refine if_pos ?_
        rw [delivers, order]
        rfl
      rw [begins, pump_nothing (begun.serving.trans none_)]
      refine ⟨begun.st, begun.at_.trans ?_, begun.path, begun.react, begun.mem.trans ?_, begun.guarded.trans kept, begun.checking, begun.dark,
        begun.vin.trans ?_⟩
      all_goals
        rw [pulsed]
        rfl
    · have st : w.pwr.st ≠ .enterDormant := by rw [pulsed]; exact other
      have begins : w.lossActs = w.enterUnwaited := by
        rw [lossActs_complete (by rw [up]; exact complete) (by rw [pulsed]; exact order) (by rw [pulsed]; exact delivery)
          (by rw [pulsed]; exact free), delivering, delivers, if_neg st]
        rfl
      rw [begins, enterUnwaited_scanning (by rw [pulsed]; exact scan)]
  · have may : ((s.vinBack.addCause wakeVinBit).addCause wakeDormantBit).mayStart = true := by
      show (true && s.clock.xtalOk && !s.rtc.resetN && s.rtc.alive) = true
      rw [xtal, reset, alive]
      rfl
    obtain ⟨stage, vin, backup, wake, causes, rstOut, cal⟩ := enterStartup_zero may
    rw [vinReturn_eq alive gone, if_pos (show s.vinBack.up.stage = .off from off)]
    generalize State.enterStartup _ = u at stage vin backup wake causes rstOut cal
    exact ⟨stage, vin, backup, wake.trans (vinCaused_causes s.vinBack), causes, rstOut, cal⟩
  · have zero : State.tryTimeZero { s.vinBack with rtc.backupRun := false } = { s.vinBack with
        pwr.wake := s.rtc.causes, rtc := { s.vinBack.rtc with
          backupRun := false, causes := 0, path := s.rtc.path && false, isolated := s.rtc.isolated && false, vinBack := false }
        up.stage := .otp, up.at_ := s.now } :=
      if_pos ⟨wait, rfl, xtal, by show ¬ s.rtc.resetN = true; rw [reset]; decide, alive⟩
    rw [vinReturn_eq alive gone, if_neg (by show s.up.stage ≠ .off; rw [wait]; decide), if_pos (show s.vinBack.up.stage = .wait from wait), zero]
    exact ⟨rfl, rfl, rfl⟩
  · have stage : s.vinBack.up.stage = .complete := complete
    rw [vinReturn_eq alive gone, stage, if_neg (by decide), if_neg (by decide), if_neg (by decide),
      if_neg (by show ¬ (s.rtc.backupRun = true ∧ _); rw [run]; exact fun h => absurd h.1 (by decide))]
    exact ⟨rfl, rfl, rfl, rfl, rfl⟩
  · cases records : s.recording with
    | true =>
      obtain ⟨shown, now, sticky, first⟩ := vinOver_faulted stays records
      exact ⟨shown, now, fun _ => ⟨sticky, first⟩, fun h => absurd h (by decide)⟩
    | false =>
      have silent : s.vinOver = { s with tree.vinOv := true } := if_neg (by show ¬ s.recording = true; rw [records]; decide)
      rw [silent]
      exact ⟨rfl, rfl, fun h => absurd h (by decide), fun _ => rfl⟩
  · show Host.Outcome.next s.vinOverEnds = _
    unfold State.vinOverEnds State.tryReactUp
    rw [none_]

end Sys2Proof.Machine
end

section
/-! PROOFS. The second's tick, the charger, the gauge and VBAK's supply (R421 to R434). -/

namespace Sys2Proof.Machine

/-! ### What alarms leave (R427, R428) -/

/-- From s to t time stays, and of the backup domain only what a start-up takes changes: its causes, its path and the matcher. -/
def State.woken (s t : State) : Prop := t.now = s.now ∧ t.rtc = { s.rtc with
  armed := t.rtc.armed, causes := t.rtc.causes, path := t.rtc.path, isolated := t.rtc.isolated, vinBack := t.rtc.vinBack
  backupRun := t.rtc.backupRun }

theorem State.woken.refl (s : State) : s.woken s := ⟨rfl, rfl⟩

theorem State.woken.trans {s t u : State} (h : s.woken t) (g : t.woken u) : s.woken u := by
  obtain ⟨now, rtc⟩ := h
  obtain ⟨now', rtc'⟩ := g
  refine ⟨now'.trans now, ?_⟩
  rw [rtc] at rtc'
  exact rtc'

theorem woken_of_rtc {s t : State} (now : t.now = s.now) (rtc : t.rtc = s.rtc) : s.woken t := ⟨now, by rw [rtc]⟩

theorem addCause_woken (s : State) (b : Nat) : s.woken (s.addCause b) := ⟨rfl, rfl⟩

theorem enterStartup_woken (s : State) : s.woken s.enterStartup := by
  rw [State.enterStartup_eq, State.mainReset_eq]
  refine ⟨rfl, ?_⟩
  dsimp only
  split <;> rfl

theorem enterBackupRun_woken (s : State) : s.woken s.enterBackupRun := by
  have marked : s.woken { s with rtc.backupRun := true, rtc.path := true, rtc.isolated := true } := ⟨rfl, rfl⟩
  exact marked.trans (enterStartup_woken _)

theorem tryTimeZero_woken (s : State) : s.woken s.tryTimeZero := by
  unfold State.tryTimeZero
  split
  · exact ⟨rfl, rfl⟩
  · exact State.woken.refl s

theorem alarmCauses_woken (s : State) (a : BitVec 2) : s.woken (s.alarmCauses a) := by
  have first : s.woken (if a.getLsbD 0 then s.addCause wakeAlarm1Bit else s) := by
    split
    · exact addCause_woken s _
    · exact State.woken.refl s
  unfold State.alarmCauses
  dsimp only
  split
  · exact first.trans (addCause_woken _ _)
  · exact first

theorem alarmStart_woken (s : State) (a : BitVec 2) : s.woken (s.alarmStart a) := by
  have caused := (alarmCauses_woken s a).trans (addCause_woken _ wakeDormantBit)
  unfold State.alarmStart
  dsimp only
  split
  · exact State.woken.refl s
  · split
    · exact caused.trans (enterStartup_woken _)
    · split
      · exact caused.trans (enterBackupRun_woken _)
      · exact State.woken.refl s

/-- An alarm that a start-up's wait for supply takes. -/
theorem alarmWait_woken (s : State) (a : BitVec 2) :
    s.woken (State.tryTimeZero { s.alarmCauses a with rtc.backupRun := true, rtc.path := true, rtc.isolated := true }) := by
  have marked : (s.alarmCauses a).woken { s.alarmCauses a with rtc.backupRun := true, rtc.path := true, rtc.isolated := true } := ⟨rfl, rfl⟩
  exact ((alarmCauses_woken s a).trans marked).trans (tryTimeZero_woken _)

theorem alarmEffect_woken (s : State) (a : BitVec 2) : s.woken (s.alarmEffect a) := by
  have counted (n : Nat) : s.woken (s.countRace n 0) := ⟨rfl, rfl⟩
  unfold State.alarmEffect
  split
  · exact State.woken.refl s
  · split
    · split
      · exact alarmStart_woken s a
      · exact State.woken.refl s
    · split
      · split
        · exact alarmWait_woken s a
        · exact State.woken.refl s
      · dsimp only
        split
        · exact ⟨rfl, rfl⟩
        · exact (counted _).trans (woken_of_rtc (State.attend_now _) (State.attend_rtc _))

theorem flagAlarms_woken (s : State) (a : BitVec 2) : s.woken (s.flagAlarms a) := by
  unfold State.flagAlarms
  split
  · exact State.woken.refl s
  · exact ⟨rfl, rfl⟩

/-! ### The second (R424 to R430) -/

/-- The moment at which a second ends. -/
def State.tickAt (s : State) : Nat := max s.now (s.rtc.secondAt + secondCycles s.rtc.adj s.rtc.period * 6144)

/-- The summer-time commands that a second takes. -/
def State.tickNet (s : State) : Int := if s.tickAt ≤ s.rtc.dstAt then s.rtc.dst else s.rtc.dst + s.rtc.dstNew

/-- The second counted, before the period moves. -/
def State.tickCounted (s : State) : State :=
  let n := s.tickAt
  let c := s.rtc.cal.second.step s.tickNet
  { s with now := n, rtc.cal := c, rtc.secondAt := n, rtc.dst := 0, rtc.dstNew := if n ≤ s.rtc.dstAt then s.rtc.dstNew else 0
           rtc.dstPending := s.rtc.dstPending && decide (n ≤ s.rtc.dstAt)
           rtc.alm1F := s.rtc.alm1F || alarmMatches c s.rtc.alm1 s.rtc.alm1D
           rtc.alm2F := s.rtc.alm2F || alarmMatches c s.rtc.alm2 s.rtc.alm2D }

/-- The period moves. -/
def State.periodMoved (s : State) : State := if s.rtc.period = 63 then s.newPeriod else { s with rtc.period := s.rtc.period + 1 }

theorem rtcTick_woken {s : State} (alive : s.rtc.alive = true) (ok : s.clock.xtalOk = true) :
    s.tickCounted.periodMoved.woken s.rtcTick := by
  have ticked : s.rtcTick = (s.tickCounted.periodMoved.flagAlarms (BitVec.ofNat 2
      (bw (alarmMatches s.tickCounted.rtc.cal s.rtc.alm1 s.rtc.alm1D) 0 + bw (alarmMatches s.tickCounted.rtc.cal s.rtc.alm2 s.rtc.alm2D) 1))).alarmEffect
      (BitVec.ofNat 2
      (bw (alarmMatches s.tickCounted.rtc.cal s.rtc.alm1 s.rtc.alm1D) 0 + bw (alarmMatches s.tickCounted.rtc.cal s.rtc.alm2 s.rtc.alm2D) 1)) := by
    unfold State.rtcTick
    rw [if_pos (by rw [alive, ok]; rfl)]
    unfold State.tickCounted State.tickNet State.tickAt
    simp only [decide_eq_true_eq]
    rfl
  rw [ticked]
  exact (flagAlarms_woken _ _).trans (alarmEffect_woken _ _)

theorem periodMoved_now (s : State) : s.periodMoved.now = s.now := by
  unfold State.periodMoved
  split <;> rfl

/-- The period, and the rate with its temperature, are all that moves. -/
theorem periodMoved_rtc (s : State) : s.periodMoved.rtc = { s.rtc with
    period := if s.rtc.period = 63 then 0 else s.rtc.period + 1
    temp := s.periodMoved.rtc.temp, adj := s.periodMoved.rtc.adj } := by
  unfold State.periodMoved
  split <;> rfl

theorem periodMoved_steady {s : State} (steady : s.rtc.period ≠ 63) : s.periodMoved.rtc.adj = s.rtc.adj
    ∧ s.periodMoved.rtc.temp = s.rtc.temp := by
  rw [State.periodMoved, if_neg steady]
  exact ⟨rfl, rfl⟩

theorem periodMoved_anew {s : State} (anew : s.rtc.period = 63) : s.periodMoved.rtc.adj = adjOf s.rtc.comp s.periodMoved.rtc.temp := by
  rw [State.periodMoved, if_pos anew]
  rfl

/-! ### The calendar (R424 to R426) -/

theorem Calendar.step_none {c : Calendar} (hour : c.hour < 24) : c.step 0 = c := by
  have same : (((c.hour : Int) + 0) % 24).toNat = c.hour := by omega
  have still : Int.fdiv ((c.hour : Int) + 0) 24 = 0 := by
    rw [Int.fdiv_eq_ediv_of_nonneg _ (by decide)]
    omega
  unfold Calendar.step
  dsimp only
  rw [still, same, if_pos (Int.le_refl 0)]
  rfl

theorem Calendar.second_low {c : Calendar} (low : c.sec < 59) : c.second = { c with sec := c.sec + 1 } := if_pos low

theorem Calendar.second_leapDay : Calendar.second { sec := 59, min := 59, hour := 23, day := 28, month := 2, year := 24, weekday := 3 }
    = { sec := 0, min := 0, hour := 0, day := 29, month := 2, year := 24, weekday := 4 } := by decide

theorem Calendar.second_newCentury : Calendar.second { sec := 59, min := 59, hour := 23, day := 31, month := 12, year := 99, weekday := 4 }
    = { sec := 0, min := 0, hour := 0, day := 1, month := 1, year := 0, weekday := 6 } := by decide

/-! ### The charger and the gauge (R431 to R433) -/

theorem gaugeStart_at {s : State} {at_ : Nat} (alive : s.rtc.alive = true) (vin : s.tree.vinValid = true) (idle : s.rtc.testing = none)
    (delivery : s.rtc.deliveryAt = none) (due : s.rtc.gaugeAt = some at_) : s.gaugeStart = if s.bakBin = 15 then s else
      { s with now := max s.now (at_ + (if s.bakBin ≤ 1 then 86400 else 64) * 201326592)
               rtc.testing := some (max s.now (at_ + (if s.bakBin ≤ 1 then 86400 else 64) * 201326592))
               rtc.gaugeAt := some (max s.now (at_ + (if s.bakBin ≤ 1 then 86400 else 64) * 201326592)), rtc.charging := false } := by
  rw [State.gaugeStart, due, alive, vin, idle, delivery]
  by_cases none_ : s.bakBin = 15
  · rw [if_pos none_]
    exact if_neg (by rw [none_]; decide)
  · rw [if_neg none_]
    exact if_pos (by rw [beq_eq_false_iff_ne.mpr none_]; rfl)

theorem usableOf_super {b v0 v1 v20 : Nat} (super : bakSuper b = true) (low : (2 * (v0 : Int)) ≤ 1300 + 4 * ((v0 : Int) - v1)) :
    usableOf b v0 v1 v20 = 0 := by
  have other : b ≠ 15 := fun h => by
    rw [h] at super
    exact absurd super (by decide)
  refine (if_neg other).trans ((if_pos super).trans ?_)
  exact if_pos low

theorem usableOf_plain {b v0 v1 v20 : Nat} (plain : bakSuper b = false) (other : b ≠ 15) :
    usableOf b v0 v1 v20 = if (1400 : Int) ≤ 2 * v0 - 4 * ((v0 : Int) - v1) then 65535 else 0 := by
  refine (if_neg other).trans (if_neg ?_)
  rw [plain]
  decide

/-- Settles O59: the second is counted whatever its alarms begin, and the reserve follows its readings. -/
theorem calendarAndReserve : Obligations.CalendarAndReserve := by
  unfold Obligations.CalendarAndReserve
  refine ⟨fun s alive ok => ⟨_, rfl, ?_⟩, fun s still => ?_, fun s alive vin idle delivery => ⟨fun none_ => ?_, fun at_ due => ?_⟩,
    fun s at_ v0 v1 v20 testing => ⟨_, rfl, ?_⟩, fun s charging => ?_, fun s full on plain => ?_, fun s => rfl, fun s vin => ?_,
    fun s vin alive => ⟨_, rfl, ?_⟩⟩
  · obtain ⟨now, rtc⟩ := rtcTick_woken alive ok
    generalize s.rtcTick = t at now rtc ⊢
    have moved := periodMoved_rtc s.tickCounted
    have steady := periodMoved_steady (s := s.tickCounted)
    have anew := periodMoved_anew (s := s.tickCounted)
    rw [periodMoved_now] at now
    have cal : t.rtc.cal = s.rtc.cal.second.step s.tickNet := by rw [rtc, moved]; rfl
    have counted (net : s.tickNet = 0) (hour : s.rtc.cal.second.hour < 24) : t.rtc.cal = s.rtc.cal.second := by
      rw [cal, net, Calendar.step_none hour]
    refine ⟨now, ?_, cal, ?_, ?_, ?_, fun net low hour => ?_, fun net day => ?_, fun net day => ?_, ?_, ?_, ?_, fun other => ?_,
      fun last => ?_, ?_, ?_, ?_⟩
    · rw [now, rtc, moved]; rfl
    · rw [rtc, moved]; rfl
    · rw [rtc, moved]; rfl
    · rw [rtc, moved]; rfl
    · rw [counted net (by rw [Calendar.second_low low]; exact hour), Calendar.second_low low]
    · rw [counted net (by rw [day, Calendar.second_leapDay]; decide), day, Calendar.second_leapDay]
    · rw [counted net (by rw [day, Calendar.second_newCentury]; decide), day, Calendar.second_newCentury]
    · rw [rtc, moved]; rfl
    · rw [rtc, moved]; rfl
    · rw [rtc, moved]; rfl
    · rw [rtc]; exact steady other
    · rw [rtc]; exact anew last
    · rw [rtc, moved]; rfl
    · rw [rtc, moved]; rfl
    · rw [rtc, moved]; rfl
  · exact congrArg _ (if_neg (by rcases still with h | h <;> rw [h] <;> simp))
  · show Host.Outcome.next s.gaugeStart = _
    rw [State.gaugeStart, none_]
  · exact congrArg _ (gaugeStart_at alive vin idle delivery due)
  · show State.now (s.gaugeDone v0 v1 v20) = _ ∧ _
    rw [State.gaugeDone, testing]
    exact ⟨rfl, rfl, rfl, rfl, rfl, fun h => if_pos h, usableOf_plain, usableOf_super, rfl, rfl, rfl, rfl⟩
  · exact congrArg _ (if_pos charging)
  · refine congrArg _ ((if_pos (by rw [full, on, plain]; rfl)).trans ?_)
    have goes : (State.chargeFollow { s with rtc.full := false }).rtc.charging = true := by
      show (s.chargerOn && (!false || s.nimh)) = true
      rw [on]
      rfl
    rw [chargeFollow_frame, goes]
  · exact congrArg _ (if_pos (by rw [vin]; rfl))
  · have off : s.vbakCutoff = State.powerOff { s with rtc.vbakConn := false } := if_neg (by rw [vin, alive]; decide)
    rw [off]
    refine ⟨rfl, ?_, rfl, rfl, rfl, rfl, rfl, fun idle => ?_⟩
    · show (State.cutOp { s with rtc.vbakConn := false }).rtc.vbakConn = false
      rw [State.cutOp_eq]
    · show (State.cutOp { s with rtc.vbakConn := false }).otp.words = _ ∧ (State.cutOp { s with rtc.vbakConn := false }).otp.thermo = _
      rw [State.cutOp_idle (s := { s with rtc.vbakConn := false }) idle]
      exact ⟨rfl, rfl⟩

end Sys2Proof.Machine
end

section
/-! PROOFS. The ends of OTP operations, and the supply window (R443 to R445, R449 to R451, R453, R455). -/

namespace Sys2Proof.Machine

/-! ### Words and their check bits (R444) -/

/-- The data bits of a code word. -/
theorem otpEncode_data (d : Word) : (otpEncode d).setWidth 32 = d := by
  refine BitVec.eq_of_toNat_eq ?_
  have small := d.isLt
  rw [BitVec.toNat_setWidth]
  unfold otpEncode
  dsimp only
  generalize (otpHamming d + 64 * ((popcount 32 d.toNat + popcount 6 (otpHamming d)) % 2)) ^^^ 0x55 = x
  rw [BitVec.toNat_ofNat]
  omega

theorem otpEncode_clean (d : Word) : otpClean (otpEncode d) = true := by
  rw [otpClean, otpEncode_data, beq_self_eq_true]

theorem otpEncode_ne_zero (d : Word) : otpEncode d ≠ 0 := by
  intro none_
  have zero : d = 0 := by rw [← otpEncode_data d, none_]; rfl
  rw [zero] at none_
  exact absurd none_ (by decide)

/-- A word that holds a code word reads its data with no error. -/
theorem reads_encoded {x : OtpWord} {d : Word} (bits : x.bits = otpEncode d) : x.value = d ∧ x.ecc = 0 := by
  have full : x.blank = false := by
    rw [OtpWord.blank, bits, beq_eq_false_iff_ne.mpr (otpEncode_ne_zero d)]
    rfl
  refine ⟨?_, ?_⟩
  · rw [OtpWord.value, bits, if_pos (otpEncode_clean d), otpEncode_data]
  · rw [OtpWord.ecc, full, bits, otpEncode_clean]
    rfl

/-! ### Pulses on a word (R445) -/

/-- The bits that a program is to set, in its order. -/
def targetBits (target : BitVec 39) : List Nat := (List.range 39).filter (fun i => target.getLsbD i)

theorem mem_targetBits {target : BitVec 39} {b : Nat} : b ∈ targetBits target ↔ b < 39 ∧ target.getLsbD b = true := by
  rw [targetBits, List.mem_filter, List.mem_range]

/-- One pulse in its place. -/
def pulseBit (target : BitVec 39) (e : OtpEnd) (x : OtpWord) (i : Nat) : OtpWord :=
  let b := (targetBits target).getD i 0
  let k := e.completed.getD (targetBits target).length
  if i < k ∧ ¬ e.weak.contains i then { bits := setBit x.bits b true, marginal := setBit x.marginal b false }
  else if i < k ∨ (i = k ∧ e.marginalNext) then (if x.bits.getLsbD b then x else { x with marginal := setBit x.marginal b true })
  else x

theorem pulseWord_eq (x : OtpWord) (target : BitVec 39) (e : OtpEnd) :
    pulseWord x target e = (List.range (targetBits target).length).foldl (pulseBit target e) x := rfl

theorem setBit_ones {w : BitVec 39} {b j : Nat} (set : (setBit w b true).getLsbD j = true) : w.getLsbD j = true ∨ j = b := by
  by_cases same : j = b
  · exact .inr same
  · by_cases small : b < 39
    · rw [setBit_getLsbD w b j true small, if_neg same] at set
      exact .inl set
    · have none_ : BitVec.ofNat 39 (2 ^ b) = 0 := by
        refine BitVec.eq_of_toNat_eq ?_
        rw [BitVec.toNat_ofNat]
        exact Nat.mod_eq_zero_of_dvd (Nat.pow_dvd_pow 2 (by omega))
      rw [setBit, if_pos rfl, none_] at set
      exact .inl (by simpa using set)

theorem pulseBit_adds {target : BitVec 39} {e : OtpEnd} {x : OtpWord} {i j : Nat} (place : i < (targetBits target).length)
    (set : (pulseBit target e x i).bits.getLsbD j = true) : x.bits.getLsbD j = true ∨ target.getLsbD j = true := by
  have at_ : target.getLsbD ((targetBits target).getD i 0) = true := by
    rw [List.getD_eq_getElem _ _ place]
    exact (mem_targetBits.1 (List.getElem_mem place)).2
  unfold pulseBit at set
  dsimp only at set
  generalize (targetBits target).getD i 0 = b at set at_
  split at set
  · rcases setBit_ones set with h | rfl
    · exact .inl h
    · exact .inr at_
  · split at set
    · split at set <;> exact .inl set
    · exact .inl set

/-- A program adds no bit but those it is to set. -/
theorem pulseWord_adds (x : OtpWord) (target : BitVec 39) (e : OtpEnd) {j : Nat}
    (set : (pulseWord x target e).bits.getLsbD j = true) : x.bits.getLsbD j = true ∨ target.getLsbD j = true := by
  rw [pulseWord_eq] at set
  have reach : ∀ n ≤ (targetBits target).length, ((List.range n).foldl (pulseBit target e) x).bits.getLsbD j = true →
      x.bits.getLsbD j = true ∨ target.getLsbD j = true := by
    intro n
    induction n with
    | zero => exact fun _ h => .inl h
    | succ n ih =>
      intro le h
      rw [List.range_succ, List.foldl_append] at h
      rcases pulseBit_adds (by omega) h with earlier | new
      · exact ih (by omega) earlier
      · exact .inr new
  exact reach _ (Nat.le_refl _) set

/-- Every bit taking its pulses. -/
def fullPulses : OtpEnd := { completed := none, marginalNext := false, weak := [] }

theorem pulseBit_full {target : BitVec 39} {x : OtpWord} {i : Nat} (place : i < (targetBits target).length) :
    pulseBit target fullPulses x i = { bits := setBit x.bits ((targetBits target).getD i 0) true
                                       marginal := setBit x.marginal ((targetBits target).getD i 0) false } :=
  if_pos ⟨place, by simp [fullPulses]⟩

theorem pulseWord_full {x : OtpWord} (target : BitVec 39) (blank : x.blank = true) :
    pulseWord x target fullPulses = { bits := target, marginal := 0 } := by
  obtain ⟨bits, marginal⟩ : x.bits = 0 ∧ x.marginal = 0 := by simpa [OtpWord.blank] using blank
  have reach : ∀ n ≤ (targetBits target).length, ((List.range n).foldl (pulseBit target fullPulses) x).marginal = 0
      ∧ ∀ j, ((List.range n).foldl (pulseBit target fullPulses) x).bits.getLsbD j = decide (j ∈ (targetBits target).take n) := by
    intro n
    induction n with
    | zero =>
      refine fun _ => ⟨marginal, fun j => ?_⟩
      rw [List.range_zero, List.foldl_nil, bits]
      simp
    | succ n ih =>
      intro le
      obtain ⟨none_, ones⟩ := ih (by omega)
      have place : n < (targetBits target).length := by omega
      have at_ : (targetBits target).getD n 0 = (targetBits target)[n] := List.getD_eq_getElem _ _ place
      have small : (targetBits target)[n] < 39 := (mem_targetBits.1 (List.getElem_mem place)).1
      rw [List.range_succ, List.foldl_append, List.foldl_cons, List.foldl_nil, pulseBit_full place, at_]
      refine ⟨?_, fun j => ?_⟩
      · rw [none_]
        simp [setBit]
      · rw [setBit_getLsbD _ _ _ _ small, ones, List.take_succ_eq_append_getElem place]
        by_cases same : j = (targetBits target)[n]
        · rw [if_pos same, same, eq_comm, decide_eq_true_iff]
          exact List.mem_append_right _ (List.mem_singleton_self _)
        · rw [if_neg same, decide_eq_decide, List.mem_append, List.mem_singleton, or_iff_left same]
  obtain ⟨none_, ones⟩ := reach _ (Nat.le_refl _)
  rw [pulseWord_eq]
  generalize (List.range (targetBits target).length).foldl (pulseBit target fullPulses) x = y at none_ ones
  have whole : y.bits = target := by
    refine BitVec.eq_of_getLsbD_eq fun j small => ?_
    rw [ones, List.take_length]
    simp [mem_targetBits, small]
  rw [← whole, ← none_]

/-- The first bit's first pulse begun. -/
def firstPulse : OtpEnd := { completed := some 0, marginalNext := true, weak := [] }

theorem pulseBit_first {target : BitVec 39} {x : OtpWord} (i : Nat) : pulseBit target firstPulse x i =
    if i = 0 then (if x.bits.getLsbD ((targetBits target).getD i 0) then x
      else { x with marginal := setBit x.marginal ((targetBits target).getD i 0) true }) else x := by
  have place : firstPulse.completed.getD (targetBits target).length = 0 := rfl
  have begun : firstPulse.marginalNext = true := rfl
  unfold pulseBit
  dsimp only
  rw [place, begun, if_neg fun h => Nat.not_lt_zero i h.1]
  by_cases zero : i = 0
  · rw [if_pos zero, if_pos (.inr ⟨zero, rfl⟩)]
  · rw [if_neg zero, if_neg fun h => h.elim (Nat.not_lt_zero i) fun g => zero g.1]

/-- A pulse begun on a blank word leaves it neither unprogrammed nor clean. -/
theorem pulseWord_first {x : OtpWord} (d : Word) (blank : x.blank = true) :
    (pulseWord x (otpEncode d) firstPulse).blank = false ∧ (pulseWord x (otpEncode d) firstPulse).ecc ≠ 0 := by
  obtain ⟨bits, marginal⟩ : x.bits = 0 ∧ x.marginal = 0 := by simpa [OtpWord.blank] using blank
  obtain ⟨b, small, one⟩ : ∃ b, b < 39 ∧ (otpEncode d).getLsbD b = true := by
    by_contra none_
    refine otpEncode_ne_zero d (BitVec.eq_of_getLsbD_eq fun j small => ?_)
    have off : ¬ (otpEncode d).getLsbD j = true := fun h => none_ ⟨j, small, h⟩
    simpa using off
  have some_ : 0 < (targetBits (otpEncode d)).length := List.length_pos_of_mem (mem_targetBits.2 ⟨small, one⟩)
  have place : (targetBits (otpEncode d)).getD 0 0 < 39 := by
    rw [List.getD_eq_getElem _ _ some_]
    exact (mem_targetBits.1 (List.getElem_mem some_)).1
  have reach : ∀ n, ((List.range (n + 1)).foldl (pulseBit (otpEncode d) firstPulse) x) =
      { bits := 0, marginal := setBit 0 ((targetBits (otpEncode d)).getD 0 0) true } := by
    intro n
    induction n with
    | zero =>
      rw [List.range_one, List.foldl_cons, List.foldl_nil, pulseBit_first, if_pos rfl, bits, marginal]
      simp
    | succ n ih =>
      rw [List.range_succ, List.foldl_append, ih, List.foldl_cons, List.foldl_nil, pulseBit_first, if_neg (by omega)]
  have begun := reach ((targetBits (otpEncode d)).length - 1)
  rw [Nat.sub_add_cancel some_, ← pulseWord_eq] at begun
  rw [begun]
  have weak : setBit (0 : BitVec 39) ((targetBits (otpEncode d)).getD 0 0) true ≠ 0 := by
    intro none_
    have bit := congrArg (fun v => v.getLsbD ((targetBits (otpEncode d)).getD 0 0)) none_
    simp only [setBit_self _ place] at bit
    simp at bit
  have full : OtpWord.blank { bits := 0, marginal := setBit 0 ((targetBits (otpEncode d)).getD 0 0) true } = false := by
    rw [OtpWord.blank, beq_eq_false_iff_ne.mpr weak, Bool.and_false]
  refine ⟨full, ?_⟩
  have unclean : otpClean (0 : BitVec 39) = false := by decide
  unfold OtpWord.ecc
  rw [full, unclean, if_neg (by decide), if_neg (by decide)]
  split <;> decide

/-! ### Pulses on a counter's copies (R449, R450) -/

theorem readsOne_of_sget {m : SMap Thermo} {k : Nat} (one : (sget Thermo.blank m k).reads = true) : readsOne m k := by
  rcases sget_cases Thermo.blank m k with none_ | ⟨x, listed, key, same⟩
  · rw [none_, blank_reads] at one
    cases one
  · exact ⟨x, listed, key, by rw [← same, one]⟩

theorem sget_of_readsOne {m : SMap Thermo} {k : Nat} (ok : swf Thermo.blank m = true) (one : readsOne m k) :
    (sget Thermo.blank m k).reads = true := by
  obtain ⟨x, listed, rfl, one⟩ := one
  rw [sget_mem Thermo.blank ok listed, one]

/-- A copy after its place in the order. -/
def copyAfter (e : OtpEnd) (k i : Nat) (o : OtpBit) : OtpBit :=
  if i < k then pulsed (e.weak.contains i) o else if i = k ∧ e.marginalNext ∧ o = .unprogrammed then .marginal else o

/-- One place of the order of copies. -/
def pulseCopy (l : List Copy) (e : OtpEnd) (m : SMap Thermo) (i : Nat) : SMap Thermo :=
  match l[i]? with
  | none => m
  | some x => sset Thermo.blank m x.1 ((sget Thermo.blank m x.1).put x.2
      (copyAfter e (e.completed.getD l.length) i ((sget Thermo.blank m x.1).copy x.2)))

theorem pulseCopies_eq (m : SMap Thermo) (l : List Copy) (e : OtpEnd) :
    pulseCopies m l e = (List.range l.length).foldl (pulseCopy l e) m := rfl

theorem copyAfter_counts (e : OtpEnd) (k i : Nat) (o : OtpBit) : otpBitCounts o ≤ otpBitCounts (copyAfter e k i o) := by
  unfold copyAfter pulsed
  cases o
  · exact Nat.zero_le _
  · (repeat' split) <;> decide
  · (repeat' split) <;> decide

theorem pulseCopy_keeps (l : List Copy) (e : OtpEnd) (m : SMap Thermo) (i k : Nat) (one : readsOne m k) :
    readsOne (pulseCopy l e m i) k := by
  unfold pulseCopy
  split
  · exact one
  · exact readsOne_sset _ _ (fun g => put_reads _ _ _ (copyAfter_counts _ _ _ _) g) k one

theorem pulseCopies_tail (l : List Copy) (e : OtpEnd) (k : Nat) : ∀ (r : List Nat) (m : SMap Thermo), readsOne m k →
    readsOne (r.foldl (pulseCopy l e) m) k
  | [], _, one => one
  | i :: r, m, one => pulseCopies_tail l e k r _ (pulseCopy_keeps l e m i k one)

/-- Once copy A has its pulses and copy B's has begun, the bit reads 1. -/
theorem pulseCopies_reads {m : SMap Thermo} {b : Nat} (rest : List Copy) {e : OtpEnd} {k : Nat} (ok : swf Thermo.blank m = true)
    (completed : e.completed = some k) (strong : e.weak = []) (far : 2 ≤ k ∨ k = 1 ∧ e.marginalNext = true) :
    readsOne (pulseCopies m (copiesOf b ++ rest) e) b := by
  have len : (copiesOf b ++ rest).length = 2 + (rest.length + 1) := by
    rw [List.length_append, show (copiesOf b).length = 3 from rfl]
    omega
  rw [pulseCopies_eq, len, List.range_add, List.foldl_append]
  refine pulseCopies_tail _ e b _ _ (readsOne_of_sget ?_)
  have first : pulseCopy (copiesOf b ++ rest) e m 0 = sset Thermo.blank m b { sget Thermo.blank m b with a := .programmed } := by
    have after : copyAfter e k 0 (sget Thermo.blank m b).a = .programmed := by
      refine (if_pos (by omega)).trans ?_
      rw [strong]
      rfl
    show sset _ m b ((sget Thermo.blank m b).put .a (copyAfter e (e.completed.getD _) 0 (sget Thermo.blank m b).a)) = _
    rw [completed, Option.getD_some, after]
    rfl
  have ok' : swf Thermo.blank (pulseCopy (copiesOf b ++ rest) e m 0) = true := by
    rw [first]
    exact swf_sset _ _ _ _ ok
  have read : sget Thermo.blank (pulseCopy (copiesOf b ++ rest) e m 0) b = { sget Thermo.blank m b with a := .programmed } := by
    rw [first, sget_sset_self _ _ _ ok]
  show (sget Thermo.blank (pulseCopy (copiesOf b ++ rest) e (pulseCopy (copiesOf b ++ rest) e m 0) 1) b).reads = true
  generalize pulseCopy (copiesOf b ++ rest) e m 0 = m' at ok' read ⊢
  have counts : otpBitCounts (copyAfter e k 1 (sget Thermo.blank m' b).b) = 1 := by
    unfold copyAfter
    rcases far with two | ⟨one, begun⟩
    · rw [if_pos (by omega), strong]
      rfl
    · rw [if_neg (by omega), begun, one]
      cases (sget Thermo.blank m' b).b <;> rfl
  have second : pulseCopy (copiesOf b ++ rest) e m' 1
      = sset Thermo.blank m' b { sget Thermo.blank m' b with b := copyAfter e k 1 (sget Thermo.blank m' b).b } := by
    show sset _ m' b ((sget Thermo.blank m' b).put .b (copyAfter e (e.completed.getD _) 1 (sget Thermo.blank m' b).b)) = _
    rw [completed, Option.getD_some]
    rfl
  rw [second, sget_sset_self _ _ _ ok']
  generalize copyAfter e k 1 (sget Thermo.blank m' b).b = o at counts
  rw [read]
  unfold Thermo.reads
  dsimp only
  rw [counts]
  simp [otpBitCounts]

/-- A bit that reads 1 within a counter bounds its value from below (R449). -/
theorem counterCells_reaches {s : State} {c n : Nat} (some_ : 0 < n) (within : n ≤ counterSteps c)
    (one : readsOne s.otp.thermo (counterBase c + n - 1)) : n ≤ s.counterCells c := by
  have bound := ((counterFold_le c 0 (s.counterCells c) s.otp.thermo).1 (Nat.le_refl _)).2 (counterBase c + n - 1) (by omega) (by omega) one
  omega

/-! ### Where programming is cut (R445, R450, R455) -/

/-- The place at which the operation in progress is cut. -/
def State.cutAt (s : State) : OtpEnd := s.fitEnd (s.cutPlace s.free)

theorem pulsesEnd_cells (s : State) (o : OtpOp) (before : Nat) (e : OtpEnd) : (s.pulsesEnd o before e).otp.op = s.otp.op
    ∧ (s.pulsesEnd o before e).otp.words = s.otp.words ∧ (s.pulsesEnd o before e).otp.thermo = s.otp.thermo := by
  have counted : s.sealCounted.otp.op = s.otp.op ∧ s.sealCounted.otp.words = s.otp.words ∧ s.sealCounted.otp.thermo = s.otp.thermo := by
    unfold State.sealCounted
    dsimp only
    split
    · exact ⟨rfl, rfl, rfl⟩
    · unfold State.typeset State.typesetFor
      split
      · exact ⟨rfl, rfl, rfl⟩
      · split <;> exact ⟨rfl, rfl, rfl⟩
  unfold State.pulsesEnd
  split
  · split
    · split <;> exact ⟨rfl, rfl, rfl⟩
    · exact ⟨rfl, rfl, rfl⟩
  · split
    · exact counted
    · exact ⟨rfl, rfl, rfl⟩
  · exact ⟨rfl, rfl, rfl⟩
  · exact ⟨rfl, rfl, rfl⟩

/-- A cut operation ends with its cells as far as the cut says. -/
theorem stopPulses_cells {s : State} {o : OtpOp} (busy : s.otp.op = some o) (pulses : ∀ c w, o ≠ .margin c w) (unable : s.progOk = false) :
    s.stopPulses.otp.op = none ∧ s.stopPulses.otp.words = (s.pulseOp s.cutAt).otp.words
      ∧ s.stopPulses.otp.thermo = (s.pulseOp s.cutAt).otp.thermo := by
  have stopped : s.stopPulses = s.draw.2.otpDone (s.cutPlace s.draw.1) := by
    rw [State.stopPulses, busy]
    cases o with
    | margin c w => exact absurd rfl (pulses c w)
    | program w d => rfl
    | raise c f t => rfl
    | commit f t => rfl
    | sealCount => rfl
    | heal => rfl
  rw [stopped, otpDone_unable (s := s.draw.2) (s.cutPlace s.draw.1) busy pulses unable]
  obtain ⟨op, words, thermo⟩ := pulsesEnd_cells { s.draw.2.pulseOp (s.draw.2.fitEnd (s.cutPlace s.draw.1)) with otp.op := none } o
    (s.draw.2.counterCells ctrSeal) (s.draw.2.fitEnd (s.cutPlace s.draw.1))
  have drawn : (s.draw.2.pulseOp (s.draw.2.fitEnd (s.cutPlace s.draw.1))).otp = (s.pulseOp s.cutAt).otp := by
    show (s.draw.2.pulseOp s.cutAt).otp = _
    unfold State.pulseOp
    rw [show s.draw.2.otp.op = some o from busy, busy]
    cases o <;> rfl
  have drawnWords := congrArg OtpState.words drawn
  have drawnThermo := congrArg OtpState.thermo drawn
  exact ⟨op, words.trans drawnWords, thermo.trans drawnThermo⟩

/-- A PROGRAM that is cut has spoiled its word, or begun its first pulse. -/
theorem cutAt_program {s : State} {w : Nat} {d : Word} (busy : s.otp.op = some (.program w d)) :
    s.spoils w d s.cutAt = true ∨ s.cutAt = firstPulse := by
  have cut : s.cutAt = if s.spoils w d (s.cutPlace s.free) then s.cutPlace s.free
      else (((List.range s.opLen).map (fun k => ({ completed := some (k + 1), marginalNext := false, weak := [] } : OtpEnd))).find?
        (s.spoils w d)).getD firstPulse := by
    unfold State.cutAt State.fitEnd
    rw [busy]
    rfl
  rw [cut]
  split
  · exact .inl ‹_›
  · cases found : ((List.range s.opLen).map (fun k => ({ completed := some (k + 1), marginalNext := false, weak := [] } : OtpEnd))).find?
      (s.spoils w d) with
    | none => exact .inr rfl
    | some e => exact .inl (List.find?_some found)

/-- A raise that shows its target is cut after copy B's pulses have begun. -/
theorem cutAt_raise {s : State} {c f n : Nat} (busy : s.otp.op = some (.raise c f n)) (shown : s.otp.shownAt ≤ s.now) :
    ∃ k, s.cutAt.completed = some k ∧ s.cutAt.weak = [] ∧ (2 ≤ k ∨ k = 1 ∧ s.cutAt.marginalNext = true) := by
  have raised : s.raiseShown = true := by
    rw [State.raiseShown, State.raising, busy, decide_eq_true shown]
    rfl
  have cut : s.cutAt = if s.raiseShown ∧ ¬ (2 ≤ Config.freeNat s.free % (s.opLen + 1)
        ∨ (Config.freeNat s.free % (s.opLen + 1) = 1 ∧ (s.cutPlace s.free).marginalNext))
      then { s.cutPlace s.free with completed := some 1, marginalNext := true } else s.cutPlace s.free := by
    unfold State.cutAt State.fitEnd
    rw [busy]
    rfl
  rw [cut]
  split
  · exact ⟨1, rfl, rfl, .inr ⟨rfl, rfl⟩⟩
  · rename_i far
    exact ⟨_, rfl, rfl, by_contra fun h => far ⟨raised, h⟩⟩

/-! ### The supply window (R451, R455) -/

theorem attend_quiet {s : State} (quiet : s.levelQuiet = true) : s.attend = s := by
  obtain ⟨alarm, port⟩ : (s.pwr.alarmWake && (s.rtc.alm1F || s.rtc.alm2F)) = false ∧ s.rw.attention = false := by
    simpa only [State.levelQuiet, Bool.and_eq_true, Bool.not_eq_true'] using quiet
  unfold State.attend
  rw [alarm]
  exact if_neg (by rw [if_neg (by decide), port]; decide)

theorem supplyClear_unable (s : State) : State.progOk { s with otp.supplyOk := false } = false := by
  rw [State.progOk]
  rfl

/-- With the window cleared programming is not possible. -/
theorem supplyChange_clear (s : State) : s.supplyChange false = State.stopPulses { s with otp.supplyOk := false } := by
  unfold State.supplyChange
  dsimp only
  exact if_neg (by rw [supplyClear_unable]; decide)

theorem supplyClear_otp (s : State) : ∃ t, exec (.supplyOkChange false) s = .next t
    ∧ t.otp = (State.stopPulses { s with otp.supplyOk := false }).otp := by
  refine ⟨_, rfl, ?_⟩
  rw [State.attend_otp, supplyChange_clear]

theorem otpWord_of_words {t : State} {m : SMap OtpWord} {w : Nat} {x : OtpWord} (ok : swf default m = true)
    (words : t.otp.words = sset default m w x) : t.otpWord w = x := by
  rw [State.otpWord, words, sget_sset_self _ _ _ ok]

/-- Where nothing is programmed nothing stops; a margin read goes on (R453). -/
theorem stopPulses_idle {s : State} (idle : s.otp.op = none ∨ ∃ c w, s.otp.op = some (.margin c w)) : s.stopPulses = s := by
  unfold State.stopPulses
  rcases idle with h | ⟨c, w, h⟩
  · rw [h]
  · rw [h]

theorem supplyChange_idle {s : State} (ok : Bool) (idle : s.otp.op = none ∨ ∃ c w, s.otp.op = some (.margin c w))
    (openings : s.otp.openings = 0) (commit : s.otp.commitTo = none) (heal : s.otp.healDue = false) :
    s.supplyChange ok = { s with otp.supplyOk := ok } := by
  have still : State.stopPulses { s with otp.supplyOk := ok } = { s with otp.supplyOk := ok } :=
    stopPulses_idle (s := { s with otp.supplyOk := ok }) idle
  unfold State.supplyChange
  dsimp only
  rw [still, otpNext_nothing (s := { s with otp.supplyOk := ok }) openings commit heal]
  exact ite_self _

/-- What the window's end leaves of a word being programmed. -/
theorem cut_word {s : State} {w : Nat} {d : Word} (busy : s.otp.op = some (.program w d)) (blank : (s.otpWord w).blank = true) :
    (pulseWord (s.otpWord w) (otpEncode d) s.cutAt).blank = false ∧ (pulseWord (s.otpWord w) (otpEncode d) s.cutAt).ecc ≠ 0 := by
  rcases cutAt_program busy with spoiled | first
  · simpa [State.spoils] using spoiled
  · rw [first]
    exact pulseWord_first d blank

/-- Settles O42: programming in full writes the code word; a cut leaves bits of it, its word spoiled and a shown counter shown. -/
theorem otpOperationEnds : Obligations.OtpOperationEnds := by
  unfold Obligations.OtpOperationEnds
  refine ⟨fun s w d ok busy blank openings commit heal => ⟨(s.otpDone fullPulses).attend, rfl, ?_⟩, fun s c w e busy openings commit heal quiet => ?_,
    fun s supply idle openings commit heal quiet => ?_, fun s w d ok busy => ?_, fun s ok => ?_,
    fun s c f n ok counter above within busy shown => ⟨?_, ?_⟩⟩
  · have done : s.otpDone fullPulses =
        { s with otp := { s.otp with op := none
                                     words := sset default s.otp.words w (pulseWord (s.otpWord w) (otpEncode d) fullPulses) } } := by
      have programmed : s.pulseOp fullPulses =
          { s with otp.words := sset default s.otp.words w (pulseWord (s.otpWord w) (otpEncode d) fullPulses) } := by
        rw [State.pulseOp, busy]
      have fit : s.fitEnd fullPulses = fullPulses := rfl
      rw [otpDone_pulses fullPulses busy (fun c w => by simp), fit, programmed]
      exact otpNext_nothing openings commit heal
    obtain ⟨_, _, _, _, words, _⟩ := (memoryOk_iff s).1 ok
    have otp : (s.otpDone fullPulses).attend.otp = { s.otp with op := none, words := sset default s.otp.words w { bits := otpEncode d, marginal := 0 } } := by
      rw [State.attend_otp, done, pulseWord_full _ blank]
    generalize (s.otpDone fullPulses).attend = t at otp ⊢
    have word := otpWord_of_words (t := t) words (by rw [otp])
    obtain ⟨value, ecc⟩ := reads_encoded (x := t.otpWord w) (d := d) (by rw [word])
    refine ⟨by rw [otp], by rw [word], by rw [word], value, ecc, by rw [otp], fun x listed other => ?_⟩
    rw [otp]
    exact mem_sset_other other listed
  · have done : s.otpDone e = { s with otp.op := none, otp.marginBits := s.marginCount c w } := by
      rw [State.otpDone, busy]
      exact otpNext_nothing openings commit heal
    show Host.Outcome.next (s.otpDone e).attend = _
    rw [done, attend_quiet]
    exact quiet
  · show Host.Outcome.next (s.supplyChange supply).attend = _
    rw [supplyChange_idle supply idle openings commit heal, attend_quiet]
    exact quiet
  · obtain ⟨t, run, otp⟩ := supplyClear_otp s
    obtain ⟨_, _, _, _, listed, _⟩ := (memoryOk_iff s).1 ok
    have unable := supplyClear_unable s
    obtain ⟨op, words, thermo⟩ := stopPulses_cells (s := { s with otp.supplyOk := false }) busy (fun c w => by simp) unable
    have supply := (stopPulses_pulsed unable).2
    have pulsed : (State.pulseOp { s with otp.supplyOk := false } (State.cutAt { s with otp.supplyOk := false })).otp = { s.otp with
        supplyOk := false
        words := sset default s.otp.words w (pulseWord (s.otpWord w) (otpEncode d) (State.cutAt { s with otp.supplyOk := false })) } := by
      rw [State.pulseOp, show (State.otp { s with otp.supplyOk := false }).op = some (.program w d) from busy]
      rfl
    rw [pulsed] at words thermo
    rw [← otp] at op words thermo supply
    have word := otpWord_of_words listed words
    refine ⟨t, run, op, supply, thermo, fun i _ one => ?_, fun i _ one => ?_, fun blank => ?_, fun x held other => ?_⟩
    · rw [word]
      exact pulseWord_keeps _ _ _ i one
    · rw [word] at one
      exact pulseWord_adds _ _ _ one
    · rw [word]
      exact cut_word (s := { s with otp.supplyOk := false }) busy blank
    · rw [words]
      exact mem_sset_other other held
  · obtain ⟨t, run, otp⟩ := supplyClear_otp s
    obtain ⟨_, _, _, _, _, thermo⟩ := (memoryOk_iff s).1 ok
    have unable := supplyClear_unable s
    have goes := exec_goes _ s t run
    refine ⟨t, run, by rw [otp, (stopPulses_pulsed unable).2], ?_, fun b one => ?_⟩
    · rw [otp]
      by_cases margin : ∃ c w, s.otp.op = some (.margin c w)
      · obtain ⟨c, w, busy⟩ := margin
        refine .inr ⟨c, w, busy, ?_⟩
        rw [stopPulses_idle (s := { s with otp.supplyOk := false }) (.inr ⟨c, w, busy⟩)]
      · left
        cases busy : s.otp.op with
        | none =>
          rw [stopPulses_idle (s := { s with otp.supplyOk := false }) (.inl busy)]
          exact busy
        | some o =>
          exact (stopPulses_cells (s := { s with otp.supplyOk := false }) busy (fun c w same => margin ⟨c, w, by rw [busy, same]⟩) unable).1
    · exact sget_of_readsOne (goes.thermo thermo) (goes.ones b (readsOne_of_sget one))
  · have raising : s.raising = some (c, n) := by rw [State.raising, busy]
    have raised : s.raiseShown = true := by
      rw [State.raiseShown, raising, decide_eq_true shown]
      rfl
    rw [State.counter, raising]
    exact if_pos ⟨rfl, raised⟩
  · obtain ⟨t, run, otp⟩ := supplyClear_otp s
    obtain ⟨_, _, _, _, _, listed⟩ := (memoryOk_iff s).1 ok
    refine ⟨t, run, ?_⟩
    obtain ⟨op, -, thermo⟩ := stopPulses_cells (s := { s with otp.supplyOk := false }) busy (fun c w => by simp) (supplyClear_unable s)
    obtain ⟨k, completed, strong, far⟩ := cutAt_raise (s := { s with otp.supplyOk := false }) busy shown
    have pulsed : (State.pulseOp { s with otp.supplyOk := false } (State.cutAt { s with otp.supplyOk := false })).otp.thermo =
        pulseCopies s.otp.thermo (raiseOrder c f n) (State.cutAt { s with otp.supplyOk := false }) := by
      rw [State.pulseOp, show (State.otp { s with otp.supplyOk := false }).op = some (.raise c f n) from busy]
      rfl
    have order : raiseOrder c f n = copiesOf (counterBase c + n - 1)
        ++ ((List.range (n - 1 - f)).map (fun i => counterBase c + (n - 2 - i))).flatMap copiesOf := if_neg (by omega)
    rw [pulsed, order, ← otp] at thermo
    rw [← otp] at op
    have one : readsOne t.otp.thermo (counterBase c + n - 1) := by
      rw [thermo]
      exact pulseCopies_reads _ listed completed strong far
    exact (counterCells_reaches (by omega) within one).trans (counterCells_le_counter t c)

end Sys2Proof.Machine
end

section
/-! PROOFS. The slow round's slots and end, and the end of grace (R63, R221 to R226, R236, R326). -/

namespace Sys2Proof.Machine

/-! ### A reading taken (R223, R225, R226, R326) -/

/-- From s to u the reading x of slot n has gone to its place. -/
structure State.ReadInto (s u : State) (n : Nat) (x : Int) : Prop where
  frame : u = { s with therm.ntc := u.therm.ntc, therm.diode := u.therm.diode, therm.lastDie := u.therm.lastDie, tree.meas := u.tree.meas }
  ntc : ∀ k, k < 4 → vget u.therm.ntc k
    = if k = n then ntcStep s.alm.thermal (vget s.therm.ntc k) (min x.toNat 65520) else vget s.therm.ntc k
  diode : ∀ k, k < 6 → vget u.therm.diode k = if k + 4 = n then diodeStep (vget s.therm.diode k) x else vget s.therm.diode k
  meas : ∀ k, k < 22 → k ≠ 14 → vget u.tree.meas k
    = if k + 10 = n then clampI (-(slotScale n : Int)) (slotScale n) x else vget s.tree.meas k

theorem redetect_marked (s : State) (n : Nat) (present : Bool) : s.Marked (s.redetect n present) := by
  unfold State.redetect
  split
  · exact setSticky_marked s n
  · exact State.Marked.refl s

theorem tryReactUp_idle {s : State} (idle : s.flt.react = none) : s.tryReactUp = s := by
  rw [State.tryReactUp, idle]

/-- A thermistor's reading. -/
def State.ntcTaken (s : State) (n : Nat) (x : Int) : State :=
  { s with therm.ntc := vset s.therm.ntc n (ntcStep s.alm.thermal (vget s.therm.ntc n) (min x.toNat 65520)) }

/-- A diode's reading. -/
def State.diodeTaken (s : State) (n : Nat) (x : Int) : State :=
  let t := { s with therm.diode := vset s.therm.diode (n - 4) (diodeStep (vget s.therm.diode (n - 4)) x) }
  { t with therm.lastDie := match t.tDie with | some d => some d | none => t.therm.lastDie }

/-- A measurement. -/
def State.measTaken (s : State) (n : Nat) (x : Int) : State :=
  { s with tree.meas := vset s.tree.meas (n - 10) (if n = 24 then roundFree 8 (clampI (-(slotScale n : Int)) (slotScale n) x * s.tree.ratio) 256
                                                    else clampI (-(slotScale n : Int)) (slotScale n) x) }

theorem vget_vset {α : Type} [Inhabited α] {n : Nat} (v : Vector α n) (i k : Nat) (x : α) (small : i < n) :
    vget (vset v i x) k = if k = i then x else vget v k := by
  by_cases same : k = i
  · rw [if_pos same, same, vget_vset_self v x small]
  · rw [if_neg same, vget_vset_other v x same]

theorem ntcTaken_into (s : State) {n : Nat} (x : Int) (low : n < 4) : s.ReadInto (s.ntcTaken n x) n x where
  frame := rfl
  ntc k _ := by
    refine (vget_vset _ n k _ low).trans ?_
    by_cases same : k = n
    · rw [if_pos same, if_pos same, same]
    · rw [if_neg same, if_neg same]
  diode k _ := by rw [if_neg (by omega)]; rfl
  meas k _ _ := by rw [if_neg (by omega)]; rfl

theorem diodeTaken_into (s : State) {n : Nat} (x : Int) (high : 4 ≤ n) (low : n < 10) : s.ReadInto (s.diodeTaken n x) n x where
  frame := rfl
  ntc k _ := by rw [if_neg (by omega)]; rfl
  diode k _ := by
    refine (vget_vset s.therm.diode (n - 4) k _ (by omega)).trans ?_
    by_cases same : k = n - 4
    · rw [if_pos same, if_pos (by omega), same]
    · rw [if_neg same, if_neg (by omega)]
  meas k _ _ := by rw [if_neg (by omega)]; rfl

theorem measTaken_into (s : State) {n : Nat} (x : Int) (high : 10 ≤ n) (low : n < 32) : s.ReadInto (s.measTaken n x) n x where
  frame := rfl
  ntc k _ := by rw [if_neg (by omega)]; rfl
  diode k _ := by rw [if_neg (by omega)]; rfl
  meas k _ other := by
    refine (vget_vset s.tree.meas (n - 10) k _ (by omega)).trans ?_
    by_cases same : k = n - 10
    · have plain : n ≠ 24 := by omega
      have place : k + 10 = n := by omega
      rw [if_pos same, if_neg plain, if_pos place]
    · rw [if_neg same, if_neg (by omega)]

/-- A reading goes to its place, and its fault is marked. -/
structure State.TakenReading (s t : State) (n : Nat) (x : Int) (u : State) : Prop where
  into : s.ReadInto u n x
  marked : u.Marked t
  ntcFault : n < 4 → s.recording = true → (vget s.therm.ntc n).st = .good → (vget u.therm.ntc n).st ≠ .good → t.sticky fltNtc = true
  diodeFault : 4 ≤ n → n < 10 → s.recording = true → (vget s.therm.diode (n - 4)).bad = false → (vget u.therm.diode (n - 4)).bad = true →
    t.sticky fltDiode = true

theorem takeReading_ntc (s : State) {n : Nat} (x : Int) (low : n < 4) : s.TakenReading (s.takeReading n x) n x (s.ntcTaken n x) := by
  have taken : s.takeReading n x = if (vget s.therm.ntc n).st == .good
        && !((ntcStep s.alm.thermal (vget s.therm.ntc n) (min x.toNat 65520)).st == .good) then (s.ntcTaken n x).raise fltNtc
      else (s.ntcTaken n x).redetect fltNtc (!(ntcClass (ntcStep s.alm.thermal (vget s.therm.ntc n) (min x.toNat 65520)).code == .good)) :=
    if_pos low
  have mild : faultReaction fltNtc = .note ∨ faultReaction fltNtc = .ease := by decide
  refine ⟨ntcTaken_into s x low, ?_, fun _ records good broke => ?_, fun high => absurd high (by omega)⟩
  · rw [taken]
    split
    · exact raise_mild_marked mild
    · exact redetect_marked _ _ _
  · rw [(ntcTaken_into s x low).ntc n low, if_pos rfl] at broke
    rw [taken, if_pos (by rw [good, beq_eq_false_iff_ne.mpr broke]; rfl)]
    exact raise_mild_sticky mild (.inl (by decide)) fun _ => records

theorem takeReading_diode {s : State} {n : Nat} (x : Int) (high : 4 ≤ n) (low : n < 10) (idle : s.flt.react = none) :
    s.TakenReading (s.takeReading n x) n x (s.diodeTaken n x) := by
  have taken : s.takeReading n x = State.tryReactUp (if (diodeStep (vget s.therm.diode (n - 4)) x).bad
      && !(vget s.therm.diode (n - 4)).bad then (s.diodeTaken n x).raise fltDiode else (s.diodeTaken n x).redetect fltDiode (diodeBad x)) :=
    (if_neg (by omega)).trans (if_pos low)
  have mild : faultReaction fltDiode = .note ∨ faultReaction fltDiode = .ease := by decide
  have raised : (s.diodeTaken n x).Marked ((s.diodeTaken n x).raise fltDiode) := raise_mild_marked mild
  have seen := redetect_marked (s.diodeTaken n x) fltDiode (diodeBad x)
  have still : (s.diodeTaken n x).flt.react = none := idle
  rw [taken]
  refine ⟨diodeTaken_into s x high low, ?_, fun h => absurd h (by omega), fun _ _ records sound broke => ?_⟩
  · split
    · rw [tryReactUp_idle (raised.react.trans still)]
      exact raised
    · rw [tryReactUp_idle (seen.react.trans still)]
      exact seen
  · rw [(diodeTaken_into s x high low).diode (n - 4) (by omega), if_pos (by omega)] at broke
    rw [if_pos (by rw [broke, sound]; rfl), tryReactUp_idle (raised.react.trans still)]
    exact raise_mild_sticky mild (.inl (by decide)) fun _ => records

theorem takeReading_meas (s : State) {n : Nat} (x : Int) (high : 10 ≤ n) (low : n < 32) :
    s.TakenReading (s.takeReading n x) n x (s.measTaken n x) := by
  have taken : s.takeReading n x = if n = 31 ∧ (clampI (-(slotScale n : Int)) (slotScale n) x < -4 ∨ 4 < clampI (-(slotScale n : Int)) (slotScale n) x)
      then (s.measTaken n x).raise fltAdcZero else s.measTaken n x := (if_neg (by omega)).trans (if_neg (by omega))
  refine ⟨measTaken_into s x high low, ?_, fun h => absurd h (by omega), fun _ h => absurd h (by omega)⟩
  rw [taken]
  split
  · exact raise_mild_marked (by decide)
  · exact State.Marked.refl _

theorem takeReading_taken {s : State} {n : Nat} (x : Int) (low : n < 32) (idle : n < 31 → s.flt.react = none) :
    ∃ u, s.TakenReading (s.takeReading n x) n x u := by
  by_cases first : n < 4
  · exact ⟨_, takeReading_ntc s x first⟩
  · by_cases second : n < 10
    · exact ⟨_, takeReading_diode x (by omega) second (idle (by omega))⟩
    · exact ⟨_, takeReading_meas s x (by omega) low⟩

/-! ### A slot of the slow round (R221, R222) -/

theorem slotReading_plain {s : State} (none_ : s.flt.injecting = []) (n : Nat) (x : Int) : s.slotReading n x = x := by
  have off (k : Nat) : s.injected k = false := by rw [State.injected, none_]; rfl
  unfold State.slotReading
  rw [off, off, off, if_neg (by simp), if_neg (by simp), if_neg (by simp)]

/-- A slot's reading alone. -/
def plainSlot (x : Int) (b : Bool) : SlotInput := { reading := x, boostOv := b, upsets := [] }

/-- The slot as its reading comes. -/
def State.slotReached (s : State) : State := { s.reach s.slotRead with free := (s.reach s.slotRead).free + 1 }

/-- The next slot begins on the grid. -/
def State.slotPassed (s t : State) (b : Bool) : State :=
  { t with therm.slot := (s.therm.slot + 1) % 32, therm.slotAt := s.therm.slotAt + 402432, tree.boostOv := b }

theorem slotEnd_eq {s : State} (x : Int) (b : Bool) (on : s.therm.slowOn = true) (lock : s.clock.pllLock = true)
    (none_ : s.flt.injecting = []) : s.slotEnd (plainSlot x b) =
      let t := s.slotPassed (s.slotReached.takeReading s.therm.slot x) b
      if s.therm.slot = 31 then (t.reach t.therm.slotAt).roundEnd else t := by
  have plain : (s.reach s.slotRead).slotReading s.therm.slot x = x := slotReading_plain (s := s.reach s.slotRead) none_ _ _
  have shape : s.slotEnd (plainSlot x b) =
      let t := s.slotPassed (s.slotReached.takeReading s.therm.slot ((s.reach s.slotRead).slotReading s.therm.slot x)) b
      if s.therm.slot = 31 then (t.reach t.therm.slotAt).roundEnd else t := by
    unfold State.slotEnd
    rw [if_pos (by rw [on, lock]; rfl)]
    rfl
  rw [shape, plain]

/-- A count over a list takes at most one from each. -/
theorem countFold_le (p : Nat → Nat → Prop) [∀ a j, Decidable (p a j)] : ∀ (l : List Nat) (a : Nat),
    l.foldl (fun a j => if p a j then a + 1 else a) a ≤ a + l.length
  | [], a => Nat.le_refl a
  | j :: l, a => by
    have rest := countFold_le p l (if p a j then a + 1 else a)
    have one : (if p a j then a + 1 else a) ≤ a + 1 := by split <;> omega
    rw [List.foldl_cons, List.length_cons]
    omega

/-- The four conversions of a headland measurement at most. -/
theorem slotLoses_le (s : State) : s.slotLoses ≤ 4 := by
  unfold State.slotLoses
  split
  · exact (countFold_le _ (List.range 4) 0)
  · exact Nat.zero_le 4

/-! ### The end of the round (R63, R221, R297, R325, R398) -/

/-- What the round's end leaves as it was. -/
structure State.Reviewed (s t : State) : Prop where
  now : t.now = s.now
  slot : t.therm.slot = s.therm.slot
  rounds : t.therm.rounds = s.therm.rounds
  boostOv : t.tree.boostOv = s.tree.boostOv
  meas : t.tree.meas = s.tree.meas
  strap : t.strap = s.strap
  mem : t.mem = s.mem
  pgh : t.pgh = s.pgh
  pwr : s.pwrKept t
  scan : t.scan = s.scan
  injecting : t.flt.injecting = s.flt.injecting

theorem State.Reviewed.refl (s : State) : s.Reviewed s := ⟨rfl, rfl, rfl, rfl, rfl, rfl, rfl, rfl, rfl, rfl, rfl⟩

theorem State.Reviewed.trans {s t u : State} (h : s.Reviewed t) (g : t.Reviewed u) : s.Reviewed u where
  now := g.now.trans h.now
  slot := g.slot.trans h.slot
  rounds := g.rounds.trans h.rounds
  boostOv := g.boostOv.trans h.boostOv
  meas := g.meas.trans h.meas
  strap := g.strap.trans h.strap
  mem := g.mem.trans h.mem
  pgh := g.pgh.trans h.pgh
  pwr := by
    have first := h.pwr
    have second := g.pwr
    unfold State.pwrKept at *
    rw [first] at second
    exact second
  scan := g.scan.trans h.scan
  injecting := g.injecting.trans h.injecting

theorem State.Marked.reviewed {s t : State} (h : s.Marked t) : s.Reviewed t := by
  have pwr := h.pwrKept
  rw [h] at pwr ⊢
  exact ⟨rfl, rfl, rfl, rfl, rfl, rfl, rfl, rfl, pwr, rfl, rfl⟩

theorem voteField_reviewed (s : State) (bad addr : Nat) : s.Reviewed (s.voteField bad addr) := by
  unfold State.voteField
  split
  · exact State.Reviewed.refl s
  · have counted : s.Reviewed { s with acc.voteCnt := sat16 s.acc.voteCnt bad, acc.voteAddr := addr } :=
      ⟨rfl, rfl, rfl, rfl, rfl, rfl, rfl, rfl, rfl, rfl, rfl⟩
    exact counted.trans (raise_mild_marked (by decide)).reviewed

theorem readTrips_reviewed (s : State) : s.Reviewed s.readTrips := by
  have rails : s.Reviewed { s with tree.railSet := s.tree.railSet.mend } := ⟨rfl, rfl, rfl, rfl, rfl, rfl, rfl, rfl, rfl, rfl, rfl⟩
  have plan (t : State) : t.Reviewed { t with seq.plan := t.seq.plan.mend } := ⟨rfl, rfl, rfl, rfl, rfl, rfl, rfl, rfl, rfl, rfl, rfl⟩
  have lc (t : State) : t.Reviewed { t with otp.lc := t.otp.lc.mend } := ⟨rfl, rfl, rfl, rfl, rfl, rfl, rfl, rfl, rfl, rfl, rfl⟩
  have first : s.Reviewed s.voteRailSet := rails.trans (voteField_reviewed _ _ _)
  have second : s.voteRailSet.Reviewed s.voteRailSet.voteSeqPlan := (plan _).trans (voteField_reviewed _ _ _)
  have third : s.voteRailSet.voteSeqPlan.Reviewed s.voteRailSet.voteSeqPlan.voteLc := (lc _).trans (voteField_reviewed _ _ _)
  exact ((first.trans second).trans third).trans (voteField_reviewed _ _ _)

theorem refStep_reviewed (s : State) : s.Reviewed s.refStep := by
  unfold State.refStep
  split
  · exact State.Reviewed.refl s
  · exact ⟨rfl, rfl, rfl, rfl, rfl, rfl, rfl, rfl, rfl, rfl, rfl⟩

theorem riseCheck_reviewed (s : State) : s.Reviewed s.riseCheck := by
  have shown (f r n : Nat) (b : Bool) : s.Reviewed { s with free := f, therm.rise := r, therm.bond := b, therm.bondRun := n } :=
    ⟨rfl, rfl, rfl, rfl, rfl, rfl, rfl, rfl, rfl, rfl, rfl⟩
  have bonded (t : State) (p : Prop) [Decidable p] : t.Reviewed (if p then t.raise fltBond else t) := by
    split
    · exact (raise_mild_marked (by decide)).reviewed
    · exact State.Reviewed.refl t
  unfold State.riseCheck
  split
  · exact State.Reviewed.refl s
  · dsimp only
    by_cases none_ : s.ntcCount = 0
    · rw [if_pos none_]
      exact State.Reviewed.refl s
    · rw [if_neg none_]
      exact (shown _ _ _ _).trans (bonded _ _)

theorem formPower_reviewed (s : State) : s.Reviewed s.formPower := by
  unfold State.formPower
  dsimp only
  split <;> exact ⟨rfl, rfl, rfl, rfl, rfl, rfl, rfl, rfl, rfl, rfl, rfl⟩

/-- The strap copies after their comparison. -/
def State.strapsVoted (s : State) : State :=
  if s.strapVotes = 0 then s
  else { s with strap.bins := vmapIdx (fun _ (t : Trip 4) => t.mend) s.strap.bins, strap.votes := sat16 s.strap.votes s.strapVotes }

theorem strapsVoted_frame (s : State) : s.strapsVoted = { s with strap := s.strapsVoted.strap } := by
  unfold State.strapsVoted
  split <;> rfl

theorem voteStraps_marked {s : State} (none_ : s.flt.injecting = []) : s.strapsVoted.Marked s.voteStraps := by
  have off : s.injected fltStrapVote = false := by rw [State.injected, none_]; rfl
  have count : max s.strapVotes (if s.injected fltStrapVote then 1 else 0) = s.strapVotes := by
    rw [off]
    exact Nat.max_zero _
  unfold State.voteStraps State.strapsVoted
  dsimp only
  rw [count]
  split
  · exact State.Marked.refl s
  · exact raise_mild_marked (by decide)

theorem wholeCopies {w : Nat} {t : Trip w} (whole : t.bad = 0) : t = Trip.all t.maj := by
  obtain ⟨a, b, c⟩ : t.a = t.maj ∧ t.b = t.maj ∧ t.c = t.maj := by
    simpa [Trip.bad, and_assoc] using whole
  calc t = { a := t.a, b := t.b, c := t.c } := rfl
    _ = Trip.all t.maj := congr (congr (congrArg Trip.mk a) b) c

theorem sumTo_zero {f : Nat → Nat} : ∀ {n k : Nat}, sumTo n f = 0 → k < n → f k = 0
  | n + 1, k, none_, small => by
    rw [sumTo, List.range_succ, List.foldl_append] at none_
    have last : sumTo n f + f n = 0 := none_
    rcases Nat.lt_succ_iff_lt_or_eq.mp small with below | rfl
    · exact sumTo_zero (by omega) below
    · omega

theorem strapsVoted_bins (s : State) {k : Nat} (small : k < 12) :
    vget s.strapsVoted.strap.bins k = Trip.all (vget s.strap.bins k).maj := by
  unfold State.strapsVoted
  split
  · rename_i whole
    exact wholeCopies (sumTo_zero (f := fun k => (vget s.strap.bins k).bad) whole small)
  · exact vget_vmapIdx _ _ small

theorem strapsVoted_votes (s : State) :
    s.strapsVoted.strap.votes = if s.strapVotes = 0 then s.strap.votes else sat16 s.strap.votes s.strapVotes := by
  unfold State.strapsVoted
  split <;> rfl

/-- The round counted, with its straps compared. -/
def State.roundVoted (s : State) : State := State.strapsVoted { s with therm.rounds := s.therm.rounds + 1 }

/-- In the scan the round's end reviews the copies, and its count moves. -/
theorem roundEnd_reviewed {s : State} (scan : s.scan.scanning = true) (none_ : s.flt.injecting = []) : s.roundVoted.Reviewed s.roundEnd := by
  have voted := (voteStraps_marked (s := { s with therm.rounds := s.therm.rounds + 1 }) none_).reviewed
  have kept : s.roundVoted.scan = s.scan := by
    unfold State.roundVoted
    rw [strapsVoted_frame]
  unfold State.roundEnd
  dsimp only
  change s.roundVoted.Reviewed _ at voted
  generalize State.voteStraps _ = u at voted ⊢
  have checked : u.Reviewed u.readTrips.refStep.riseCheck :=
    ((readTrips_reviewed u).trans (refStep_reviewed _)).trans (riseCheck_reviewed _)
  have opened : u.readTrips.refStep.riseCheck.Reviewed { u.readTrips.refStep.riseCheck with therm.roundBlank := false } :=
    ⟨rfl, rfl, rfl, rfl, rfl, rfl, rfl, rfl, rfl, rfl, rfl⟩
  have formed := ((voted.trans checked).trans opened).trans (formPower_reviewed _)
  have running : (State.formPower { u.readTrips.refStep.riseCheck with therm.roundBlank := false }).scan.scanning = true := by
    rw [formed.scan, kept, scan]
  rw [if_neg (by rw [running]; simp)]
  exact formed

/-! ### Grace (R236) -/

theorem graceOver_plot {s : State} {at_ : Nat} (clocked : s.clocked = true) (force : s.therm.plotC.inForce = true)
    (grace : s.therm.plotC.graceTo = some at_) :
    s.graceOver .plot = { s with now := max s.now at_, therm.plotC := { s.therm.plotC with graceTo := none, ripe := true } } := by
  have ended : s.therm.plotC.endGrace = { s.therm.plotC with graceTo := none, ripe := true } := if_pos (by rw [force, grace]; rfl)
  have over_ : s.graceOver .plot = { s.reach at_ with therm.plotC := s.therm.plotC.endGrace } := by
    unfold State.graceOver
    dsimp only
    rw [force, clocked, grace]
    rfl
  rw [over_, ended]
  rfl

theorem graceOver_die {s : State} {at_ : Nat} (clocked : s.clocked = true) (force : s.therm.dieC.inForce = true)
    (grace : s.therm.dieC.graceTo = some at_) :
    s.graceOver .die = { s with now := max s.now at_, therm.dieC := { s.therm.dieC with graceTo := none, ripe := true } } := by
  have ended : s.therm.dieC.endGrace = { s.therm.dieC with graceTo := none, ripe := true } := if_pos (by rw [force, grace]; rfl)
  have over_ : s.graceOver .die = { s.reach at_ with therm.dieC := s.therm.dieC.endGrace } := by
    unfold State.graceOver
    dsimp only
    rw [force, clocked, grace]
    rfl
  rw [over_, ended]
  rfl

/-- Settles O46: a slot's reading goes to its place, and the last slot ends the round. -/
theorem slowRoundRuns : Obligations.SlowRoundRuns := by
  unfold Obligations.SlowRoundRuns
  refine ⟨fun s x b on lock none_ idle below => ⟨s.slotEnd (plainSlot x b), rfl, ?_⟩,
    fun s x b on lock last scan none_ => ⟨s.slotEnd (plainSlot x b), rfl, ?_⟩,
    fun s at_ clocked => ⟨fun force grace => congrArg _ (graceOver_plot clocked force grace),
      fun force grace => congrArg _ (graceOver_die clocked force grace)⟩⟩
  · have ended := slotEnd_eq x b on lock none_
    rw [if_neg (by omega)] at ended
    obtain ⟨u, taken⟩ := takeReading_taken (s := s.slotReached) (n := s.therm.slot) x (by omega) fun _ => idle
    obtain ⟨⟨frame, ntc, diode, meas⟩, marked, ntcFault, diodeFault⟩ := taken
    rw [ended]
    generalize s.slotReached.takeReading s.therm.slot x = v at marked ntcFault diodeFault
    have therm : v.therm = u.therm := by rw [marked]
    have tree : v.tree = u.tree := by rw [marked]
    have pwr : s.pwrKept v := by
      have kept := marked.pwrKept
      rw [frame] at kept
      exact kept
    have rounds : v.therm.rounds = s.therm.rounds := by rw [therm, frame]; rfl
    refine ⟨rfl, ?_, rfl, Nat.mod_eq_of_lt (by omega), rounds, ?_, ?_, pwr, ?_, fun k small => ?_, fun k small => ?_,
      fun k small other => ?_, fun low records good broke => ntcFault low records good ?_,
      fun high low records sound broke => diodeFault high low records sound ?_⟩
    · show v.now = _
      rw [marked, frame]
      rfl
    · show v.mem = _
      rw [marked, frame]
      rfl
    · show v.pgh = _
      rw [marked, frame]
      rfl
    · show v.scan = _
      rw [marked, frame]
      rfl
    · show vget v.therm.ntc k = _
      rw [therm]
      exact ntc k small
    · show vget v.therm.diode k = _
      rw [therm]
      exact diode k small
    · show vget v.tree.meas k = _
      rw [tree]
      exact meas k small other
    · rw [← therm]
      exact broke
    · rw [← therm]
      exact broke
  · have ended := slotEnd_eq x b on lock none_
    rw [if_pos last] at ended
    obtain ⟨u, ⟨frame, -, -, meas⟩, marked, -, -⟩ := takeReading_taken (s := s.slotReached) (n := s.therm.slot) x (by omega) (by omega)
    rw [ended]
    generalize s.slotReached.takeReading s.therm.slot x = v at marked
    have tree : v.tree = u.tree := by rw [marked]
    have pwr : s.pwrKept v := by
      have kept := marked.pwrKept
      rw [frame] at kept
      exact kept
    have strap : v.strap = s.strap := by rw [marked, frame]; rfl
    have now : v.now = max s.now s.slotRead := by rw [marked, frame]; rfl
    obtain ⟨w, same⟩ : ∃ w, w = (s.slotPassed v b).reach (s.slotPassed v b).therm.slotAt := ⟨_, rfl⟩
    have strapW : w.strap = s.strap := by rw [same]; exact strap
    have reviewed := roundEnd_reviewed (s := w) (by rw [same]; show v.scan.scanning = true; rw [marked, frame]; exact scan)
      (by rw [same]; show v.flt.injecting = []; rw [marked, frame]; exact none_)
    have voted : w.roundVoted = { w with therm.rounds := w.therm.rounds + 1, strap := w.roundVoted.strap } :=
      strapsVoted_frame { w with therm.rounds := w.therm.rounds + 1 }
    have votes : w.strapVotes = s.strapVotes := by rw [State.strapVotes, strapW]; rfl
    have bins := fun k small => strapsVoted_bins { w with therm.rounds := w.therm.rounds + 1 } (k := k) small
    have count := strapsVoted_votes { w with therm.rounds := w.therm.rounds + 1 }
    change ∀ k, k < 12 → vget w.roundVoted.strap.bins k = Trip.all (vget w.strap.bins k).maj at bins
    change w.roundVoted.strap.votes = if w.strapVotes = 0 then w.strap.votes else sat16 w.strap.votes w.strapVotes at count
    rw [strapW] at bins count
    rw [votes] at count
    rw [← same]
    have scale : (slotScale s.therm.slot : Int) = 2047 := by rw [last]; rfl
    have read := meas 21 (by decide) (by decide)
    rw [if_pos (by omega), scale] at read
    refine ⟨?_, ?_, ?_, ?_, ?_, fun k small => ?_, ?_, ?_, ?_, ?_, ?_⟩
    · rw [reviewed.boostOv, voted, same]; rfl
    · rw [reviewed.now, voted, same]
      show max v.now (s.therm.slotAt + 402432) = _
      have most := slotLoses_le s
      rw [now, State.slotRead]
      omega
    · rw [reviewed.slot, voted, same]
      show (s.therm.slot + 1) % 32 = 0
      rw [last]
    · rw [reviewed.rounds, voted, same]
      show v.therm.rounds + 1 = _
      rw [marked, frame]
      rfl
    · rw [reviewed.meas, voted, same]
      show vget v.tree.meas 21 = _
      rw [tree]
      exact read
    · rw [reviewed.strap]
      exact bins k small
    · rw [reviewed.strap]
      exact count
    · rw [reviewed.mem, voted, same]
      show v.mem = _
      rw [marked, frame]
      rfl
    · rw [reviewed.pgh, voted, same]
      show v.pgh = _
      rw [marked, frame]
      rfl
    · have kept := reviewed.pwr
      have base : w.roundVoted.pwr = v.pwr := by rw [voted, same]; rfl
      unfold State.pwrKept at *
      rw [base, pwr] at kept
      exact kept
    · rw [reviewed.scan, voted, same]
      show v.scan = _
      rw [marked, frame]
      rfl

end Sys2Proof.Machine
end

section
/-! PROOFS. Validation, drain, recheck and copy of an almanac load (R138, R181, R185, R186, R189, R248, R254). -/

namespace Sys2Proof.Machine

/-! ### D (R185, R248, R254) -/

/-- The timing words in force and the copy begun, before what D drops. -/
def State.wordsDrained (s : State) : State :=
  let s1 := { s with panel.words := timingOf (some s.alm.staged) s.frameRows, alm.copyAt := some s.now }
  State.headlandBegin { s1 with scan.rowT := s1.rowTimeNow }

/-- The state at D, before a shortfall is seen to. -/
def State.drained (s : State) : State := (s.wordsDrained.reclip.withdraw (fun _ => true)).clearDefer

theorem drainEnd_eq {s : State} (done : s.drainDone = true) : s.drainEnd = s.checkSpan s.drained := if_pos done

theorem drillCount_kept {s t : State} (r : DrillRole) (kept : ∀ i, i < 14 → (vget t.drills.drill i).role = (vget s.drills.drill i).role) :
    t.drillCount r = s.drillCount r := by
  unfold State.drillCount sumTo
  refine List.foldl_ext _ _ 0 fun a i listed => ?_
  unfold State.drillIs
  dsimp only
  rw [kept i (List.mem_range.mp listed)]

theorem drained_drill (s : State) {i : Nat} (small : i < 14) :
    vget s.drained.drills.drill i = { vget s.drills.drill i with defer := [] } := vget_vmapIdx _ _ small

theorem drained_aNow (s : State) : s.drained.aNow = s.aNow :=
  drillCount_kept .active fun i small => by rw [drained_drill s small]

theorem drained_short (s : State) (a : Nat) : s.drained.shortFor a = s.atDrain.shortFor a := rfl

theorem checkSpan_quiet {s : State} (quiet : s.shortFor s.aNow = true ∨ s.atDrain.shortFor s.aNow = false) :
    s.checkSpan s.drained = s.drained := by
  refine if_neg ?_
  rw [drained_aNow, drained_short]
  rcases quiet with h | h <;> rw [h] <;> simp

theorem checkSpan_short {s : State} (fine : s.shortFor s.aNow = false) (short : s.atDrain.shortFor s.aNow = true) :
    s.checkSpan s.drained = s.drained.raiseShortfall := by
  refine if_pos ?_
  rw [drained_aNow, drained_short, fine, short]
  rfl

theorem drained_tab (s : State) : s.drained.pgh.tab =
    smap Pgh.free (fun n p => if isHidden n ∧ p.state = .pending ∧ true then Pgh.free else p) s.pgh.tab := rfl

/-- The drops at D, of any state. -/
def State.hiddenDropped (s : State) : State := (s.reclip.withdraw (fun _ => true)).clearDefer

theorem hiddenDropped_frame (s : State) : s.hiddenDropped =
    { s with panel.vcom := s.hiddenDropped.panel.vcom, pgh := s.hiddenDropped.pgh, drills := s.hiddenDropped.drills } := rfl

theorem wordsDrained_frame (s : State) : s.wordsDrained = { s with
    panel := s.wordsDrained.panel, alm.copyAt := some s.now, scan := s.wordsDrained.scan } := rfl

theorem wordsDrained_words (s : State) : s.wordsDrained.panel.words = timingOf (some s.alm.staged) s.frameRows := rfl

theorem drained_keeps (s : State) : s.drained.panel.words = timingOf (some s.alm.staged) s.frameRows ∧ s.drained.now = s.now
    ∧ s.drained.alm = { s.alm with copyAt := some s.now } ∧ s.drained.mem = s.mem ∧ s.drained.otp = s.otp ∧ s.drained.link = s.link
    ∧ s.drained.flt = s.flt ∧ s.drained.rw = s.rw ∧ s.drained.therm = s.therm ∧ s.drained.pwr = s.pwr ∧ s.drained.seq = s.seq
    ∧ s.drained.tree = s.tree ∧ s.drained.rtc = s.rtc := by
  have words := wordsDrained_words s
  have drained : s.drained = s.wordsDrained.hiddenDropped := rfl
  rw [drained, hiddenDropped_frame, wordsDrained_frame]
  exact ⟨words, rfl, rfl, rfl, rfl, rfl, rfl, rfl, rfl, rfl, rfl, rfl, rfl⟩

/-! ### The recheck (R189) -/

/-- A pass counted. -/
def State.passCounted (s : State) : State :=
  { s with now := max s.now (s.alm.passAt + 860160)
           alm := { s.alm with passes := (s.alm.passes + 1) % 65536, passAt := max s.now (s.alm.passAt + 860160) } }

/-- A pass counted, with the one before it trusted again. -/
def State.passTrusted (s : State) : State := { s.passCounted with alm.suspect := false }

theorem recheckPass_eq {s : State} (readable : s.almReadable = true) (agrees : Bool) : s.recheckPass agrees =
    if agrees then s.passTrusted
    else if s.alm.suspect then s.passTrusted.raiseAs fltAlmCrc .hold
    else { s.passCounted with alm.suspect := true } := if_pos readable

/-- A HOLD or SAFE reaction begun, with nothing that turns it aside. -/
theorem react_begins {s : State} {level : Reaction} (n : Nat) (strong : level = .hold ∨ level = .safe) (runs : s.e0Runs = true)
    (free : s.seq.hedge = false) (light : s.flt.dark = false) (order : s.resetOrder = false) (delivery : s.rtc.deliveryAt = none)
    (idle : s.flt.react = none) : s.react level n = s.beginReaction level n [] := by
  unfold State.react
  rw [if_neg (by rw [runs, free, light, order]; decide), delivery, idle]
  rcases strong with h | h <;> rw [h] <;> rfl

/-- The record of a reaction that begins. -/
def State.firstReacting (s : State) (level : Reaction) (n : Nat) : Reacting :=
  { level := level, fault := n, stage := .toDecision, at_ := s.now, repair := n == fltAlmCrc, later := [], waits := [n] }

theorem beginReaction_reacts {s : State} (level : Reaction) (n : Nat) (soon : s.thirdSoon = false) (ups : s.stopsUp) :
    State.ReactsWith { s with flt.history := (s.now :: s.flt.history).take 3 } (s.firstReacting level n) (s.beginReaction level n []) := by
  have begun : s.beginReaction level n [] = State.reactStop { s with flt.history := (s.now :: s.flt.history).take 3 } (s.firstReacting level n) :=
    if_neg (by rw [soon]; decide)
  rw [begun]
  exact reactStop_reacts _ ups

theorem thirdSoon_few {s : State} (few : s.flt.history.length < 2) : s.thirdSoon = false := by
  unfold State.thirdSoon
  split
  · rename_i many
    rw [many] at few
    simp at few
  · rfl

/-! ### The copy (R186) -/

theorem raiseAs_note_marked (s : State) (n : Nat) : s.Marked (s.raiseAs n .note) := by
  have still (t : State) : t.react .note n = t := ite_self t
  unfold State.raiseAs
  split
  · exact State.Marked.refl s
  · rw [still]
    exact setSticky_marked s n

theorem setSticky_rtc (s : State) {n : Nat} (low : n < 64) : (s.setSticky n).rtc = s.rtc := by
  have written : (s.stuck n).rtc = s.rtc := by
    unfold State.stuck State.stickyWrite
    split
    · rfl
    · rfl
  have alerted (t : State) (b : Bool) : (t.alerted b).rtc = t.rtc := by
    unfold State.alerted
    split
    · show (t.attnArises 3).rtc = t.rtc
      unfold State.attnArises
      split <;> rfl
    · rfl
  have captured (t : State) (k f : Nat) : (t.captured k f).rtc = t.rtc := by
    unfold State.captured
    split <;> rfl
  rw [setSticky_eq, captured, alerted, written]

theorem raiseAs_note_sticky {s : State} {n : Nat} (low : n < 64) (records : s.recording = true) :
    (s.raiseAs n .note).sticky n = true := by
  have still (t : State) : t.react .note n = t := ite_self t
  rw [raiseAs_of_recording _ fun _ => records, still]
  exact setSticky_sticky s (.inl low)

theorem raiseAs_note_rtc (s : State) {n : Nat} (low : n < 64) : (s.raiseAs n .note).rtc = s.rtc := by
  have still (t : State) : t.react .note n = t := ite_self t
  unfold State.raiseAs
  split
  · rfl
  · rw [still]
    exact setSticky_rtc s low

theorem copyDone_unclocked {s : State} (ok : Bool) (lost : s.clock.pllLock = false) : s.copyDone ok = s := by
  unfold State.copyDone
  rw [lost]
  split
  · rfl
  · rfl
  · rename_i locked
    cases locked

/-- The copy ended, before what its CRC says. -/
def State.copyEnded (s : State) (n : Nat) (image : Option (Array Byte)) (words : Bool) : State :=
  { s with now := n, alm := { s.alm with
      thermalDue := true, load := .idle, staged := #[], stagedPages := [], check := none, copyAt := none, drainOn := false
      suspect := false, passAt := n, image := image, wordsDue := words } }

theorem copyDone_at {s : State} {at_ : Nat} (copy : s.alm.copyAt = some at_) (lock : s.clock.pllLock = true) (ok : Bool) : s.copyDone ok =
    if ok then s.copyEnded (max s.now (at_ + 3361)) (some s.alm.staged) s.alm.wordsDue
    else (s.copyEnded (max s.now (at_ + 3361)) none true).raiseAs fltAlmCrc .note := by
  unfold State.copyDone
  rw [copy, lock]
  cases ok <;> rfl

/-- Settles O24: D, the recheck and the copy, each with what it drops or raises. -/
theorem almEvents : Obligations.AlmEvents := by
  unfold Obligations.AlmEvents
  refine ⟨fun s checking => ?_, fun s done quiet => ⟨_, rfl, ?_⟩, fun s done records fine short stays => ⟨_, rfl, ?_⟩,
    fun s readable => ⟨?_, fun sure => ?_, fun doubt idle light free order delivery dormant few => ⟨_, rfl, ?_⟩⟩,
    fun s ok lost => congrArg _ (copyDone_unclocked ok lost), fun s at_ copy lock => ⟨congrArg _ (copyDone_at copy lock true), _, rfl, ?_⟩⟩
  · show Host.Outcome.next s.validationEnd = _
    unfold State.validationEnd
    by_cases lock : s.clock.pllLock = true
    · rw [if_pos ⟨checking, lock⟩, if_pos lock]
    · rw [if_neg fun h => lock h.2, if_neg lock]
  · rw [drainEnd_eq done, checkSpan_quiet quiet]
    obtain ⟨words, now, alm, mem, otp, link, flt, rw_, therm, pwr, seq, tree, rtc⟩ := drained_keeps s
    refine ⟨words, by rw [alm], now, fun x listed hidden pending => ?_, fun x listed kept full => ?_, fun i small => ?_, by rw [alm], ?_, mem, otp,
      link, flt, rw_, therm, pwr, seq, tree, rtc⟩
    · rw [drained_tab] at listed
      obtain ⟨y, -, rfl⟩ := mem_smap listed
      have gone : ¬ (isHidden y.1 ∧ y.2.state = .pending ∧ true) := fun h => by
        rw [if_pos h] at pending
        cases pending
      rw [if_neg gone] at pending
      exact gone ⟨decide_eq_true hidden, pending, rfl⟩
    · rw [drained_tab]
      refine mem_smap_fixed full (if_neg fun h => kept ⟨of_decide_eq_true h.1, h.2.1⟩) listed
    · rw [drained_drill s small]
    · rw [alm]
      have draining : s.alm.load == .draining := by
        simp only [State.drainDone, Bool.and_eq_true] at done
        exact done.1.1.1.1.1.1.1
      exact eq_of_beq draining
  · obtain ⟨-, -, -, -, -, -, flt, -, -, pwr, seq, -, rtc⟩ := drained_keeps s
    have stays' : s.drained.staysUp := by
      rw [State.staysUp, State.anyRail, seq, rtc, pwr]
      exact stays
    rw [drainEnd_eq done, checkSpan_short fine short]
    exact raiseLevel_sticky (.inl (by decide)) _ records stays'
  · exact congrArg _ (recheckPass_eq readable true)
  · refine congrArg _ ((recheckPass_eq readable false).trans ?_)
    rw [sure]
    rfl
  · have raised : s.recheckPass false = s.passTrusted.raiseAs fltAlmCrc .hold := by
      rw [recheckPass_eq readable false, doubt]
      rfl
    have runs : s.e0Runs = true := by
      simp only [State.almReadable, Bool.and_eq_true] at readable
      exact readable.1.1.1.1
    have marked := setSticky_marked s.passTrusted fltAlmCrc
    have stuck := setSticky_sticky s.passTrusted (n := fltAlmCrc) (.inl (by decide))
    rw [raised, raiseAs_of_recording (s := s.passTrusted) .hold fun _ => recording_of_e0Runs (s := s) runs]
    generalize s.passTrusted.setSticky fltAlmCrc = u at marked stuck
    have alm : u.alm.suspect = false := by rw [marked]; rfl
    have stays : u.staysUp := marked.staysUp (.inr ⟨delivery, dormant⟩)
    have few' : u.flt.history.length < 2 := by rw [marked]; exact few
    rw [react_begins fltAlmCrc (.inl rfl) (by rw [marked]; exact runs) (by rw [marked]; exact free) (by rw [marked]; exact light)
      (by rw [marked]; exact order) (by rw [marked]; exact delivery) (by rw [marked]; exact idle)]
    have reacts := beginReaction_reacts .hold fltAlmCrc (thirdSoon_few few') (staysUp_stopsUp stays)
    obtain ⟨-, q, react, core⟩ := reacts.reacting
    have kept := congrArg Untouched.alm reacts.toSteered.untouched
    refine ⟨(reacts.toSteered.sticky fltAlmCrc).trans stuck, ?_, q, react, ?_, ?_, ?_⟩
    · exact (congrArg AlmState.suspect kept).trans alm
    · exact congrArg Reacting.level core
    · exact congrArg Reacting.fault core
    · exact congrArg Reacting.repair core
  · have marked := raiseAs_note_marked (s.copyEnded (max s.now (at_ + 3361)) none true) fltAlmCrc
    have rtc := raiseAs_note_rtc (s.copyEnded (max s.now (at_ + 3361)) none true) (n := fltAlmCrc) (by decide)
    have sticky : s.recording = true → ((s.copyEnded (max s.now (at_ + 3361)) none true).raiseAs fltAlmCrc .note).sticky fltAlmCrc = true :=
      fun records => raiseAs_note_sticky (by decide) records
    rw [copyDone_at copy lock false, if_neg (by decide)]
    generalize State.raiseAs _ fltAlmCrc .note = u at marked rtc sticky ⊢
    have flt : u.flt.react = s.flt.react ∧ u.flt.dark = s.flt.dark := ⟨marked.react, marked.dark⟩
    have kept : u.alm = (s.copyEnded (max s.now (at_ + 3361)) none true).alm ∧ u.pgh = s.pgh ∧ u.drills = s.drills ∧ u.rw = s.rw
        ∧ u.therm = s.therm := by
      rw [marked]
      exact ⟨rfl, rfl, rfl, rfl, rfl⟩
    obtain ⟨alm, pgh, drills, rw_, therm⟩ := kept
    exact ⟨marked.now, alm, marked.panel, sticky, marked.otp, marked.mem, pgh, marked.scan, drills, rw_, therm, marked.tree, marked.seq,
      marked.pwrKept, rtc, flt.1, flt.2⟩

end Sys2Proof.Machine
end

section
/-! PROOFS. ROTATE and the end of self-tests (R131, R147, R155, R156). -/

namespace Sys2Proof.Machine

/-! ### What a rail-up after a reaction leaves (R469) -/

/-- The drills and the records of faults as they were. -/
def State.drillsKept (s t : State) : Prop := t.drills = s.drills ∧ ∀ n, t.sticky n = s.sticky n

theorem drillsKept_of {s t : State} (drills : t.drills = s.drills) (zero : t.flt.sticky0 = s.flt.sticky0) (one : t.flt.sticky1 = s.flt.sticky1)
    (rtc : t.rtc = s.rtc) : s.drillsKept t := ⟨drills, fun n => by rw [State.sticky, State.sticky, zero, one, rtc]⟩

theorem State.drillsKept.refl (s : State) : s.drillsKept s := ⟨rfl, fun _ => rfl⟩

theorem State.drillsKept.trans {s t u : State} (h : s.drillsKept t) (g : t.drillsKept u) : s.drillsKept u :=
  ⟨g.1.trans h.1, fun n => (g.2 n).trans (h.2 n)⟩

theorem raiseAux_drills (s : State) (n : Nat) : s.drillsKept (s.raiseAux n) := drillsKept_of rfl rfl rfl rfl

theorem raiseLsw_drills (s : State) (n : Nat) : s.drillsKept (s.raiseLsw n) := drillsKept_of rfl rfl rfl rfl

/-- The items of a return are raised, and nothing else is done. -/
theorem runSteps_return : ∀ (l : List PlanStep) (s : State) (k : Nat), s.seq.run = .holdReturn → s.drillsKept (s.runSteps l k)
  | [], s, k, run => by
    rw [State.runSteps, State.planEnd, run]
    exact drillsKept_of rfl rfl rfl rfl
  | .aux n :: l, s, k, run => by
    rw [State.runSteps.eq_def]
    dsimp only
    rw [run]
    dsimp only
    split
    · split
      · exact drillsKept_of rfl rfl rfl rfl
      · exact (raiseAux_drills s n).trans (runSteps_return l _ _ run)
    · exact runSteps_return l _ _ run
  | .lsw n :: l, s, k, run => by
    rw [State.runSteps.eq_def]
    dsimp only
    rw [run]
    dsimp only
    split
    · exact (raiseLsw_drills s n).trans (runSteps_return l _ _ run)
    · exact runSteps_return l _ _ run
  | .delay n :: l, s, k, run => by
    rw [State.runSteps.eq_def]
    dsimp only
    rw [run]
    dsimp only
    split
    · exact drillsKept_of rfl rfl rfl rfl
    · exact runSteps_return l _ _ run

theorem beginRailUp_drills (s : State) : s.drillsKept s.beginRailUp := by
  have raised := (beginRailUp_raised s).frame
  rw [raised]
  exact drillsKept_of rfl rfl rfl rfl

theorem planHoldReturn_drills (s : State) : s.drillsKept s.planHoldReturn := by
  have begun : s.drillsKept { s with seq.run := .holdReturn } := drillsKept_of rfl rfl rfl rfl
  exact begun.trans (runSteps_return (planSteps s.planNo) { s with seq.run := .holdReturn } 1 rfl)

theorem reactUp_drills (s : State) (r : Reacting) : s.drillsKept (s.reactUp r) := by
  have put (t : State) (b : Bool) (n : Option Nat) :
      t.drillsKept { t with flt.react := some { r with stage := .railUp, at_ := t.now }, up.firstUp := b, pwr.retAt := n } :=
    drillsKept_of rfl rfl rfl rfl
  unfold State.reactUp
  dsimp only
  split
  · exact drillsKept_of rfl rfl rfl rfl
  · split
    · exact drillsKept_of rfl rfl rfl rfl
    · split
      · split
        · exact ((put s false none).trans (beginRailUp_drills _)).trans (planHoldReturn_drills _)
        · exact drillsKept_of rfl rfl rfl rfl
      · split
        · exact drillsKept_of rfl rfl rfl rfl
        · exact (put s false s.pwr.retAt).trans (beginRailUp_drills _)

theorem tryReactUp_drills (s : State) : s.drillsKept s.tryReactUp := by
  unfold State.tryReactUp
  split
  · split
    · split
      · exact State.drillsKept.refl s
      · exact reactUp_drills s _
    · exact State.drillsKept.refl s
  · exact State.drillsKept.refl s

/-! ### ROTATE (R155) -/

theorem testable_eligible {s : State} {e : Nat} (range : 2 ≤ e ∧ e < 16) (can : s.testable e = true) : ¬ s.notTestable e ∧ s.testBusy = false
    ∧ ((vget s.drills.drill (e - 2)).role = .spare ∨ (vget s.drills.drill (e - 2)).role = .active ∧ s.spare.isSome = true) := by
  simp only [State.testable, Bool.and_eq_true, Bool.not_eq_true'] at can
  obtain ⟨⟨awake, idle⟩, role⟩ := can
  have either : (vget s.drills.drill (e - 2)).role = .spare ∨ (vget s.drills.drill (e - 2)).role = .active ∧ s.spare.isSome = true := by
    generalize (vget s.drills.drill (e - 2)).role = r at role ⊢
    cases r with
    | spare => exact .inl rfl
    | active => exact .inr ⟨rfl, role⟩
    | _ => cases role
  refine ⟨?_, idle, either⟩
  rintro (small | hold | ⟨spare, active⟩)
  · omega
  · rw [awake] at hold
    cases hold
  · rcases either with h | ⟨h, -⟩
    · exact spare h
    · exact active h

/-- A request that is accepted runs, or waits for its boundary. -/
theorem requestTest_accepted {s : State} {e : Nat} (range : 2 ≤ e ∧ e < 16) (can : s.testable e = true) :
    (s.requestTest e).drills.testDrill = e ∧ (s.requestTest e).drills.result = .running ∧ (s.requestTest e).testBusy = true
      ∧ (s.requestTest e).mem = s.mem ∧ (s.requestTest e).drills.rotateLast = s.drills.rotateLast := by
  obtain ⟨eligible, idle, either⟩ := testable_eligible range can
  rw [requestTest_eligible range.2 eligible, idle, if_neg (by decide)]
  rcases either with spare | ⟨active, other⟩
  · rw [spare, if_pos (by decide)]
    refine ⟨rfl, rfl, ?_, rfl, rfl⟩
    have listed : (s.drills.running ++ [(e, s.now)]).isEmpty = false := by simp
    show (s.drills.startTest || !(s.drills.running ++ [(e, s.now)]).isEmpty || s.drills.swap.isSome) = true
    rw [listed, Bool.not_false, Bool.or_true, Bool.true_or]
  · rw [active, if_neg (by decide), if_pos other]
    refine ⟨rfl, rfl, ?_, rfl, rfl⟩
    show (s.drills.startTest || !s.drills.running.isEmpty || (some e).isSome) = true
    rw [Option.isSome_some, Bool.or_true]

theorem rotateNext_found {s : State} {e : Nat} (found : s.rotateNext = some e) : (2 ≤ e ∧ e < 16) ∧ s.testable e = true := by
  refine ⟨?_, List.find?_some found⟩
  obtain ⟨k, -, rfl⟩ := List.mem_map.mp (List.mem_of_find?_eq_some found)
  omega

/-- ROTATE's minute over. -/
def State.rotated (s : State) : State :=
  { s with now := max s.now (s.drills.rotateAt + 60 * 201326592), drills.rotateAt := max s.now (s.drills.rotateAt + 60 * 201326592) }

theorem rotate_eq {s : State} (on : bit s.drills.ctl 0 = true) (clocked : s.clocked = true) : s.rotate = match s.rotated.rotateNext with
    | some e => State.requestTest { s.rotated with drills.rotateLast := e } e
    | none => s.rotated := if_pos (by rw [on, clocked]; rfl)

/-! ### Tests that end in service (R147, R156) -/

/-- The tests that end now. -/
def State.ending (s : State) (which : BitVec 16) : List (Nat × Nat) :=
  s.drills.running.filter (fun x => which.getLsbD x.1 && decide (x.2 + 1064960 ≤ s.now))

/-- A drill's test ends now. -/
def State.testEnded (s : State) (which : BitVec 16) (e : Nat) : Bool := (s.ending which).any (fun x => x.1 == e)

/-- The drills after their tests, with their images loaded. -/
def State.testsMarked (s : State) (which passed : BitVec 16) : State :=
  State.loadStores { s.mapDrills (fun i d =>
      if s.testEnded which (i + 2) then { d with role := (if passed.getLsbD (i + 2) then DrillRole.spare else .failed) } else d) with
    drills.running := s.drills.running.filter (fun x => !s.testEnded which x.1) }
    (fun e => s.testEnded which e && passed.getLsbD e)

/-- The outcome of the test asked for. -/
def State.testsAnswered (s : State) (which passed : BitVec 16) : State :=
  match s.drills.asked with
  | some e =>
    if s.testEnded which e then
      { s.testsMarked which passed with drills.asked := none, drills.result := (if passed.getLsbD e then TestResult.pass else .fail) }
    else s.testsMarked which passed
  | none => s.testsMarked which passed

theorem endTests_eq {s : State} (which passed : BitVec 16) (none_ : s.flt.injecting = []) : s.endTests which passed =
    State.tryReactUp (if (s.ending which).any (fun x => !passed.getLsbD x.1) then (s.testsAnswered which passed).raise fltDrillTest
      else s.testsAnswered which passed) := by
  have off : s.injected fltDrillTest = false := by rw [State.injected, none_]; rfl
  unfold State.endTests
  rw [off]
  rfl

theorem testEnded_of {s : State} {which : BitVec 16} {e b : Nat} (listed : (e, b) ∈ s.drills.running) (named : which.getLsbD e = true)
    (late : b + 1064960 ≤ s.now) : s.testEnded which e = true := by
  refine List.any_eq_true.mpr ⟨(e, b), List.mem_filter.mpr ⟨listed, ?_⟩, beq_self_eq_true e⟩
  rw [named, decide_eq_true late]
  rfl

theorem testEnded_parts {s : State} {which : BitVec 16} {e : Nat} (ended : s.testEnded which e = true) :
    (∃ b, (e, b) ∈ s.drills.running) ∧ which.getLsbD e = true := by
  obtain ⟨x, listed, same⟩ := List.any_eq_true.mp ended
  obtain ⟨running, named⟩ := List.mem_filter.mp listed
  have key : x.1 = e := eq_of_beq same
  obtain ⟨named, -⟩ := Bool.and_eq_true_iff.mp named
  rw [key] at named
  exact ⟨⟨x.2, by rw [← key]; exact running⟩, named⟩

theorem testEnded_not {s : State} {which : BitVec 16} {e : Nat}
    (no : (∀ b, (e, b) ∉ s.drills.running) ∨ which.getLsbD e = false) : s.testEnded which e = false := by
  refine Bool.eq_false_iff.mpr fun ended => ?_
  obtain ⟨⟨b, listed⟩, named⟩ := testEnded_parts ended
  rcases no with h | h
  · exact h b listed
  · rw [h] at named
    cases named

theorem testsMarked_drill (s : State) (which passed : BitVec 16) {i : Nat} (small : i < 14) :
    vget (s.testsMarked which passed).drills.drill i = if s.testEnded which (i + 2) then
        { vget s.drills.drill i with role := (if passed.getLsbD (i + 2) then DrillRole.spare else .failed) }
      else vget s.drills.drill i := vget_vmapIdx _ _ small

theorem testsAnswered_drills (s : State) (which passed : BitVec 16) :
    (s.testsAnswered which passed).drills.drill = (s.testsMarked which passed).drills.drill
      ∧ (s.testsAnswered which passed).drills.running = s.drills.running.filter (fun x => !s.testEnded which x.1)
      ∧ (s.testsAnswered which passed).recording = s.recording := by
  unfold State.testsAnswered
  split
  · split <;> exact ⟨rfl, rfl, rfl⟩
  · exact ⟨rfl, rfl, rfl⟩

theorem testsAnswered_result {s : State} (which passed : BitVec 16) {e : Nat} (asked : s.drills.asked = some e)
    (ended : s.testEnded which e = true) :
    (s.testsAnswered which passed).drills.result = (if passed.getLsbD e then TestResult.pass else .fail) := by
  rw [State.testsAnswered, asked]
  dsimp only
  rw [ended]
  rfl

theorem drillTest_mild : faultReaction fltDrillTest = .note ∨ faultReaction fltDrillTest = .ease := by decide

/-- What the end of tests leaves of the drills, and the fault of one that failed. -/
theorem endTests_drills {s : State} (which passed : BitVec 16) (none_ : s.flt.injecting = []) :
    (s.endTests which passed).drills = (s.testsAnswered which passed).drills
      ∧ ((s.ending which).any (fun x => !passed.getLsbD x.1) = true → s.recording = true →
          (s.endTests which passed).sticky fltDrillTest = true) := by
  have marked := raise_mild_marked (s := s.testsAnswered which passed) drillTest_mild
  rw [endTests_eq which passed none_]
  refine ⟨(tryReactUp_drills _).1.trans ?_, fun failed records => ((tryReactUp_drills _).2 _).trans ?_⟩
  · split
    · rw [marked]
    · rfl
  · rw [if_pos failed]
    exact raise_mild_sticky drillTest_mild (.inl (by decide)) fun _ => (testsAnswered_drills s which passed).2.2.trans records

/-- The moment at which the last of the tests that end has had its time. -/
def State.testsTime (s : State) (which : BitVec 16) : Nat :=
  s.drills.running.foldl (fun n x => if which.getLsbD x.1 then max n (x.2 + testSpan) else n) 0

theorem testsEnd_service {s : State} (which passed : BitVec 16) (clocked : s.clocked = true) (service : s.drills.startTest = false) :
    s.testsEnd which passed = (s.reach (s.testsTime which)).endTests which passed :=
  (if_neg (by rw [clocked]; decide)).trans (if_neg (by rw [service]; decide))

theorem latest_ge (p : Nat × Nat → Bool) (f : Nat × Nat → Nat) : ∀ (l : List (Nat × Nat)) (a : Nat),
    a ≤ l.foldl (fun n x => if p x then max n (f x) else n) a
      ∧ ∀ x ∈ l, p x = true → f x ≤ l.foldl (fun n x => if p x then max n (f x) else n) a
  | [], a => ⟨Nat.le_refl a, fun x h => absurd h List.not_mem_nil⟩
  | y :: l, a => by
    obtain ⟨rest, each⟩ := latest_ge p f l (if p y then max a (f y) else a)
    rw [List.foldl_cons]
    refine ⟨le_trans ?_ rest, fun x listed named => ?_⟩
    · split
      · exact Nat.le_max_left _ _
      · exact Nat.le_refl a
    · rcases List.mem_cons.mp listed with rfl | listed
      · refine le_trans ?_ rest
        rw [if_pos named]
        exact Nat.le_max_right _ _
      · exact each x listed named

theorem testsTime_ge {s : State} {which : BitVec 16} {x : Nat × Nat} (listed : x ∈ s.drills.running) (named : which.getLsbD x.1 = true) :
    x.2 + 1064960 ≤ s.testsTime which :=
  (latest_ge (fun x => which.getLsbD x.1) (fun x => x.2 + testSpan) s.drills.running 0).2 x listed named

/-! ### The tests of start-up (R131) -/

/-- Places of the drills that passed, ascending. -/
def startPassed (passed : BitVec 16) : List Nat := (List.range 14).filter (fun i => passed.getLsbD (i + 2))

/-- The number of slots given. -/
def State.startSlots (s : State) (passed : BitVec 16) : Nat := min (14 - scanSpares (s.bin 9)) (startPassed passed).length

/-- Roles, slots and banks as the start-up gives them. -/
def State.startGiven (s : State) (passed : BitVec 16) : State :=
  let s1 := s.mapDrills (fun i d => { d with role := (if (startPassed passed).contains i then DrillRole.spare else .failed) })
  { (s1.giveSlots ((startPassed passed).take (s.startSlots passed))).giveBanks false with
    drills.aStart := s.startSlots passed, drills.running := [] }

/-- The stores loaded, and the fault of a drill that failed. -/
def State.startLoaded (s : State) (passed : BitVec 16) : State :=
  if (startPassed passed).length < 14 then
    ((s.startGiven passed).loadStores (fun e => (startPassed passed).contains (e - 2) && decide (2 ≤ e))).raise fltDrillTest
  else (s.startGiven passed).loadStores (fun e => decide (2 ≤ e))

theorem startAssign_eq (s : State) (passed : BitVec 16) : s.startAssign passed =
    { (if (s.startLoaded passed).shortFor (s.startSlots passed) then (s.startLoaded passed).raiseShortfall else s.startLoaded passed) with
      drills.startTest := false } := rfl

theorem startLoaded_drills (s : State) (passed : BitVec 16) : (s.startLoaded passed).drills = (s.startGiven passed).drills
    ∧ ∀ a, (s.startLoaded passed).shortFor a = s.shortFor a := by
  have given (a : Nat) : (s.startGiven passed).shortFor a = s.shortFor a := rfl
  unfold State.startLoaded
  split
  · have marked := raise_mild_marked (s := (s.startGiven passed).loadStores (fun e => (startPassed passed).contains (e - 2) && decide (2 ≤ e)))
      drillTest_mild
    rw [marked]
    exact ⟨rfl, given⟩
  · exact ⟨rfl, given⟩

theorem mem_startPassed {passed : BitVec 16} {i : Nat} (small : i < 14) :
    (startPassed passed).contains i = passed.getLsbD (i + 2) := by
  rw [List.contains_eq_mem, startPassed]
  simp [small]

/-- A drill's role and slot once its test is known and the slots are given. -/
def slotGiven (l : List Nat) (a i : Nat) (d : Drill) : Drill :=
  let d1 := { d with role := (if l.contains i then DrillRole.spare else .failed) }
  if (l.take a).contains i then { d1 with role := .active, slot := (l.take a).idxOf i } else d1

theorem epochGiven_keeps (d : Drill) (e : BitVec 8) : (if d.role = .active then { d with epoch := e } else d).role = d.role
    ∧ (if d.role = .active then { d with epoch := e } else d).slot = d.slot := by
  split <;> exact ⟨rfl, rfl⟩

theorem giveBanks_drill (s : State) (bump : Bool) {i : Nat} (small : i < 14) :
    (vget (s.giveBanks bump).drills.drill i).role = (vget s.drills.drill i).role
      ∧ (vget (s.giveBanks bump).drills.drill i).slot = (vget s.drills.drill i).slot := by
  rw [State.giveBanks, State.mapDrills, vget_vmapIdx _ _ small]
  exact epochGiven_keeps _ _

theorem startGiven_given (s : State) (passed : BitVec 16) {i : Nat} (small : i < 14) :
    (vget (s.startGiven passed).drills.drill i).role = (slotGiven (startPassed passed) (s.startSlots passed) i (vget s.drills.drill i)).role
      ∧ (vget (s.startGiven passed).drills.drill i).slot
        = (slotGiven (startPassed passed) (s.startSlots passed) i (vget s.drills.drill i)).slot := by
  have given := giveBanks_drill ((s.mapDrills (fun i d =>
    { d with role := (if (startPassed passed).contains i then DrillRole.spare else .failed) })).giveSlots
      ((startPassed passed).take (s.startSlots passed))) false small
  rw [State.giveSlots, State.mapDrills, vget_vmapIdx _ _ small, State.mapDrills, vget_vmapIdx _ _ small] at given
  exact given

theorem startGiven_drill (s : State) (passed : BitVec 16) {i : Nat} (small : i < 14) :
    (passed.getLsbD (i + 2) = false → (vget (s.startGiven passed).drills.drill i).role = .failed)
      ∧ (passed.getLsbD (i + 2) = true →
        if (startPassed passed).idxOf i < s.startSlots passed then (vget (s.startGiven passed).drills.drill i).role = .active
            ∧ (vget (s.startGiven passed).drills.drill i).slot = (startPassed passed).idxOf i
          else (vget (s.startGiven passed).drills.drill i).role = .spare) := by
  obtain ⟨role, slot⟩ := startGiven_given s passed small
  have listed := mem_startPassed (passed := passed) small
  rw [role, slot]
  refine ⟨fun failed => ?_, fun good => ?_⟩
  · rw [failed] at listed
    have none_ : ((startPassed passed).take (s.startSlots passed)).contains i = false := by
      rw [List.contains_eq_mem, decide_eq_false_iff_not] at listed ⊢
      exact fun h => listed (List.mem_of_mem_take h)
    rw [slotGiven, none_, listed]
    rfl
  · rw [good] at listed
    have member : i ∈ startPassed passed := List.contains_iff_mem.mp listed
    have taken : ((startPassed passed).take (s.startSlots passed)).contains i
        = decide ((startPassed passed).idxOf i < s.startSlots passed) := by
      rw [List.contains_eq_mem, decide_eq_decide]
      exact List.mem_take_iff_idxOf_lt member
    rw [slotGiven, taken, listed]
    by_cases given : (startPassed passed).idxOf i < s.startSlots passed
    · have place : ((startPassed passed).take (s.startSlots passed)).idxOf i = (startPassed passed).idxOf i := by
        refine List.IsPrefix.idxOf_eq_of_mem (List.take_prefix _ _) ?_
        exact (List.mem_take_iff_idxOf_lt member).mpr given
      rw [if_pos given, decide_eq_true given, place]
      exact ⟨rfl, rfl⟩
    · rw [if_neg given, decide_eq_false given]
      rfl

theorem scanIfUp_drills (s : State) : s.scanIfUp.drills = s.drills := by
  unfold State.scanIfUp
  split <;> rfl

/-- Settles O28: a request that would be accepted starts or waits; of the tests that end only the drills named change, by role, and a
start-up's slots go to the places that passed, in their order. -/
theorem selfTests : Obligations.SelfTests := by
  unfold Obligations.SelfTests
  refine ⟨fun s on clocked => ?_, fun s which passed clocked none_ service => ?_, fun s which passed clocked none_ start => ?_⟩
  · have run := rotate_eq on clocked
    refine ⟨fun idle => ?_, fun e found => ?_⟩
    · refine congrArg Host.Outcome.next (run.trans ?_)
      have idle : s.rotated.rotateNext = none := idle
      rw [idle]
      rfl
    · obtain ⟨range, can⟩ := rotateNext_found found
      have can' : State.testable { s.rotated with drills.rotateLast := e } e = true := can
      obtain ⟨named, running, busy, mem, last⟩ := requestTest_accepted range can'
      refine ⟨can, State.requestTest { s.rotated with drills.rotateLast := e } e, congrArg Host.Outcome.next (run.trans ?_),
        last, named, running, busy, mem⟩
      have found : s.rotated.rotateNext = some e := found
      rw [found]
  · have run := testsEnd_service which passed clocked service
    obtain ⟨kept, fault⟩ := endTests_drills (s := s.reach (s.testsTime which)) which passed none_
    obtain ⟨drill, left, records⟩ := testsAnswered_drills (s.reach (s.testsTime which)) which passed
    have ends {e b : Nat} (listed : (e, b) ∈ s.drills.running) (named : which.getLsbD e = true) :
        (s.reach (s.testsTime which)).testEnded which e = true :=
      testEnded_of listed named (le_trans (testsTime_ge listed named) (Nat.le_max_right _ _))
    refine ⟨(s.reach (s.testsTime which)).endTests which passed, congrArg Host.Outcome.next run, ?_⟩
    rw [kept, drill, left]
    refine ⟨fun i b small listed named => ⟨?_, ?_⟩, fun i small no => ?_, fun e b _ _ asked listed named => ?_, fun x listed other => ?_,
      fun records' failed => fault ?_ records'⟩
    · rw [testsMarked_drill _ which passed small, if_pos (ends listed named)]
    · intro still
      obtain ⟨-, other⟩ := List.mem_filter.mp still
      rw [ends listed named] at other
      cases other
    · rw [testsMarked_drill _ which passed small, testEnded_not (s := s.reach (s.testsTime which)) no, if_neg (by decide)]
      rfl
    · exact testsAnswered_result which passed asked (ends listed named)
    · refine List.mem_filter.mpr ⟨listed, ?_⟩
      rw [testEnded_not (.inr other)]
      rfl
    · obtain ⟨x, listed, named, bad⟩ := failed
      refine List.any_eq_true.mpr ⟨x, List.mem_filter.mpr ⟨listed, ?_⟩, by rw [bad]; rfl⟩
      rw [named, Bool.true_and, decide_eq_true_iff]
      exact le_trans (testsTime_ge listed named) (Nat.le_max_right _ _)
  · intro ok a enough
    obtain ⟨drills, short⟩ := startLoaded_drills (s.reach (s.mem.tickBase.getD s.now + testSpan)) passed
    have enough : (s.reach (s.mem.tickBase.getD s.now + testSpan)).shortFor ((s.reach (s.mem.tickBase.getD s.now + testSpan)).startSlots passed) = false := enough
    have given : ((s.reach (s.mem.tickBase.getD s.now + testSpan)).startAssign passed).scanIfUp.drills
        = { ((s.reach (s.mem.tickBase.getD s.now + testSpan)).startGiven passed).drills with startTest := false } := by
      rw [scanIfUp_drills, startAssign_eq, short, enough, if_neg (by decide)]
      dsimp only
      rw [drills]
    refine ⟨((s.reach (s.mem.tickBase.getD s.now + testSpan)).startAssign passed).scanIfUp,
      congrArg Host.Outcome.next ((if_neg (by rw [clocked]; decide)).trans (if_pos start)), ?_⟩
    rw [given]
    exact ⟨rfl, rfl, rfl, fun i small => startGiven_drill (s.reach (s.mem.tickBase.getD s.now + testSpan)) passed small⟩

end Sys2Proof.Machine
end

section
/-! PROOFS. Records of the registered port, and what the window does by time (R266, R269, R274, R277, R486). -/

namespace Sys2Proof.Machine

/-- A record's SYNC has been received and the record is still arriving. -/
def recordBroken : State := { Tests.live with rw := { Tests.live.rw with rx := [0x3C, 0xC3] } }

/-- Refutes O57: a record abandoned at a gap sets its bit of `RW_FLAG` by the hardware, which R13's record of the cycle keeps. -/
theorem not_recordsChecked : ¬ Obligations.RecordsChecked := by
  intro h
  obtain ⟨-, -, gap, -⟩ := h
  have run := Host.Outcome.next.inj (gap recordBroken (by decide +kernel) (by decide +kernel))
  have set := congrArg (fun t : State => t.acc.hwSet) run
  exact absurd set (by decide +kernel)

/-! ### A typesetting and the status word (R272, R277) -/

/-- Only the typesetting in progress or due, and what it is asked for, differ. -/
def State.Drew (s t : State) : Prop :=
  t = { s with rw := { s.rw with typesetting := t.rw.typesetting, typesetAgain := t.rw.typesetAgain, statusShown := t.rw.statusShown
                                 redraw := t.rw.redraw, firstDraw := t.rw.firstDraw } }

theorem State.Drew.refl (s : State) : s.Drew s := rfl

theorem State.Drew.trans {s t u : State} (h : s.Drew t) (g : t.Drew u) : s.Drew u := by
  unfold State.Drew at *
  rw [g]
  dsimp only
  rw [h]

theorem typesetFor_drew (s : State) (rb : Bool) : s.Drew (s.typesetFor rb) := by
  unfold State.typesetFor
  split
  · rfl
  · split <;> rfl

theorem refreshStatus_drew (s : State) : s.Drew s.refreshStatus := by
  unfold State.refreshStatus
  split
  · rfl
  · exact typesetFor_drew s false

theorem firstRender_drew (s : State) : s.Drew s.firstRender := by
  unfold State.firstRender
  split
  · exact State.Drew.trans (t := { s with rw.firstDraw := false }) rfl (typesetFor_drew _ false)
  · rfl

/-- What a typesetting leaves: the time, the memory, the pigeonholes and what is known of the records. -/
theorem State.Drew.keeps {s t : State} (h : s.Drew t) : t.now = s.now ∧ t.mem = s.mem ∧ t.pgh = s.pgh ∧ t.otp = s.otp
    ∧ t.rw.recheck = s.rw.recheck ∧ t.rw.drawn = s.rw.drawn ∧ t.rw.restored = s.rw.restored ∧ t.rw.floor = s.rw.floor
    ∧ t.rw.session = s.rw.session ∧ t.rw.stale = s.rw.stale ∧ t.rwStatus = s.rwStatus := by
  rw [h]
  exact ⟨rfl, rfl, rfl, rfl, rfl, rfl, rfl, rfl, rfl, rfl, rfl⟩

theorem attend_rwStatus (s : State) : s.attend.rwStatus = s.rwStatus := by
  unfold State.rwStatus State.lcNow State.staleSeconds
  rw [State.attend_otp, State.attend_rw]

/-! ### Requests (R269) -/

/-- A request fallen due, before the port is looked at. -/
def State.requestAsked (s : State) (at_ : Nat) : State :=
  { s.reach at_ with rw.requestDue := some (at_ + 201326592), rw.requestWaits := s.requestHolds }

theorem requestFalls_eq {s : State} {at_ : Nat} (due : s.rw.requestDue = some at_) (port : s.portLive = true) :
    s.requestFalls = (s.requestAsked at_).freePort := by
  rw [State.requestFalls, due]
  exact if_pos port

theorem freePort_waits {s : State} (no : (s.rw.requestWaits && !s.recordArriving) = false) : s.freePort = s :=
  if_neg (by rw [no]; decide)

theorem freePort_sends {s : State} (waits : s.rw.requestWaits = true) (quiet : s.recordArriving = false) (holds : s.requestHolds = true) :
    s.freePort = State.sendFrame (State.reach { s with rw.requestWaits := false } (max s.rw.txUntil s.rw.rxAt + s.bitPeriod))
      { kind := 0x82, code := 0, seq := 0 } :=
  (if_pos (by rw [waits, quiet]; rfl)).trans (if_pos holds)

/-! ### Renders (R276, R277) -/

/-- A typesetting ended. -/
def State.typesetOver (s : State) (at_ : Nat) : State := { s.reach at_ with rw.typesetting := none }

theorem renderEnds_eq {s : State} {at_ : Nat} {m : Array Bool} (typesetting : s.rw.typesetting = some (at_, m)) (clocked : s.clocked = true)
    (once : s.rw.typesetAgain = false) : s.renderEnds = ((s.typesetOver at_).rendered m).attend := by
  rw [State.renderEnds, typesetting, clocked]
  dsimp only
  rw [once]
  rfl

/-- Pigeonhole 0 filled: what it holds, and what stays. -/
theorem fillZero_holds (s : State) (m : Array Bool) : (s.fillZero m).rw.filled = some m ∧ (s.fillZero m).pgh.sieve = s.pgh.sieve
    ∧ (let p := (s.fillZero m).pgh_ 0
       p.state = .pending ∧ p.preempt = true ∧ p.format = 0 ∧ p.keep = true ∧ p.mode.val = s.winMode ∧ p.height = s.winH
         ∧ p.widg = s.winW / 4 ∧ p.page = (if s.rw.bufB then 4032 else 4064) ∧ p.payload.map (fun x => x.bytes) = some (mapBytes m))
    ∧ (∀ x ∈ s.pgh.tab, x.1 ≠ 0 → x ∈ (s.fillZero m).pgh.tab) := by
  have entry (p : Pgh) (pending : p.state = .pending) : (s.setPgh 0 p).pgh_ 0 = p := pgh_setPgh s 0 p (pending_ne_free pending)
  have mode : s.winMode < 4 := Nat.mod_lt _ (by decide)
  refine ⟨rfl, rfl, ?_, fun x listed other => mem_sset_other other listed⟩
  have holds : (s.fillZero m).pgh_ 0 = _ := entry _ rfl
  rw [holds]
  exact ⟨rfl, rfl, rfl, rfl, Nat.mod_eq_of_lt mode, rfl, rfl, rfl, rfl⟩

/-! ### Staleness and the re-check (R274, R486) -/

theorem staleNow_eq {s : State} (live : s.rw.session.isSome = true) (limit : s.staleSeconds ≠ 0) (fresh : s.rw.stale = false)
    (port : s.portLive = true) (none_ : s.rw.checking = none) : s.staleNow =
      (State.refreshStatus { s.reach (s.rw.lastVerified + s.staleSeconds * 201326592) with rw.stale := true }).attend := by
  have verifies : s.verifiesBy (s.rw.lastVerified + s.staleSeconds * 201326592) = false := by rw [State.verifiesBy, none_]
  have limited : (s.staleSeconds == 0) = false := beq_eq_false_iff_ne.mpr limit
  refine if_pos ?_
  show (s.rw.session.isSome && !(s.staleSeconds == 0) && !s.rw.stale && s.portLive
    && !s.verifiesBy (s.rw.lastVerified + s.staleSeconds * 201326592)) = true
  rw [live, limited, fresh, port, verifies]
  rfl

theorem verifiesBy_of {s : State} {r : Record} {due t : Nat} (checking : s.rw.checking = some (r, none, due)) (good : s.sigOk r = true)
    (same : due / 6144 = t / 6144) : s.verifiesBy t = true := by
  rw [State.verifiesBy, checking]
  show (due / 6144 == t / 6144 && s.sigOk r) = true
  rw [same, good, beq_self_eq_true]
  rfl

theorem firstRequest_keeps (s : State) : s.firstRequest = { s with rw.requestDue := s.firstRequest.rw.requestDue } := by
  unfold State.firstRequest
  split <;> rfl

/-- The re-check's outcome. -/
theorem endRecheck_of {s : State} {k : KeptSlot} (kept : s.keptSlot = some k) : s.endRecheck = { s with
    rw.recheck := false
    rw.drawn := (if (s.recCode true k.record).isNone && s.sigOk k.record then some k.record else s.rw.drawn)
    rw.restored := (if (s.recCode true k.record).isNone && s.sigOk k.record then true else s.rw.restored) } := by
  rw [State.endRecheck, kept]
  dsimp only
  split <;> rfl

/-- Settles O58: each of the window's events by its own effect; what a typesetting or a level event adds leaves what is claimed. -/
theorem windowEvents : Obligations.WindowEvents := by
  unfold Obligations.WindowEvents
  refine ⟨fun s at_ due port => ⟨fun holds quiet => ?_, fun holds arriving => ?_, fun holds => ?_⟩,
    fun s at_ m typesetting clocked once => ⟨fun runs => ?_, fun idle => ?_⟩, fun s live limit fresh port none_ => ?_,
    fun s r due checking good same => ?_, fun s k recheck clocked kept => ?_⟩
  · refine congrArg Host.Outcome.next ((requestFalls_eq due port).trans ?_)
    rw [freePort_sends (s := s.requestAsked at_) holds quiet holds]
    rfl
  · refine congrArg Host.Outcome.next ((requestFalls_eq due port).trans ?_)
    have arriving : (s.requestAsked at_).recordArriving = true := arriving
    rw [freePort_waits (by rw [arriving, Bool.not_true, Bool.and_false]), State.requestAsked, holds]
    rfl
  · refine congrArg Host.Outcome.next ((requestFalls_eq due port).trans ?_)
    have waits : (s.requestAsked at_).rw.requestWaits = false := holds
    rw [freePort_waits (by rw [waits, Bool.false_and]), State.requestAsked, holds]
    rfl
  · refine ⟨_, congrArg Host.Outcome.next (renderEnds_eq typesetting clocked once), ?_⟩
    have runs : ((s.typesetOver at_).pgh_ 0).state = .running := runs
    rw [State.attend_now, State.attend_rw, State.attend_pgh, State.attend_mem, State.rendered, if_pos runs]
    exact ⟨rfl, rfl, rfl, rfl, rfl⟩
  · refine ⟨_, congrArg Host.Outcome.next (renderEnds_eq typesetting clocked once), ?_⟩
    have idle : ((s.typesetOver at_).pgh_ 0).state ≠ .running := idle
    unfold State.pgh_
    rw [State.attend_now, State.attend_rw, State.attend_pgh, State.attend_mem, State.rendered, if_neg idle]
    dsimp only
    obtain ⟨filled, sieve, holds, rest⟩ := fillZero_holds { s.typesetOver at_ with
      rw.redraw := { s.rw.redraw with filled := s.rw.redraw.filled || s.rw.redraw.typeset, typeset := false } } m
    exact ⟨rfl, rfl, filled, rfl, rfl, sieve, holds, rest⟩
  · refine ⟨_, congrArg Host.Outcome.next (staleNow_eq live limit fresh port none_), ?_⟩
    obtain ⟨now, mem, pgh, -, -, drawn, -, -, session, stale, status⟩ := (refreshStatus_drew
      { s.reach (s.rw.lastVerified + s.staleSeconds * 201326592) with rw.stale := true }).keeps
    rw [attend_rwStatus, State.attend_now, State.attend_rw, State.attend_pgh, State.attend_mem, now, mem, pgh, drawn, session, stale, status]
    refine ⟨rfl, rfl, rfl, rfl, rfl, rfl, fun state on epoch key well => ?_⟩
    have key : s.rw.key.isNone = false := by rw [← Option.not_isSome, key]; rfl
    refine (if_neg state).trans ((if_neg ?_).trans ((if_neg ?_).trans ((if_neg ?_).trans (if_pos ?_))))
    · exact Bool.eq_false_iff.mp on
    · rintro (h | h)
      · exact epoch h
      · exact absurd (key.symm.trans h) (by decide)
    · exact Bool.eq_false_iff.mp well
    · exact ⟨live, limit, rfl⟩
  · have verifies : s.verifiesBy (s.rw.lastVerified + s.staleSeconds * sclkHz) = true := verifiesBy_of checking good same
    exact congrArg Host.Outcome.next (if_neg (by rw [verifies, Bool.not_true, Bool.and_false]; decide))
  · have run : s.recheckEnds = ((s.reach (s.rw.lastVerified + 7864320)).endRecheck.firstRender.firstRequest).attend :=
      if_pos (by rw [recheck, clocked]; rfl)
    have kept : (s.reach (s.rw.lastVerified + 7864320)).keptSlot = some k := kept
    refine ⟨_, congrArg Host.Outcome.next run, ?_⟩
    obtain ⟨now, mem, pgh, -, over_, drawn, restored, floor, session, -, -⟩ :=
      (firstRender_drew (s.reach (s.rw.lastVerified + 7864320)).endRecheck).keeps
    rw [State.attend_now, State.attend_rw, State.attend_pgh, State.attend_mem, firstRequest_keeps]
    dsimp only
    rw [now, mem, pgh, over_, drawn, restored, floor, session, endRecheck_of kept]
    exact ⟨rfl, rfl, rfl, rfl, rfl, rfl, rfl, rfl⟩

end Sys2Proof.Machine
end

section
/-! PROOFS. Posted writes that land, guarded writes that reply, domains woken on demand, SEAL_N (R357, R394, R402, R403, R461). -/

namespace Sys2Proof.Machine

/-! ### Posted and guarded writes (R394, R403) -/

/-- A posted write landed, before what waited for its TRANSIT bit goes on. -/
def State.landedFirst (s : State) (p : Posted) (l : List Posted) : State :=
  State.land { s with now := max s.now p.due, acc.posted := l } p.addr p.data p.full

theorem postedLand_first {s : State} {p : Posted} {l : List Posted} (posted : s.acc.posted = p :: l) :
    s.postedLand p.block.val = (s.landedFirst p l).pump := by
  have found : (p :: l).find? (fun x => x.block.val == p.block.val) = some p := List.find?_cons_of_pos (beq_self_eq_true p.block.val)
  have left : (p :: l).erase p = l := List.erase_cons_head p l
  rw [State.postedLand, posted, found]
  dsimp only
  rw [State.landedFirst, ← left, ← posted]
  rfl

theorem postedLand_none {s : State} {b : Fin 16} (none_ : ∀ p ∈ s.acc.posted, p.block ≠ b) : s.postedLand b.val = s := by
  have missing : s.acc.posted.find? (fun p => p.block.val == b.val) = none :=
    List.find?_eq_none.mpr fun p listed same => none_ p listed (Fin.ext (eq_of_beq same))
  rw [State.postedLand, missing]

/-- A guarded write refused at its reply. -/
def State.guardRefused (s : State) (x : Guarded) (why : Nat) : State :=
  { s.reach x.due with acc.guarded := [], acc.refusals := sat16 s.acc.refusals 1, acc.why := why }

theorem guardedReply_refused {s : State} {x : Guarded} {c : Nat} (one : s.acc.guarded = [x]) (lock : s.clock.pllLock = true)
    (why : x.why = some c) : s.guardedReply =
      ((s.guardRefused x c).answer x.reply x.typ x.addr x.tag x.crc 0x30 []).pump := by
  have outcome : (s.reach x.due).guardOutcome x = some c := by rw [State.guardOutcome, why]
  rw [State.guardedReply, one]
  dsimp only
  rw [if_pos lock, outcome]
  rfl

/-! ### A domain woken on demand (R357) -/

/-- The row of `DRL_STAT`. -/
def drlStatRow : RegRow := ro 0x412 14 .drlStat .drills 0xFFFFF808

theorem rowAt_drlStat {i : Nat} (small : i < 14) : rowAt ((0x412 + i) % 4096) = some drlStatRow := by
  interval_cases i <;> rfl

theorem decodeAddr_drlStat (s : State) {i : Nat} (small : i < 14) : s.decodeAddr (0x412 + i) = some (0x412 + i) := by
  have base : (0x412 + i) % 4096 = 0x412 + i := by omega
  have listed := rowAt_drlStat small
  rw [base] at listed
  have decoded : (0x412 + i) % 256 &&& blockMask ((0x412 + i) / 256) = (0x412 + i) % 256 := by
    interval_cases i <;> rfl
  have plain := decodeAddr_listed s (k := 0) (by decide) (by omega) listed (.inl rfl) decoded
  rw [Nat.mul_zero, Nat.zero_add] at plain
  exact plain

/-- A read of a drill's status moves nothing. -/
theorem readAt_drlStat (s : State) {i : Nat} (small : i < 14) : (s.readAt (0x412 + i)).2 = s := by
  rw [State.readAt, rowAt_drlStat small]
  have reg : drlStatRow.reg ((0x412 + i) % 4096) = .drlStat i := by
    have base : (0x412 + i) % 4096 - 0x412 = i := by omega
    show Reg.drlStat ((0x412 + i) % 4096 - 0x412) = _
    rw [base]
  dsimp only
  rw [reg]
  rfl

/-- What a status reads does not turn on the link, the guarded writes, the quiet time or the power states' record. -/
theorem readAt_drlStat_same (s : State) {i : Nat} (small : i < 14) (k : LinkState) (g : List Guarded) (q : Nat) (p : PwrState) :
    (({ s with link := k, acc.guarded := g, rtc.quietAt := q, pwr := p } : State).readAt (0x412 + i)).1 = (s.readAt (0x412 + i)).1 := by
  rw [State.readAt, State.readAt, rowAt_drlStat small]
  have reg : drlStatRow.reg ((0x412 + i) % 4096) = .drlStat i := by
    have base : (0x412 + i) % 4096 - 0x412 = i := by omega
    show Reg.drlStat ((0x412 + i) % 4096 - 0x412) = _
    rw [base]
  have block : (0x412 + i) % 4096 / 256 = 4 := by omega
  dsimp only
  rw [reg, block]
  rfl

/-- The access to a drill's status, awake or to be woken. -/
theorem access_drlStat {s : State} {v : Serving} {i : Nat} (small : i < 14) (next : v.next = 0x412 + i) (read : v.write = false)
    (steady : s.relocking = false) (held : s.pwr.st = .hold) (serving : s.link.serving = []) (guarded : s.acc.guarded = [])
    (posted : s.acc.posted = []) :
    (vget s.pwr.awake 0 = none → s.access v = (s.wakeDomain 0, .stall v))
      ∧ ((vget s.pwr.awake 0).isSome = true → s.access v = ({ s with pwr.awake := vset s.pwr.awake 0 (some s.now) },
          .done (v.past (({ s with pwr.awake := vset s.pwr.awake 0 (some s.now) } : State).readAt (0x412 + i)).1))) := by
  have listed := decodeAddr_drlStat s small
  have wakes : s.mustWake (0x412 + i) = if s.asleep 0 then some 0 else none := by
    rw [State.mustWake, rowAt_drlStat small]
    rfl
  have sleep : s.asleep 0 = (vget s.pwr.awake 0).isNone := if_pos held
  have jumps : s.jumpsIn v drlStatRow = false := by rw [State.jumpsIn, read]; rfl
  have unkeyed : drlStatRow.key = none := rfl
  have step : s.access v = s.accessTo v drlStatRow (0x412 + i) (v.todo.headD 0) := by
    rw [State.access, next, listed]
    dsimp only
    rw [rowAt_drlStat small]
  refine ⟨fun asleep => ?_, fun awake => ?_⟩
  · rw [step, State.accessTo, jumps, unkeyed]
    dsimp only
    rw [steady, if_neg (by decide), wakes, sleep, asleep]
    rfl
  · have awake : (vget s.pwr.awake 0).isNone = false := by rw [← Option.not_isSome, awake]; rfl
    have touch : s.touch drlStatRow.dom = { s with pwr.awake := vset s.pwr.awake 0 (some s.now) } := if_pos held
    rw [step, State.accessTo, jumps, unkeyed]
    dsimp only
    rw [steady, if_neg (by decide), wakes, sleep, awake, if_neg (by decide)]
    dsimp only
    rw [transit_quiet serving guarded posted, Bool.and_false, if_neg (by decide), read, if_neg (by decide), touch, readAt_drlStat _ small]

/-- A READ of a drill's status in HOLD waits for the drills. -/
def State.drillsWaking (s : State) (l : Letter) : State :=
  let c := s.counted l
  { c with pwr.waking := vset c.pwr.waking 0 (some (s.now + usToSclk 8)), link.serving := [readServing c l] }

theorem wakeDomain_held {s : State} {n : Nat} (held : s.pwr.st = .hold) (none_ : s.pwr.waking = Vector.replicate 3 none) (now : s.now = n) :
    s.wakeDomain 0 = { s with pwr.waking := vset s.pwr.waking 0 (some (n + usToSclk 8)) } := by
  subst now
  have idle : (vget s.pwr.waking 0).isSome = false := by rw [none_]; rfl
  have alone : s.returnWakes 0 = none := by
    rw [State.returnWakes]
    split
    · rw [held, if_neg (by rintro ⟨h, -⟩; cases h)]
    · rfl
  rw [State.wakeDomain, idle, if_neg (by decide), alone]
  rfl

theorem wakeDone_of {s : State} {k n : Nat} (first : s.nextWake = some (k, n)) (held : s.pwr.st = .hold) (later : s.now ≤ n) :
    s.wakeDone = State.pump { s with now := n, pwr.waking := vset s.pwr.waking k none, pwr.awake := vset s.pwr.awake k (some n)
                                     pwr.retUp := setBit s.pwr.retUp k true } := by
  have reached : s.reach n = { s with now := n } := by rw [State.reach, Nat.max_eq_right later]
  rw [State.wakeDone, first]
  dsimp only
  rw [reached]
  dsimp only
  rw [if_pos held]

section
variable {s : State} {l : Letter} {i : Nat} (h : s.takes l = true) (small : i < 14) (typ : l.typ = 0x02) (at_ : half l.body 0 = 0x412 + i)
  (one : l.count = 1) (q : s.quiet = true) (held : s.pwr.st = .hold) (waking : s.pwr.waking = Vector.replicate 3 none)
  (awake : s.pwr.awake = Vector.replicate 3 none)

theorem readServing_single (c : State) (one : l.count = 1) : (readServing c l).todo = [0] := by
  show List.replicate l.count (0 : Word) = [0]
  rw [one]
  rfl

include small typ at_ one q held waking awake in
theorem registerLetter_drlStat : (s.counted l).registerLetter l = s.drillsWaking l := by
  obtain ⟨acc, serving⟩ := counted_quiet q l
  obtain ⟨-, guarded, posted, steady⟩ := quiet_parts q
  obtain ⟨k, g, parts⟩ := counted_parts s l
  have now : (s.counted l).now = s.now := by rw [parts]
  have pwr : (s.counted l).pwr = s.pwr := by rw [parts]
  have read : (l.typ.toNat == tWrite) = false := by rw [typ]; rfl
  have access := (access_drlStat (s := s.counted l) (v := readServing (s.counted l) l) small at_ rfl (by rw [parts]; exact steady)
    (by rw [pwr]; exact held) serving (by rw [acc]; exact guarded) (by rw [acc]; exact posted)).1 (by rw [pwr, awake]; rfl)
  rw [wakeDomain_held (by rw [pwr]; exact held) (by rw [pwr]; exact waking) now] at access
  have served : (s.counted l).serveLetter (readServing (s.counted l) l) = s.drillsWaking l := by
    rw [State.serveLetter, readServing_single _ one]
    show State.serve 1 _ _ = _
    rw [State.serve, readServing_single _ one, if_neg (by decide), access]
    dsimp only
    rw [serving]
    rfl
  refine Eq.trans ?_ served
  unfold State.registerLetter
  dsimp only
  rw [if_neg (by omega), read, if_neg (by simp)]
  rfl

/-- The drills awake, before what stalled for them is served. -/
def State.drillsAwake (s : State) (l : Letter) : State :=
  let c := s.counted l
  { c with now := s.now + usToSclk 8, link.serving := []
           pwr.waking := vset (vset c.pwr.waking 0 (some (s.now + usToSclk 8))) 0 none
           pwr.awake := vset c.pwr.awake 0 (some (s.now + usToSclk 8)), pwr.retUp := setBit c.pwr.retUp 0 true }

include held waking in
theorem wakeDone_drills (clock : s.linkClock = true) :
    (s.drillsWaking l).wakeDone = (s.drillsAwake l).serveLetter (readServing (s.counted l) l) := by
  obtain ⟨k, g, parts⟩ := counted_parts s l
  have now : (s.counted l).now = s.now := by rw [parts]
  have pwr : (s.counted l).pwr = s.pwr := by rw [parts]
  have clocked : (s.counted l).linkClock = true := by rw [parts]; exact clock
  have first : (s.drillsWaking l).nextWake = some (0, s.now + usToSclk 8) := by
    rw [State.nextWake, State.drillsWaking]
    dsimp only
    rw [pwr, waking]
    rfl
  have st : (s.counted l).pwr.st = .hold := by rw [pwr]; exact held
  rw [wakeDone_of first st (by show (s.counted l).now ≤ _; rw [now]; exact Nat.le_add_right _ _)]
  exact if_pos clocked

include h small typ at_ one q held in
/-- The status read once the drills are awake. -/
theorem drillsAwake_serves : ∃ t : State, (s.drillsAwake l).serveLetter (readServing (s.counted l) l)
      = t.answer true l.typ l.addr l.tag l.crc 0 (leBytes 4 (({ s with now := s.now + usToSclk 8 } : State).readAt (0x412 + i)).1.toNat)
    ∧ t.now = s.now + usToSclk 8 ∧ t.strap = s.strap ∧ t.drills = s.drills ∧ t.link.reply = none
    ∧ vget t.pwr.awake 0 = some (s.now + usToSclk 8) ∧ vget t.pwr.waking 0 = none := by
  obtain ⟨acc, serving⟩ := counted_quiet q l
  obtain ⟨-, guarded, posted, steady⟩ := quiet_parts q
  obtain ⟨-, reply, -, -, -, strap, -⟩ := counted_link s l
  obtain ⟨k, g, parts⟩ := counted_parts s l
  have awake0 (x : Nat) (w : Vector (Option Nat) 3) : vget (vset w 0 (some x)) 0 = some x := vget_vset_self _ _ (by decide)
  have access := (access_drlStat (s := s.drillsAwake l) (v := readServing (s.counted l) l) small at_ rfl
    (by show (s.counted l).relocking = false; rw [parts]; exact steady)
    (by show (s.counted l).pwr.st = .hold; rw [parts]; exact held) rfl (by show (s.counted l).acc.guarded = []; rw [acc]; exact guarded)
    (by show (s.counted l).acc.posted = []; rw [acc]; exact posted)).2 (by show (vget (vset _ 0 (some _)) 0).isSome = true; rw [awake0]; rfl)
  have waking0 : vget (s.drillsAwake l).pwr.waking 0 = none := vget_vset_self _ _ (by decide)
  have plain : ({ s.drillsAwake l with pwr.awake := vset (s.drillsAwake l).pwr.awake 0 (some (s.drillsAwake l).now) } : State)
      = { ({ s with now := s.now + usToSclk 8 } : State) with
            link := { k with serving := [] }, acc.guarded := g, rtc.quietAt := s.now
            pwr := { (s.drillsAwake l).pwr with awake := vset (s.drillsAwake l).pwr.awake 0 (some (s.drillsAwake l).now) } } := by
    unfold State.drillsAwake
    rw [parts]
  have value := readAt_drlStat_same { s with now := s.now + usToSclk 8 } small { k with serving := [] } g s.now
    { (s.drillsAwake l).pwr with awake := vset (s.drillsAwake l).pwr.awake 0 (some (s.drillsAwake l).now) }
  rw [← plain] at value
  rw [value] at access
  refine ⟨{ s.drillsAwake l with pwr.awake := vset (s.drillsAwake l).pwr.awake 0 (some (s.drillsAwake l).now) }, ?_, rfl, strap, ?_, reply,
    awake0 _ _, waking0⟩
  · rw [serve_one (readServing_single _ one) access, State.servedTo]
    have wanted : (!(l.kind == 2)) = true := by rw [takes_read_kind h typ]; rfl
    show State.answer _ (!(l.kind == 2)) _ _ _ _ _ _ = _
    rw [wanted]
    simp [readServing, Serving.past]
  · show (s.counted l).drills = s.drills
    rw [parts]
end

theorem rehold_awake {s : State} {k at_ : Nat} (awake : vget s.pwr.awake k = some at_) :
    s.rehold k = { s with now := max s.now (at_ + 64 * 6144), pwr.awake := vset s.pwr.awake k none } := by
  rw [State.rehold, awake]
  rfl

/-! ### SEAL_N (R402, R461) -/

/-- SEAL_N's assertion with an opening to count. -/
def State.sealOpened (s : State) : State :=
  { s with acc.sealIn := true, otp.openings := s.otp.openings + 1 }

theorem sealChange_same {s : State} (a : Bool) (same : s.acc.sealIn = a) : s.sealChange a = s :=
  if_pos (by rw [same, beq_self_eq_true, Bool.or_true])

theorem sealChange_released {s : State} (records : s.recording = true) (before : s.acc.sealIn = true) : s.sealChange false =
    { s with acc.sealIn := false, acc.guarded := s.acc.guarded.map (fun g => { g with sealed := false }) } := by
  refine (if_neg (by rw [records, before]; decide)).trans (if_neg ?_)
  rw [Bool.false_and, Bool.false_and]
  decide

theorem sealChange_uncounted {s : State} (records : s.recording = true) (before : s.acc.sealIn = false)
    (none_ : s.lcNow < 2 ∨ 1024 ≤ s.counter ctrSeal + s.otp.openings) : s.sealChange true = { s with acc.sealIn := true } := by
  refine (if_neg (by rw [records, before]; decide)).trans (if_neg ?_)
  rw [Bool.true_and, Bool.and_eq_true, decide_eq_true_iff, decide_eq_true_iff]
  omega

theorem sealChange_counted {s : State} (records : s.recording = true) (before : s.acc.sealIn = false) (state : 2 ≤ s.lcNow)
    (room : s.counter ctrSeal + s.otp.openings < 1024) : s.sealChange true =
      if s.otp.op = some .heal then s.sealOpened.stopPulses else s.sealOpened.otpNext := by
  refine (if_neg (by rw [records, before]; decide)).trans (if_pos ?_)
  rw [decide_eq_true state, decide_eq_true room]
  rfl

/-- An opening waits and nothing is busy: its counter is programmed. -/
theorem otpNext_opening {s : State} (idle : s.otp.op = none) (able : s.progOk = true) (waits : 0 < s.otp.openings) :
    s.otpNext = s.beginOp .sealCount := by
  refine (if_neg ?_).trans (if_pos waits)
  rw [State.otpBusy, idle, able]
  decide

theorem fitEnd_cut {s : State} {e : OtpEnd} (heal : s.otp.op = some .heal) (cut : e.completed.isSome = true) :
    (s.fitEnd e).completed.isSome = true := by
  obtain ⟨k, at_⟩ := Option.isSome_iff_exists.mp cut
  rw [State.fitEnd, at_, heal]
  dsimp only
  split
  · rfl
  · exact cut

/-- Healing cut by an opening: the opening is counted next, and the healing is still due. -/
theorem stopPulses_heal {s : State} (heal : s.otp.op = some .heal) (able : s.progOk = true) (waits : 0 < s.otp.openings) :
    s.stopPulses.acc = s.acc ∧ s.stopPulses.otp.openings = s.otp.openings ∧ s.stopPulses.otp.op = some .sealCount
      ∧ s.stopPulses.otp.healDue = true ∧ s.stopPulses.otp.words = s.otp.words ∧ s.stopPulses.now = s.now := by
  let u : State := { s with free := s.free + 1 }
  let e : OtpEnd := u.fitEnd (s.cutPlace s.free)
  have cut : e.completed.isSome = true := fitEnd_cut (s := u) heal rfl
  let v : State := { u with otp := { s.otp with thermo := pulseCopies s.otp.thermo (u.opCopies .heal) e, op := none, healDue := true } }
  have run : s.stopPulses = v.otpNext := by
    rw [State.stopPulses, heal]
    show u.otpDone (s.cutPlace s.free) = _
    rw [State.otpDone, show u.otp.op = some .heal from heal]
    dsimp only
    show State.otpNext { ({ u.pulseOp e with otp.op := none } : State) with otp.healDue := e.completed.isSome } = _
    rw [cut, State.pulseOp, show u.otp.op = some .heal from heal]
  rw [run, otpNext_opening (s := v) rfl able waits]
  exact ⟨rfl, rfl, rfl, rfl, rfl, rfl⟩

/-- Settles O45: each access event by its rule; a drill's status read in HOLD stalls once, for the drills' 8 µs, and is served then. -/
theorem accessEvents : Obligations.AccessEvents := by
  unfold Obligations.AccessEvents
  refine ⟨fun s p l posted => congrArg Host.Outcome.next (postedLand_first posted), fun s b none_ => congrArg Host.Outcome.next (postedLand_none none_),
    fun s x one lock serving why => ?_, fun s l i takes q held typ small at_ one waking awake => ?_, fun s d at_ awake => ?_,
    fun s records quiet => ⟨fun a same => ?_, fun before => ?_, fun before none_ => ?_, fun before state room heal able => ?_,
      fun before state room busy => ?_⟩⟩
  · have run := guardedReply_refused one lock why
    have idle : ((s.guardRefused x 0x22).answer x.reply x.typ x.addr x.tag x.crc 0x30 []).link.serving = [] := by
      rw [answer_serving]
      exact serving
    rw [pump_nothing idle, answer_link] at run
    exact ⟨_, congrArg Host.Outcome.next run, rfl, rfl, rfl, rfl, rfl⟩
  · have clock : s.linkClock = true := by
      obtain ⟨-, -, -, steady⟩ := quiet_parts q
      simp only [State.takes, State.hears, steady, Bool.and_eq_true, Bool.or_eq_true] at takes
      obtain ⟨⟨⟨⟨⟨⟨⟨-, clock | no⟩, -⟩, -⟩, -⟩, -⟩, -⟩, -⟩ := takes
      · exact clock
      · simp at no
    have asked : s.receiveLetter l = s.drillsWaking l :=
      (takes_register takes (.inl typ)).trans (registerLetter_drlStat small typ at_ one q held waking awake)
    obtain ⟨-, reply, -⟩ := counted_link s l
    obtain ⟨g, k, parts⟩ := counted_parts s l
    have pwr : (s.counted l).pwr = s.pwr := by rw [parts]
    refine ⟨s.drillsWaking l, congrArg Host.Outcome.next asked, reply, vget_vset_self _ _ (by decide), ?_, ?_⟩
    · show (s.counted l).pwr.st = .hold
      rw [pwr]
      exact held
    · obtain ⟨t, served, now, strap, drills, none_, awake0, waking0⟩ := drillsAwake_serves takes small typ at_ one q held
      have run := (wakeDone_drills (l := l) held waking clock).trans served
      refine ⟨_, congrArg Host.Outcome.next run, ?_⟩
      have reply := answer_reply (s := { s with now := s.now + usToSclk 8 }) (l := l) 0
        (leBytes 4 (({ s with now := s.now + usToSclk 8 } : State).readAt (0x412 + i)).1.toNat) none_ strap now
      rw [reply, answer_link]
      dsimp only
      rw [now]
      exact ⟨rfl, awake0, waking0, drills, rfl⟩
  · cases d with
    | drills => exact congrArg Host.Outcome.next (rehold_awake (k := 0) awake)
    | arrays => exact congrArg Host.Outcome.next (rehold_awake (k := 1) awake)
    | bias => exact congrArg Host.Outcome.next (rehold_awake (k := 2) awake)
  · exact congrArg Host.Outcome.next ((congrArg State.attend (sealChange_same a same)).trans (attend_quiet quiet))
  · exact congrArg Host.Outcome.next ((congrArg State.attend (sealChange_released records before)).trans (attend_quiet quiet))
  · exact congrArg Host.Outcome.next ((congrArg State.attend (sealChange_uncounted records before none_)).trans (attend_quiet quiet))
  · obtain ⟨acc, openings, op, due, words, now⟩ := stopPulses_heal (s := s.sealOpened) heal able (Nat.succ_pos _)
    refine ⟨_, rfl, ?_⟩
    rw [State.attend_acc, State.attend_otp, State.attend_now, sealChange_counted records before state room, if_pos heal, acc, openings, op, due,
      words, now]
    exact ⟨rfl, rfl, rfl, rfl, rfl, rfl⟩
  · refine ⟨_, rfl, ?_⟩
    rw [sealChange_counted records before state room, if_neg busy]
    by_cases waits : (s.otpBusy || !s.progOk) = true
    · have still : s.sealOpened.otpNext = s.sealOpened := if_pos waits
      rw [still, if_pos waits, attend_quiet (s := s.sealOpened) quiet]
      rfl
    · obtain ⟨idle, able⟩ : s.otpBusy = false ∧ s.progOk = true := by simpa using waits
      have idle : s.otp.op = none := by simpa [State.otpBusy] using idle
      rw [otpNext_opening (s := s.sealOpened) idle able (Nat.succ_pos _), if_neg waits,
        attend_quiet (s := s.sealOpened.beginOp .sealCount) quiet]
      rfl

end Sys2Proof.Machine
end

section
/-! PROOFS. Power-state requests: refused with a code, or begun (R347, R348). -/

namespace Sys2Proof.Machine

theorem request_refused {s : State} {r : PwrReq} {c : Nat} (refuser : s.refuserOf r = some c) : (s.request r).1 =
    { s with pwr.result := .refused, pwr.refuser := c
             pwr.refuse := vset s.pwr.refuse (c - 1) (sat32 (vget s.pwr.refuse (c - 1)) 1) } := by
  rw [State.request, refuser]
  rfl

/-- A request accepted, before what it begins. -/
def State.accepted (s : State) (r : PwrReq) : State := { s with pwr.req := r, pwr.result := .accepted }

theorem request_granted {s : State} {r : PwrReq} (refuser : s.refuserOf r = none) : (s.request r).1 = (s.accepted r).grant r := by
  rw [State.request, refuser]
  rfl

/-! ### What an accepted request leaves -/

/-- All but the passage it begins, the reaction's stage and the hidden pigeonholes is as it was. -/
def State.Granted (s t : State) : Prop :=
  t.mem = s.mem ∧ t.otp = s.otp ∧ t.scan = s.scan ∧ t.seq = s.seq ∧ t.tree = s.tree ∧ t.up = s.up ∧ t.rtc = s.rtc ∧ t.rw = s.rw
    ∧ t.strap = s.strap ∧ t.now = s.now ∧ t.link = s.link ∧ t.pwr.alarmWake = s.pwr.alarmWake ∧ t.pwr.result = s.pwr.result
    ∧ t.pwr.req = s.pwr.req ∧ t.pwr.refuser = s.pwr.refuser ∧ t.pwr.refuse = s.pwr.refuse

theorem State.Granted.refl (s : State) : s.Granted s := ⟨rfl, rfl, rfl, rfl, rfl, rfl, rfl, rfl, rfl, rfl, rfl, rfl, rfl, rfl, rfl, rfl⟩

theorem beginEntry_granted (s : State) (dormant : Bool) : s.Granted (s.beginEntry dormant) := by
  cases dormant <;> exact ⟨rfl, rfl, rfl, rfl, rfl, rfl, rfl, rfl, rfl, rfl, rfl, rfl, rfl, rfl, rfl, rfl⟩

theorem beginReturn_granted (s : State) (slow : Bool) : s.Granted (s.beginReturn slow) :=
  ⟨rfl, rfl, rfl, rfl, rfl, rfl, rfl, rfl, rfl, rfl, rfl, rfl, rfl, rfl, rfl, rfl⟩

theorem grant_granted (s : State) (r : PwrReq) : s.Granted (s.grant r) := by
  unfold State.grant
  split
  · exact State.Granted.refl s
  · split
    · exact State.Granted.refl s
    · exact State.Granted.refl s
    · exact beginEntry_granted s false
    · exact beginEntry_granted s false
    · exact beginEntry_granted s true
    · exact beginEntry_granted s true
    · exact beginEntry_granted s true
    · exact beginReturn_granted s false
    · exact beginReturn_granted s true
    · exact State.Granted.refl s

theorem beginEntry_enters (s : State) (dormant : Bool) :
    (s.beginEntry dormant).pwr.st = (if dormant then PwrSt.enterDormant else .enterHold)
      ∧ (s.beginEntry dormant).pwr.resume = (if s.pwr.st = .hold then s.pwr.resume else decide (s.pwr.st = .slow))
      ∧ (s.beginEntry dormant).pwr.committed = false ∧ (s.beginEntry dormant).pwr.noWait = decide (s.pwr.st = .hold) := by
  have resume : (if (s.pwr.st == .hold) then s.pwr.resume else s.pwr.st == .slow)
      = (if s.pwr.st = .hold then s.pwr.resume else decide (s.pwr.st = .slow)) := by
    generalize s.pwr.st = st
    cases st <;> rfl
  have held : (s.pwr.st == .hold) = decide (s.pwr.st = .hold) := by
    generalize s.pwr.st = st
    cases st <;> rfl
  cases dormant <;> exact ⟨rfl, resume, rfl, held⟩

/-! ### What it begins, by the state (R347) -/

/-- The passage that an accepted request begins where none is in progress (R347). -/
def State.Begins (s t : State) (r : PwrReq) : Prop :=
  (s.pwr.st = .run → r = .run → t.pwr.st = .run ∧ t.pwr.change = none)
  ∧ (s.pwr.st = .slow → r = .slow → t.pwr.st = .slow ∧ t.pwr.change = none)
  ∧ (s.pwr.st = .hold → r = .hold → t.pwr.st = .hold)
  ∧ (s.pwr.st = .run → r = .slow → t.pwr.st = .run ∧ t.pwr.change = some true)
  ∧ (s.pwr.st = .slow → r = .run → t.pwr.st = .slow ∧ t.pwr.change = some false)
  ∧ (s.pwr.st = .run ∨ s.pwr.st = .slow → r = .hold →
      t.pwr.st = .enterHold ∧ t.pwr.resume = decide (s.pwr.st = .slow) ∧ t.pwr.committed = false)
  ∧ (s.pwr.st = .run ∨ s.pwr.st = .slow → r = .dormant → t.pwr.st = .enterDormant ∧ t.pwr.noWait = false)
  ∧ (s.pwr.st = .hold → r = .dormant → t.pwr.st = .enterDormant ∧ t.pwr.noWait = true)
  ∧ (s.pwr.st = .hold → r = .run ∨ r = .slow → t.pwr.st = .ret ∧ t.pwr.retSlow = decide (r = .slow) ∧ t.pwr.retAt = some s.now)

theorem idle_change {s : State} (idle : s.entering = none) (awake : s.pwr.st = .run ∨ s.pwr.st = .slow) : s.pwr.change = none := by
  rcases awake with st | st
  all_goals
    rw [State.entering, st] at idle
    exact Option.map_eq_none_iff.mp idle

theorem grant_begins {s : State} (idle : s.entering = none) (r : PwrReq) : s.Begins (s.grant r) r := by
  have still : ¬ s.entering.isSome = true := by rw [idle]; decide
  refine ⟨?_, ?_, ?_, ?_, ?_, ?_, ?_, ?_, ?_⟩
  · rintro st rfl
    unfold State.grant
    rw [if_neg still, st]
    exact ⟨st, idle_change idle (.inl st)⟩
  · rintro st rfl
    unfold State.grant
    rw [if_neg still, st]
    exact ⟨st, idle_change idle (.inr st)⟩
  · rintro st rfl
    unfold State.grant
    rw [if_neg still, st]
    exact st
  · rintro st rfl
    unfold State.grant
    rw [if_neg still, st]
    exact ⟨st, rfl⟩
  · rintro st rfl
    unfold State.grant
    rw [if_neg still, st]
    exact ⟨st, rfl⟩
  · rintro awake rfl
    have entry : s.grant .hold = s.beginEntry false := by
      unfold State.grant
      rcases awake with st | st <;> rw [if_neg still, st]
    have away : s.pwr.st ≠ .hold := by rcases awake with st | st <;> rw [st] <;> decide
    obtain ⟨st, resume, committed, -⟩ := beginEntry_enters s false
    rw [if_neg away] at resume
    rw [entry]
    exact ⟨st, resume, committed⟩
  · rintro awake rfl
    have entry : s.grant .dormant = s.beginEntry true := by
      unfold State.grant
      rcases awake with st | st <;> rw [if_neg still, st]
    have away : s.pwr.st ≠ .hold := by rcases awake with st | st <;> rw [st] <;> decide
    obtain ⟨st, -, -, wait⟩ := beginEntry_enters s true
    rw [entry]
    exact ⟨st, wait.trans (decide_eq_false away)⟩
  · rintro held rfl
    obtain ⟨st, -, -, wait⟩ := beginEntry_enters s true
    unfold State.grant
    rw [if_neg still, held]
    exact ⟨st, wait.trans (decide_eq_true held)⟩
  · rintro held (rfl | rfl)
    all_goals
      unfold State.grant
      rw [if_neg still, held]
      exact ⟨rfl, rfl, rfl⟩

/-! ### A request by letter or by a write (R347, R351) -/

theorem granted_quiet {s t : State} (granted : s.Granted t) (quiet : s.levelQuiet = true) : t.levelQuiet = true := by
  obtain ⟨-, -, -, -, -, -, rtc, rw_, -, -, -, alarm, -⟩ := granted
  rw [State.levelQuiet, rtc, rw_, alarm]
  exact quiet

/-- What an accepted request leaves of the state, and what it begins, as a letter's receiver sees it. -/
def State.Decided (s t : State) (r : PwrReq) : Prop :=
  t.pwr.result = .accepted ∧ t.pwr.req = r ∧ t.pwr.refuser = s.pwr.refuser ∧ t.pwr.refuse = s.pwr.refuse
    ∧ t.mem = s.mem ∧ t.otp = s.otp ∧ t.scan = s.scan ∧ t.seq = s.seq ∧ t.tree = s.tree ∧ t.up = s.up
    ∧ (s.entering = none → s.Begins t r)

section
variable {w b t : State} {r : PwrReq} (heard : w.heardOnly b) (after : (b.request r).1.heardOnly t)
include heard after

theorem refused_heard {c : Nat} (refuser : w.refuserOf r = some c) :
    ({ w with pwr.result := .refused, pwr.refuser := c
              pwr.refuse := vset w.pwr.refuse (c - 1) (sat32 (vget w.pwr.refuse (c - 1)) 1) } : State).heardOnly t := by
  have same : b.refuserOf r = some c := by rw [heard]; exact refuser
  rw [request_refused same] at after
  refine heardOnly_trans ?_ after
  unfold State.heardOnly at heard ⊢
  rw [heard]

theorem granted_heard (refuser : w.refuserOf r = none) : w.Decided t r := by
  have same : b.refuserOf r = none := by rw [heard]; exact refuser
  obtain ⟨mem, otp, scan, seq, tree, up, -, -, -, -, -, -, result, req, refuserKept, refuse⟩ := grant_granted (b.accepted r) r
  have begins (idle : b.entering = none) : b.Begins ((b.accepted r).grant r) r := grant_begins (s := b.accepted r) idle r
  rw [request_granted same] at after
  generalize (b.accepted r).grant r = u at *
  rw [after]
  rw [heard] at mem otp scan seq tree up result req refuserKept refuse begins
  exact ⟨result, req, refuserKept, refuse, mem, otp, scan, seq, tree, up, begins⟩

end

theorem attend_request {s : State} (r : PwrReq) (quiet : s.levelQuiet = true) : (s.request r).1.attend = (s.request r).1 := by
  refine attend_quiet ?_
  cases refuser : s.refuserOf r with
  | some c =>
    rw [request_refused refuser]
    exact quiet
  | none =>
    rw [request_granted refuser]
    exact granted_quiet (s := s.accepted r) (grant_granted _ r) quiet

/-- `PWR_CTL`'s row. -/
def pwrCtlRow : RegRow := rwRow 0xF00 1 (fun _ => .pwrCtl) .core 0x103 0 0xFFFFFEFC

/-- The code of a request in its letter. -/
def reqCode : PwrReq → Nat
  | .run => 0
  | .slow => 1
  | .hold => 2
  | .dormant => 3

theorem reqOf_code (r : PwrReq) : reqOf (reqCode r) = r := by cases r <;> rfl

/-- A SCAN letter's request is decided in the state that its receipt leaves. -/
theorem scan_decides {s : State} {v : Via} {r : PwrReq} (takes : s.takes (viaScan v (reqCode r)) = true) (quiet : s.levelQuiet = true) :
    ∃ b, s.heardOnly b ∧ (b.request r).1.heardOnly (s.receiveLetter (viaScan v (reqCode r))) := by
  have heard := counted_served s (viaScan v (reqCode r))
  have still : (s.counted (viaScan v (reqCode r))).levelQuiet = true := by rw [heard]; exact quiet
  have req : reqOf (byteAt (viaScan v (reqCode r)).body 0).toNat = r := by cases r <;> rfl
  refine ⟨_, heard, ?_⟩
  rw [takes_still takes (by rintro (h | h | h | h) <;> cases h)]
  show State.heardOnly _ (State.scanLetter _ _)
  rw [State.scanLetter, req]
  rw [attend_request r still]
  exact answer_served ..

/-- The word that a write of `PWR_CTL` for a request carries. -/
def pwrWord (d : Word) (k : Nat) : Word := (d &&& ~~~(3#32)) ||| wd k

/-- The written fields of that word: the request and ALARM_WAKE. -/
theorem pwrWord_fields (d : Word) (r : PwrReq) : let v := pwrWord d (reqCode r) &&& wd 0x103
    fld v 0 2 = reqCode r ∧ bit v 8 = bit d 8 := by
  intro v
  have low : v.toNat % 4 = reqCode r := by
    have mask : (~~~(3#32)).toNat % 4 = 0 := by decide
    show (((d &&& ~~~(3#32)) ||| wd (reqCode r)) &&& wd 0x103).toNat % 2 ^ 2 = _
    rw [BitVec.toNat_and, BitVec.toNat_or, BitVec.toNat_and, Nat.and_mod_two_pow, Nat.or_mod_two_pow, Nat.and_mod_two_pow]
    rw [show (~~~(3#32)).toNat % 2 ^ 2 = 0 from mask, Nat.and_zero, Nat.zero_or]
    cases r <;> rfl
  refine ⟨?_, ?_⟩
  · rw [fld]
    simpa using low
  · show v.getLsbD 8 = d.getLsbD 8
    show (((d &&& ~~~(3#32)) ||| wd (reqCode r)) &&& wd 0x103).getLsbD 8 = d.getLsbD 8
    rw [BitVec.getLsbD_and, BitVec.getLsbD_or, BitVec.getLsbD_and]
    have keep : (~~~(3#32)).getLsbD 8 = true := by decide
    have code : (wd (reqCode r)).getLsbD 8 = false := by cases r <;> decide
    have field : (wd 0x103).getLsbD 8 = true := by decide
    rw [keep, code, field, Bool.and_true, Bool.or_false, Bool.and_true]

/-- A write of `PWR_CTL` is decided under the ALARM_WAKE that it writes. -/
theorem write_decides {s : State} {v : Via} {r : PwrReq} {d : Word} (takes : s.takes (viaWrite v 0xF00 (pwrWord d (reqCode r))) = true)
    (q : s.quiet = true) (quiet : (s.withForm (.write d)).levelQuiet = true) :
    ∃ b, (s.withForm (.write d)).heardOnly b ∧ (b.request r).1.heardOnly (s.viaWord v 0xF00 (pwrWord d (reqCode r))) := by
  obtain ⟨req, wake⟩ := pwrWord_fields d r
  let l := viaWrite v 0xF00 (pwrWord d (reqCode r))
  let b : State := { s.begun l with pwr.alarmWake := bit d 8 }
  have put : (s.begun l).putField pwrCtlRow.dom (pwrCtlRow.reg 0xF00) ((s.begun l).written 0xF00 0 (pwrWord d (reqCode r)))
      = (b.request r).1 := by
    show State.attend (State.request { s.begun l with pwr.alarmWake := bit (pwrWord d (reqCode r) &&& wd 0x103) 8 }
      (reqOf (fld (pwrWord d (reqCode r) &&& wd 0x103) 0 2))).1 = _
    rw [req, wake, reqOf_code]
    exact attend_request (s := b) r quiet
  have kept : (b.request r).1.link = (s.begun l).link ∧ (b.request r).1.strap = s.strap ∧ (b.request r).1.now = s.now := by
    cases refuser : b.refuserOf r with
    | some c =>
      rw [request_refused refuser]
      exact ⟨rfl, rfl, rfl⟩
    | none =>
      obtain ⟨-, -, -, -, -, -, -, -, strap, now, link, -⟩ := grant_granted (b.accepted r) r
      rw [request_granted refuser]
      exact ⟨link, strap, now⟩
  obtain ⟨link, strap, now⟩ := kept
  exact ⟨b, rfl, (core_field (k := 0) (base := 0xF00) (row := pwrCtlRow) takes q (by decide) (by decide) rfl rfl rfl rfl (by decide) rfl rfl
    (fun _ => rfl) put link strap now).1⟩

/-- Settles O19: a request is decided by the first refuser of R348, or begins the passage that the state asks for; its letter and the
level events, of which none stands, add nothing. -/
theorem requestDecided : Obligations.RequestDecided := by
  intro s v f r takes q quiet w
  have decided : ∃ b t, exec (reqCommand v f r) s = .next t ∧ w.heardOnly b ∧ (b.request r).1.heardOnly t := by
    cases f with
    | scan =>
      obtain ⟨b, heard, after⟩ := scan_decides (v := v) (r := r) (by cases r <;> exact takes) quiet
      exact ⟨b, _, by cases r <;> rfl, heard, after⟩
    | write d =>
      obtain ⟨b, heard, after⟩ := write_decides (v := v) (r := r) (d := d) (by cases r <;> exact takes) q quiet
      exact ⟨b, _, by cases r <;> rfl, heard, after⟩
  obtain ⟨b, t, run, heard, after⟩ := decided
  refine ⟨t, run, ?_⟩
  cases refuser : w.refuserOf r with
  | some c => exact refused_heard heard after refuser
  | none =>
    have granted := granted_heard heard after refuser
    cases f <;> exact granted

end Sys2Proof.Machine
end

section
/-! PROOFS. Flipped bits, mended groups and the visits of an aging pass (R84 to R87, R91, R92, R150, R154, R518). -/

namespace Sys2Proof.Machine

/-! ### The frame store's part of the memories -/

/-- Only the frame store, its flipped bits, the count of mended groups and the scrub's waiting rows differ. -/
def State.StoreOnly (s t : State) : Prop :=
  t = { s with mem := { s.mem with pixels := t.mem.pixels, flips := t.mem.flips, secCnt := t.mem.secCnt, scrubWait := t.mem.scrubWait } }

theorem State.StoreOnly.refl (s : State) : s.StoreOnly s := rfl

theorem State.StoreOnly.trans {s t u : State} (h : s.StoreOnly t) (g : t.StoreOnly u) : s.StoreOnly u := by
  unfold State.StoreOnly at *
  rw [g]
  dsimp only
  rw [h]

theorem storeGroup_only (s : State) (g : Nat) (w : BitVec 88) : s.StoreOnly (s.storeGroup g w) := by
  unfold State.storeGroup
  dsimp only
  split <;> rfl

theorem flipBits_only (s : State) : ∀ l, s.StoreOnly (s.flipBits l) := by
  intro l
  induction l generalizing s with
  | nil => exact State.StoreOnly.refl s
  | cons f l ih => exact (storeGroup_only s _ _).trans (ih _)

theorem mend_only (s : State) (q : Nat → Bool) : s.StoreOnly (s.mend q) ∧ (s.mend q).mem.pixels = s.mem.pixels := ⟨rfl, rfl⟩

theorem scrubPass_only (s : State) : s.StoreOnly s.scrubPass ∧ s.scrubPass.mem.pixels = s.mem.pixels := by
  unfold State.scrubPass
  split <;> exact ⟨rfl, rfl⟩

theorem storeGroup_mem_congr {s t : State} (mem : t.mem = s.mem) (g : Nat) (w : BitVec 88) : (t.storeGroup g w).mem = (s.storeGroup g w).mem := by
  have put (d : BitVec 80) : (t.putGroup g d).mem = (s.putGroup g d).mem := by rw [State.putGroup, State.putGroup, mem]
  unfold State.storeGroup
  dsimp only
  split
  · rw [groupData_congr (put _), put]
  · rw [groupData_congr (put _), put]
  · rw [groupData_congr mem, mem]

theorem flipBits_mem_congr {s t : State} (mem : t.mem = s.mem) (l : List BitFlip) : (t.flipBits l).mem = (s.flipBits l).mem := by
  induction l generalizing s t with
  | nil => exact mem
  | cons f l ih =>
    have stored : t.groupStored f.group = s.groupStored f.group := by
      rw [State.groupStored, State.groupStored, groupData_congr mem, mem]
    refine ih (s := s.storeGroup f.group (s.groupStored f.group ^^^ (1#88 <<< f.bit.val))) ?_
    dsimp only
    rw [stored]
    exact storeGroup_mem_congr mem _ _

/-! ### Uncorrectable groups stay so while others are mended (R91, R518) -/

/-- A map filtered by key reads as before where the key is kept. -/
theorem sget_filter {α : Type} [DecidableEq α] (d : α) (q : Nat → Bool) (j : Nat) : ∀ {b : Nat} {m : SMap α}, swfFrom d b m = true →
    sget d (m.filter (fun x => q x.1)) j = if q j then sget d m j else d
  | _, [], _ => by simp [sget]
  | b, (k, v) :: m, h => by
    simp only [swfFrom, Bool.and_eq_true, decide_eq_true_eq] at h
    have rest := sget_filter d q j h.2
    have low : j < k → sget d m j = d := fun below => sget_below d (fun y listed => by have := swfFrom_lt d h.2 y listed; omega)
    rw [List.filter_cons]
    split
    · rename_i keeps
      simp only [sget, rest]
      by_cases same : j = k
      · rw [if_pos same, if_pos same, same, if_pos keeps]
      · rw [if_neg same, if_neg same]
        by_cases below : j < k
        · rw [if_pos below, if_pos below]
          split <;> rfl
        · rw [if_neg below, if_neg below]
    · rename_i drops
      rw [rest]
      simp only [sget]
      by_cases same : j = k
      · rw [same, if_neg drops, if_neg drops]
      · rw [if_neg same]
        by_cases below : j < k
        · rw [if_pos below, low below]
        · rw [if_neg below]

theorem mem_lostGroups {s : State} {q : Nat → Bool} {g : Nat} : g ∈ s.lostGroups q ↔
    g ∈ s.mem.flips.map Prod.fst ∧ s.groupInUse g = true ∧ q g = true ∧ s.groupClass g = .lost := by
  rw [State.lostGroups, List.mem_filter, State.flipped, List.mem_filter, Bool.and_eq_true, beq_iff_eq]
  tauto

/-- Mending others leaves a group's stored bits, unless it is itself mended. -/
theorem mend_class {s : State} (ok : swf 0 s.mem.flips = true) (p : Nat → Bool) {g : Nat}
    (kept : ¬ (s.groupInUse g = true ∧ p g = true ∧ s.groupClass g = .corrected)) : (s.mend p).groupClass g = s.groupClass g := by
  have keeps : (!(s.groupInUse g && (p g && s.groupClass g == .corrected))) = true := by
    by_contra no
    simp only [Bool.not_eq_true, Bool.not_eq_false', Bool.and_eq_true, beq_iff_eq] at no
    exact kept no
  have read := sget_filter (0 : BitVec 88) (fun g => !(s.groupInUse g && (p g && s.groupClass g == .corrected))) g ok
  rw [if_pos keeps] at read
  have flips : sget 0 (s.mend p).mem.flips g = sget 0 s.mem.flips g := read
  have data : (s.mend p).groupData g = s.groupData g := rfl
  rw [State.groupClass, State.groupClass, State.groupStored, State.groupStored, data, flips]

theorem mem_lostGroups_mend {s : State} (ok : swf 0 s.mem.flips = true) (p q : Nat → Bool) (g : Nat) :
    g ∈ (s.mend p).lostGroups q ↔ g ∈ s.lostGroups q := by
  have listed : g ∈ (s.mend p).mem.flips.map Prod.fst ↔
      g ∈ s.mem.flips.map Prod.fst ∧ ¬ (s.groupInUse g = true ∧ p g = true ∧ s.groupClass g = .corrected) := by
    show g ∈ (s.mem.flips.filter (fun x => !(s.groupInUse x.1 && (p x.1 && s.groupClass x.1 == .corrected)))).map Prod.fst ↔ _
    rw [List.mem_map, List.mem_map]
    constructor
    · rintro ⟨x, kept, rfl⟩
      obtain ⟨listed, kept⟩ := List.mem_filter.mp kept
      refine ⟨⟨x, listed, rfl⟩, ?_⟩
      rintro ⟨use, pass, cls⟩
      simp only [use, pass, cls] at kept
      exact absurd kept (by decide)
    · rintro ⟨⟨x, listed, rfl⟩, kept⟩
      refine ⟨x, List.mem_filter.mpr ⟨listed, ?_⟩, rfl⟩
      by_contra no
      simp only [Bool.not_eq_true, Bool.not_eq_false', Bool.and_eq_true, beq_iff_eq] at no
      exact kept no
  have use : (s.mend p).groupInUse g = s.groupInUse g := rfl
  rw [mem_lostGroups, mem_lostGroups, listed, use]
  constructor
  · rintro ⟨⟨l, kept⟩, use, pass, lost⟩
    exact ⟨l, use, pass, (mend_class ok p kept).symm.trans lost⟩
  · rintro ⟨l, use, pass, lost⟩
    have kept : ¬ (s.groupInUse g = true ∧ p g = true ∧ s.groupClass g = .corrected) := by
      rintro ⟨-, -, cls⟩
      rw [lost] at cls
      cases cls
    exact ⟨⟨l, kept⟩, use, pass, (mend_class ok p kept).trans lost⟩

/-! ### Words under an aging visit (R83, R85, R87) -/

theorem pixelWord_pixelOf (w : PixelWord) : pixelWord (pixelOf w) = w := by
  have bits : w.toNat < 2 ^ 20 := w.isLt
  apply BitVec.eq_of_toNat_eq
  unfold pixelWord pixelOf
  simp only [BitVec.toNat_ofNat, Nat.shiftRight_eq_div_pow, Nat.testBit_zero]
  have last : (if decide (w.toNat % 2 = 1) = true then 1 else 0) = w.toNat % 2 := by
    by_cases odd : w.toNat % 2 = 1
    · rw [if_pos (decide_eq_true odd), odd]
    · rw [if_neg (by rw [decide_eq_false odd]; decide)]
      omega
  rw [last]
  omega

/-- An ACTIVE pixel keeps its word. -/
theorem visit_active (a : AgeVisit) {w : PixelWord} (active : (pixelOf w).active = true) : pixelWord (a.apply (pixelOf w)) = w := by
  have same : a.apply (pixelOf w) = pixelOf w := by
    unfold AgeVisit.apply
    split
    · exact if_pos active
    · exact if_pos active
  rw [same, pixelWord_pixelOf]

theorem visit_unknown_hold : ∀ h : Fin 4, pixelWord (pixelHoldAge h.val (pixelOf unknownWord)) = unknownWord := by decide

/-- The unknown word does not age. -/
theorem visit_unknown (a : AgeVisit) : pixelWord (a.apply (pixelOf unknownWord)) = unknownWord := by
  unfold AgeVisit.apply
  split
  · exact visit_unknown_hold _
  · exact pixelWord_pixelOf unknownWord

theorem cols_lanes (s : State) : s.cols % 4 = 0 := by
  have all : ∀ c < 16, panelCols c % 4 = 0 := by decide
  have rest : ∀ c, 16 ≤ c → panelCols c = 3072 := by
    intro c high
    unfold panelCols
    rw [List.getD_eq_default]
    exact high
  rw [State.cols]
  by_cases low : s.panelClass < 16
  · exact all _ low
  · rw [rest _ (by omega)]

/-- The group of a column of a row is in use where the pixel is. -/
theorem groupInUse_pixel (s : State) (row : Nat) {col : Nat} (small : col < 3072) :
    s.groupInUse (groupOf row col) = true ↔ row < s.rows ∧ col < s.cols := by
  have lanes := cols_lanes s
  have line : groupOf row col / 768 = row := by unfold groupOf; omega
  have place : groupOf row col % 768 * 4 = col / 4 * 4 := by unfold groupOf; omega
  rw [State.groupInUse, line, place, Bool.and_eq_true, decide_eq_true_iff, decide_eq_true_iff]
  omega

/-- The words after a visit of the rows that pass. -/
theorem visitRows_word {s : State} (ok : swf unknownWord s.mem.pixels = true) (q : Nat → Bool) (a : AgeVisit) (k : Nat) :
    sget unknownWord (s.visitRows q a).mem.pixels k =
      if q (k / 3072) = true ∧ k / 3072 < s.rows ∧ k % 3072 < s.cols
          ∧ groupOf (k / 3072) (k % 3072) ∉ s.lostGroups (fun g => q (g / 768)) then
        pixelWord (a.apply (pixelOf (sget unknownWord s.mem.pixels k)))
      else sget unknownWord s.mem.pixels k := by
  have use := groupInUse_pixel s (k / 3072) (col := k % 3072) (Nat.mod_lt _ (by decide))
  unfold State.visitRows
  dsimp only
  rw [sget_smap unknownWord _ k (by rw [visit_unknown, ite_self]) ok]
  refine if_congr ?_ rfl rfl
  rw [Bool.and_eq_true, Bool.and_eq_true, use, Bool.not_eq_true', List.contains_eq_mem, decide_eq_false_iff_not]
  tauto

/-! ### An aging tick (R150) -/

theorem agingTick_eq {s : State} {at_ : Nat} (flips : List BitFlip) (clocked : s.clocked = true) (next : s.nextTickAt = some at_) :
    s.agingTick flips = ((s.reach at_).flipBits flips).ageTick := by
  rw [State.agingTick, next]
  exact if_pos clocked

/-- The visits that a tick's pass makes, with those that the scan's locks hold up. -/
def State.passVisit (s : State) : AgeVisit :=
  { rows := (List.range s.rows).filter (fun r => s.rowLocked r && s.passStarts r), tick := s.mem.tickNum, hold := s.mem.holdAge }

/-- The memories of t with the tick's number after that of s. -/
def State.ticked (s t : State) : State := { t with mem.tickNum := s.mem.tickNum + 1 }

/-- The state in which a tick's pass may run: the scrub's has, unless the tick runs none. -/
def State.scrubbed (s : State) : State := if (s.inHold || s.aNow == 0) = true then s else s.scrubPass

theorem ageTick_eq (s : State) : s.ageTick =
    s.ticked (if (s.pgh.deferAge || (s.inHold || s.aNow == 0)) = true then s.scrubbed else s.scrubbed.agePass) := rfl

theorem scrubbed_only (s : State) : s.StoreOnly s.scrubbed ∧ s.scrubbed.mem.pixels = s.mem.pixels := by
  unfold State.scrubbed
  split
  · exact ⟨State.StoreOnly.refl s, rfl⟩
  · exact scrubPass_only s

theorem mem_lostGroups_scrubbed {s : State} (ok : swf 0 s.mem.flips = true) (q : Nat → Bool) (g : Nat) :
    g ∈ s.scrubbed.lostGroups q ↔ g ∈ s.lostGroups q := by
  unfold State.scrubbed State.scrubPass
  split
  · rfl
  · split
    · exact mem_lostGroups_mend ok _ _ _
    · rfl

theorem held_iff (s : State) : (s.pgh.deferAge || (s.inHold || s.aNow == 0)) = true ↔ s.pgh.deferAge = true ∨ s.inHold = true ∨ s.aNow = 0 := by
  rw [Bool.or_eq_true, Bool.or_eq_true, beq_iff_eq]

/-- A tick that runs no aging pass. -/
theorem ageTick_held {s : State} (held : s.pgh.deferAge = true ∨ s.inHold = true ∨ s.aNow = 0) : s.ageTick = s.ticked s.scrubbed := by
  rw [ageTick_eq, if_pos ((held_iff s).mpr held)]

theorem ageTick_runs {s : State} (runs : ¬ (s.pgh.deferAge = true ∨ s.inHold = true ∨ s.aNow = 0)) :
    s.ageTick = s.ticked s.scrubbed.agePass := by
  rw [ageTick_eq, if_neg (fun h => runs ((held_iff s).mp h))]

/-- The rows that a pass visits at once. -/
def State.passRows (s : State) (r : Nat) : Bool := s.passStarts r && !s.rowLocked r

theorem agePass_mem (s : State) : s.agePass.now = s.now
    ∧ s.agePass.mem = { (s.visitRows s.passRows s.passVisit).mem with holdAge := none, ageWait := some s.passVisit } := ⟨rfl, rfl⟩

theorem visitRows_ledger (s : State) (q : Nat → Bool) (a : AgeVisit) : (s.visitRows q a).mem.ledger = s.mem.ledger
    ∧ (s.visitRows q a).mem.tickNum = s.mem.tickNum := ⟨rfl, rfl⟩

theorem pass_store {s t : State} (only : s.StoreOnly t) : t.passVisit = s.passVisit ∧ t.passRows = s.passRows := by
  rw [only]
  exact ⟨rfl, rfl⟩

/-- What the pass does to the memories but the words, and to the words. -/
theorem aged_mem (s : State) : let t := s.ticked s.scrubbed.agePass
    t.now = s.now ∧ t.mem.tickNum = s.mem.tickNum + 1 ∧ t.mem.ledger = s.mem.ledger
      ∧ t.mem.holdAge = none ∧ t.mem.ageWait = some s.passVisit
      ∧ t.mem.pixels = (s.scrubbed.visitRows s.passRows s.passVisit).mem.pixels := by
  intro t
  have only := (scrubbed_only s).1
  obtain ⟨visit, rows⟩ := pass_store only
  obtain ⟨now, mem⟩ := agePass_mem s.scrubbed
  obtain ⟨ledger, -⟩ := visitRows_ledger s.scrubbed s.passRows s.passVisit
  rw [visit, rows] at mem
  show s.scrubbed.agePass.now = s.now ∧ s.mem.tickNum + 1 = s.mem.tickNum + 1
    ∧ s.scrubbed.agePass.mem.ledger = s.mem.ledger ∧ s.scrubbed.agePass.mem.holdAge = none
    ∧ s.scrubbed.agePass.mem.ageWait = some s.passVisit
    ∧ s.scrubbed.agePass.mem.pixels = (s.scrubbed.visitRows s.passRows s.passVisit).mem.pixels
  rw [now, mem]
  dsimp only
  rw [ledger]
  have sameNow : s.scrubbed.now = s.now := by rw [only]
  have sameLedger : s.scrubbed.mem.ledger = s.mem.ledger := by rw [only]
  exact ⟨sameNow, rfl, sameLedger, rfl, rfl, rfl⟩

/-- An idle pixel in the first pass after HOLD (R87). -/
theorem apply_hold {a : AgeVisit} {p : Pixel} {h : Fin 4} (hold : a.hold = some h) (idle : p.active = false) :
    a.apply p = { p with age := max p.age h.val, step := 0 } := by
  rw [AgeVisit.apply, hold]
  exact if_neg (by rw [idle]; decide)

/-- In the others (R85). -/
theorem apply_tick {a : AgeVisit} (p : Pixel) (hold : a.hold = none) : a.apply p = pixelAge a.tick p := by
  rw [AgeVisit.apply, hold]

/-- The words that the pass leaves, by row, lock, group and activity. -/
theorem aged_word {s : State} (pixels : swf unknownWord s.mem.pixels = true) (flips : swf 0 s.mem.flips = true) (k : Nat) :
    let w := sget unknownWord s.mem.pixels k
    sget unknownWord (s.ticked s.scrubbed.agePass).mem.pixels k
      = if k / 3072 < s.rows ∧ k % 3072 < s.cols ∧ (pixelOf w).active = false ∧ s.passStarts (k / 3072) = true
            ∧ s.rowLocked (k / 3072) = false
            ∧ groupOf (k / 3072) (k % 3072) ∉ s.lostGroups (fun g => s.passRows (g / 768)) then
          pixelWord (s.passVisit.apply (pixelOf w))
        else w := by
  intro w
  obtain ⟨only, same⟩ := scrubbed_only s
  have ok : swf unknownWord s.scrubbed.mem.pixels = true := by rw [same]; exact pixels
  have rows : s.scrubbed.rows = s.rows := by rw [only]; rfl
  have cols : s.scrubbed.cols = s.cols := by rw [only]; rfl
  obtain ⟨-, -, -, -, -, run⟩ := aged_mem s
  have rowsPass : s.passRows (k / 3072) = true ↔ s.passStarts (k / 3072) = true ∧ s.rowLocked (k / 3072) = false := by
    rw [State.passRows, Bool.and_eq_true, Bool.not_eq_true']
  have lost := mem_lostGroups_scrubbed flips (fun g => s.passRows (g / 768)) (groupOf (k / 3072) (k % 3072))
  have word := visitRows_word ok s.passRows s.passVisit k
  rw [rows, cols, same] at word
  rw [run, word]
  by_cases active : (pixelOf w).active = true
  · rw [visit_active _ active, ite_self, if_neg]
    rintro ⟨-, -, idle, -⟩
    rw [active] at idle
    cases idle
  · refine if_congr ?_ rfl rfl
    have idle : (pixelOf w).active = false := Bool.eq_false_iff.mpr active
    rw [rowsPass, lost]
    tauto

end Sys2Proof.Machine
end

section
/-! PROOFS. A row slot (R19, R20, R136, R142): its reads, its latch, and what its checks leave. -/

namespace Sys2Proof.Machine

/-! ### Injections stand while a fault's reaction runs (R477) -/

theorem State.Moved.injecting {s t : State} (h : s.Moved t) : t.flt.injecting = s.flt.injecting := by
  show t.flt.core.injecting = s.flt.core.injecting
  rw [h.flt]

theorem State.ReactsWith.injecting {s t : State} {r : Reacting} (h : s.ReactsWith r t) : t.flt.injecting = s.flt.injecting := by
  show t.flt.core.injecting = s.flt.injecting
  rw [h.flt]

theorem goDark_injecting (s : State) : s.goDark.flt.injecting = s.flt.injecting := by
  cases light : s.flt.dark with
  | true => rw [goDark_dark_eq light]
  | false =>
    rw [goDark_eq light, (beginRailDown_moved _ (.inl dark_stays)).injecting, abruptStop_flt]
    rfl

theorem beginReaction_injecting {s : State} (level : Reaction) (n : Nat) (also : List Nat) (ups : s.stopsUp) :
    (s.beginReaction level n also).flt.injecting = s.flt.injecting := by
  unfold State.beginReaction
  split
  · exact goDark_injecting s
  · exact (reactStop_reacts (s := { s with flt.history := (s.now :: s.flt.history).take 3 }) _ ups).injecting

theorem duringReaction_injecting {s : State} (r : Reacting) (level : Reaction) (n : Nat) (ups : s.stopsUp) :
    (s.duringReaction r level n).flt.injecting = s.flt.injecting := by
  unfold State.duringReaction
  dsimp only
  split
  · exact beginReaction_injecting level n [] ups
  · split
    · split
      · exact (reactStop_reacts _ ups).injecting
      · rfl
    · rfl

theorem reactDelivery_injecting {s : State} (level : Reaction) (n : Nat) (up : s.anyRail = true) :
    (s.reactDelivery level n).flt.injecting = s.flt.injecting := by
  rw [reactDelivery_eq]
  dsimp only
  generalize s.deliveryReaction level n = r
  split
  · rfl
  · have railed : State.anyRail { s with flt.react := some r } = true := up
    have same : ({ s with flt.react := some r } : State).flt.injecting = s.flt.injecting := rfl
    generalize ({ s with flt.react := some r } : State) = u at railed same
    have still : State.anyRail { u.abruptStop with rtc.deliveryDone := true } = true := (abruptStop_anyRail u).trans railed
    refine (beginRailDown_moved _ (.inr (.inl still))).injecting.trans ?_
    exact (congrArg FaultState.injecting (abruptStop_flt u)).trans same

theorem react_injecting {s : State} (level : Reaction) (n : Nat) (stays : s.staysUp) :
    (s.react level n).flt.injecting = s.flt.injecting := by
  have dormant := staysUp_stopsUp stays
  have higher : (if s.rtc.deliveryAt.isSome then s.reactDelivery level n
      else match s.flt.react with
        | some r => s.duringReaction r level n
        | none => s.beginReaction level n []).flt.injecting = s.flt.injecting := by
    split
    · rename_i delivers
      refine reactDelivery_injecting level n (stays.resolve_right fun h => ?_)
      rw [h.1] at delivers
      cases delivers
    · split
      · exact duringReaction_injecting _ level n dormant
      · exact beginReaction_injecting level n [] dormant
  unfold State.react
  split
  · rfl
  · cases level with
    | note => rfl
    | ease => rfl
    | dark => exact goDark_injecting s
    | hold => exact higher
    | safe => exact higher

theorem State.Marked.injecting {s t : State} (h : s.Marked t) : t.flt.injecting = s.flt.injecting := by rw [h]

theorem raise_injecting {s : State} (n : Nat) (stays : s.staysUp) : (s.raise n).flt.injecting = s.flt.injecting := by
  by_cases quiet : n < 96 ∧ s.recording = false
  · rw [State.raise, raiseAs_silent _ quiet.1 quiet.2]
  · rw [State.raise, raiseAs_of_recording _ fun low => by simpa using fun h => quiet ⟨low, h⟩]
    have marked := setSticky_marked s n
    rw [react_injecting _ n (marked.staysUp stays), marked.injecting]

theorem held_none {s : State} (none_ : s.flt.injecting = []) (n : Nat) : s.held n = false := by
  rw [State.held, none_]
  rfl

/-- With nothing injected no detector meets a held condition. -/
theorem meetHeld_none {s : State} (none_ : s.flt.injecting = []) : s.meetHeld = s := by
  unfold State.meetHeld
  simp only [held_none none_, Bool.false_eq_true, if_false]

/-! ### The checks that end a slot (R142, R146) -/

/-- From s to t only the drills' records and those of a fault's bit change. -/
def State.Checked (s t : State) : Prop :=
  t = { s with
    drills := t.drills, flt.sticky0 := t.flt.sticky0, flt.sticky1 := t.flt.sticky1, flt.first := t.flt.first, rtc.bak := t.rtc.bak
    acc.hwSet := t.acc.hwSet, pwr.attnHeld := t.pwr.attnHeld, link.attnFault := t.link.attnFault }

theorem State.Checked.trans {s t u : State} (h : s.Checked t) (g : t.Checked u) : s.Checked u := by
  unfold State.Checked at *
  rw [h] at g
  exact g

theorem State.Marked.checked {s t : State} (h : s.Marked t) : s.Checked t := by
  unfold State.Checked
  have drills : t.drills = s.drills := by rw [h]
  rw [drills]
  exact h

section
variable {s t : State} (h : s.Checked t)
include h

theorem State.Checked.now : t.now = s.now := by rw [h]
theorem State.Checked.mem : t.mem = s.mem := by rw [h]
theorem State.Checked.scan : t.scan = s.scan := by rw [h]
theorem State.Checked.panel : t.panel = s.panel := by rw [h]
theorem State.Checked.injecting : t.flt.injecting = s.flt.injecting := by rw [h]
theorem State.Checked.recording : t.recording = s.recording := by rw [State.recording, State.recording, h]

theorem State.Checked.staysUp (stays : s.staysUp) : t.staysUp := by
  unfold State.staysUp State.anyRail at *
  rw [h]
  exact stays

end

theorem loseSweep_checked (s : State) (i : Nat) : s.Checked (s.loseSweep i) := rfl

theorem raise_drillDead_marked (s : State) : s.Marked (s.raise fltDrillDead) := raise_mild_marked (.inl rfl)

theorem checkHeartbeats_checked (s : State) (n : Nat) (l : List HeartbeatIn) : s.Checked (s.checkHeartbeats n l) := by
  unfold State.checkHeartbeats
  dsimp only
  have beat (f : Nat → Drill → Drill) : s.Checked (s.mapDrills f) := rfl
  split
  · exact beat _
  · refine State.Checked.trans ?_ (raise_drillDead_marked _).checked
    have lost (t : State) (places : List Nat) : t.Checked (places.foldl State.loseSweep t) :=
      foldl_related State.Checked (fun _ => rfl) (fun h g => h.trans g) _ loseSweep_checked places t
    exact State.Checked.trans (beat _) (lost _ _)

theorem foldl_marked (l : List Nat) (mild : ∀ n ∈ l, faultReaction n = .note ∨ faultReaction n = .ease) (s : State) :
    s.Marked (l.foldl State.raise s) := by
  induction l generalizing s with
  | nil => exact State.Marked.refl s
  | cons n l ih =>
    exact (raise_mild_marked (mild n (List.mem_cons_self ..))).trans (ih (fun m listed => mild m (List.mem_cons_of_mem _ listed)) _)

theorem raiseAll_marked {s : State} {l : List Nat} (mild : ∀ n ∈ l, faultReaction n = .note ∨ faultReaction n = .ease) :
    s.Marked (s.raiseAll l) :=
  foldl_marked _ (fun n listed => mild n (List.mem_mergeSort.mp listed)) s

/-! ### The slot's own part -/

/-- The memories as the slot finds them. -/
def State.rowFound (s : State) (i : RowInput) : State :=
  ((s.reach (s.slotTime s.scan.slot)).flipBits i.flips).flipCells i.ledgerFlips

/-- A slot of blanking (R106). -/
def State.blanked (s : State) : State :=
  { s.keepCodes with panel.srcCodes := [], panel.srcFloat := false, panel.zeroPass := [] }

/-- The slot's latch point. -/
def State.slotLatched (s : State) (i : RowInput) : State :=
  if s.scan.slot < 32 then (s.rowFound i).blanked else (s.rowFound i).latchRow (s.scan.slot - 32) i

/-- The slot counted, with the bridge's repeats and the items that the fences drop. -/
def State.slotCounted (s : State) (slot repeats drops : Nat) : State :=
  { s with scan.slot := slot, mem.brgPerr := sat32 s.mem.brgPerr repeats, mem.stale := sat32 s.mem.stale drops }

/-- What a slot's reads keep. -/
theorem rowFound_eq (s : State) (i : RowInput) : s.rowFound i = { s with
    now := max s.now (s.slotTime s.scan.slot)
    mem := { s.mem with
      pixels := (s.flipBits i.flips).mem.pixels, flips := (s.flipBits i.flips).mem.flips, secCnt := (s.flipBits i.flips).mem.secCnt
      scrubWait := (s.flipBits i.flips).mem.scrubWait, ledgerFlip := (s.rowFound i).mem.ledgerFlip } } := by
  have only := flipBits_only (s.reach (s.slotTime s.scan.slot)) i.flips
  have same := flipBits_mem_congr (s := s) (t := s.reach (s.slotTime s.scan.slot)) rfl i.flips
  unfold State.rowFound
  rw [← same]
  generalize (s.reach (s.slotTime s.scan.slot)).flipBits i.flips = u at only
  unfold State.flipCells
  dsimp only
  rw [only]
  rfl

theorem dropped_rowFound (s : State) (i : RowInput) (l : List LateItem) : (s.rowFound i).dropped l = s.dropped l := by
  rw [rowFound_eq]
  rfl

/-- The faults that end a slot, the bridge's beside. -/
def staleFault (drops : Nat) : List Nat := if 0 < drops then [fltStale] else []

theorem staleFault_mild {drops n : Nat} (listed : n ∈ staleFault drops) : faultReaction n = .note ∨ faultReaction n = .ease := by
  unfold staleFault at listed
  split at listed
  · rw [List.mem_singleton.mp listed]
    exact .inl rfl
  · cases listed

theorem rowSlot_eq {s : State} (i : RowInput) (none_ : s.flt.injecting = []) :
    s.rowSlot i = (((s.slotLatched i).slotCounted (s.scan.slot + 1) i.repeats (s.dropped i.late)).checkHeartbeats s.scan.slot i.heartbeats).raiseAll
      (staleFault (s.dropped i.late) ++ (if i.bridgeFail.isSome then [fltBridge] else [])) := by
  have quiet : (s.rowFound i).held fltBridge = false := held_none (by rw [rowFound_eq]; exact none_) _
  have drops := dropped_rowFound s i i.late
  unfold State.rowSlot
  dsimp only
  show ((({ s.slotLatched i with
      scan.slot := s.scan.slot + 1
      mem.brgPerr := sat32 (s.slotLatched i).mem.brgPerr (if (s.rowFound i).held fltBridge then max 1 i.repeats else i.repeats)
      mem.stale := sat32 (s.slotLatched i).mem.stale ((s.rowFound i).dropped i.late) } : State).checkHeartbeats s.scan.slot i.heartbeats).raiseAll
      ((if 0 < (s.rowFound i).dropped i.late then [fltStale] else [])
        ++ (if i.bridgeFail.isSome || (s.rowFound i).held fltBridge then [fltBridge] else []))) = _
  rw [quiet, drops, Bool.or_false]
  rfl

/-- A slot without a failure on the bridge: what follows its latch are notes. -/
theorem rowSlot_checked {s : State} {i : RowInput} (none_ : s.flt.injecting = []) (whole : i.bridgeFail = none) :
    ((s.slotLatched i).slotCounted (s.scan.slot + 1) i.repeats (s.dropped i.late)).Checked (s.rowSlot i) := by
  rw [rowSlot_eq i none_, whole]
  refine (checkHeartbeats_checked _ _ _).trans (raiseAll_marked (fun n listed => ?_)).checked
  exact staleFault_mild (by simpa using listed)

end Sys2Proof.Machine
end

section
/-! PROOFS. Aging passes (R84 to R87, R91, R92, R150, R154, R518): the tick, and a locked row's visit at its latch. -/

namespace Sys2Proof.Machine

/-! ### The tick -/

theorem flipBits_ok {s : State} (l : List BitFlip) (ok : s.memoryOk = true) :
    swf unknownWord (s.flipBits l).mem.pixels = true ∧ swf 0 (s.flipBits l).mem.flips = true := by
  obtain ⟨pixels, -, flips, -⟩ := (memoryOk_iff s).1 ok
  have goes := flipBits_goes (bf := []) s l
  exact ⟨goes.pixels pixels, goes.flips flips⟩

/-- What a flip of bits in the frame store leaves for an aging tick to read. -/
theorem tick_store {s t : State} (only : s.StoreOnly t) : t.now = s.now ∧ t.mem.tickNum = s.mem.tickNum ∧ t.mem.ledger = s.mem.ledger
    ∧ t.mem.holdAge = s.mem.holdAge ∧ t.mem.ageWait = s.mem.ageWait ∧ t.rows = s.rows ∧ t.cols = s.cols
    ∧ t.pgh.deferAge = s.pgh.deferAge ∧ t.inHold = s.inHold ∧ t.aNow = s.aNow ∧ t.passVisit = s.passVisit
    ∧ t.passStarts = s.passStarts ∧ t.rowLocked = s.rowLocked := by
  rw [only]
  exact ⟨rfl, rfl, rfl, rfl, rfl, rfl, rfl, rfl, rfl, rfl, rfl, rfl, rfl⟩

theorem ticked_held {s : State} : (s.ticked s.scrubbed).now = s.now ∧ (s.ticked s.scrubbed).mem.tickNum = s.mem.tickNum + 1
    ∧ (s.ticked s.scrubbed).mem.ledger = s.mem.ledger ∧ (s.ticked s.scrubbed).mem.pixels = s.mem.pixels
    ∧ (s.ticked s.scrubbed).mem.holdAge = s.mem.holdAge ∧ (s.ticked s.scrubbed).mem.ageWait = s.mem.ageWait := by
  obtain ⟨only, pixels⟩ := scrubbed_only s
  obtain ⟨now, -, ledger, hold, wait, -⟩ := tick_store only
  exact ⟨now, rfl, ledger, pixels, hold, wait⟩

/-- A tick after the frame store's bits flipped: what it leaves beside the words. -/
theorem ageTick_counts {s v : State} (only : s.StoreOnly v) : v.ageTick.now = s.now ∧ v.ageTick.mem.tickNum = s.mem.tickNum + 1
    ∧ v.ageTick.mem.ledger = s.mem.ledger := by
  obtain ⟨now, num, ledger, -⟩ := tick_store only
  rw [← now, ← num, ← ledger]
  by_cases held : v.pgh.deferAge = true ∨ v.inHold = true ∨ v.aNow = 0
  · rw [ageTick_held held]
    exact ⟨ticked_held.1, ticked_held.2.1, ticked_held.2.2.1⟩
  · rw [ageTick_runs held]
    obtain ⟨now, num, ledger, -⟩ := aged_mem v
    exact ⟨now, num, ledger⟩

/-- The words of a pass, in the terms of the state before the bits flipped. -/
theorem ageTick_words {s v : State} (only : s.StoreOnly v) (pixels : swf unknownWord v.mem.pixels = true) (flips : swf 0 v.mem.flips = true)
    (runs : ¬ (v.pgh.deferAge = true ∨ v.inHold = true ∨ v.aNow = 0)) (k : Nat) :
    sget unknownWord v.ageTick.mem.pixels k
      = if k / 3072 < s.rows ∧ k % 3072 < s.cols ∧ (pixelOf (sget unknownWord v.mem.pixels k)).active = false
            ∧ s.passStarts (k / 3072) = true ∧ s.rowLocked (k / 3072) = false
            ∧ groupOf (k / 3072) (k % 3072) ∉ v.lostGroups (fun g => s.passStarts (g / 768) && !s.rowLocked (g / 768)) then
          pixelWord (s.passVisit.apply (pixelOf (sget unknownWord v.mem.pixels k)))
        else sget unknownWord v.mem.pixels k := by
  obtain ⟨-, -, -, -, -, rows, cols, -, -, -, visit, starts, locked⟩ := tick_store only
  have word := aged_word pixels flips k
  rw [rows, cols, visit, starts, locked] at word
  have passes : (fun g => v.passRows (g / 768)) = fun g => s.passStarts (g / 768) && !s.rowLocked (g / 768) := by
    funext g
    rw [State.passRows, starts, locked]
  rw [passes] at word
  rw [ageTick_runs runs]
  exact word

theorem agingPass_tick (s : State) (flips : List BitFlip) (at_ : Nat) (clocked : s.clocked = true) (next : s.nextTickAt = some at_) :
    exec (.agingTick flips) s = .next ((s.reach at_).flipBits flips).ageTick :=
  congrArg Host.Outcome.next (agingTick_eq flips clocked next)

/-! ### The reads of a row's latch -/

/-- From s to t only the counts of the row's reads, the charge of the plot row and the records of a fault's bit change. -/
def State.ReadOff (s t : State) : Prop :=
  t = { s with
    mem := { s.mem with secCnt := t.mem.secCnt, dedCnt := t.mem.dedCnt, dedLoc := t.mem.dedLoc }
    panel := { s.panel with qPlot := t.panel.qPlot, qRun := t.panel.qRun }
    flt.sticky0 := t.flt.sticky0, flt.sticky1 := t.flt.sticky1, flt.first := t.flt.first, rtc.bak := t.rtc.bak
    acc.hwSet := t.acc.hwSet, pwr.attnHeld := t.pwr.attnHeld, link.attnFault := t.link.attnFault }

theorem State.ReadOff.refl (s : State) : s.ReadOff s := rfl

theorem State.ReadOff.trans {s t u : State} (h : s.ReadOff t) (g : t.ReadOff u) : s.ReadOff u := by
  unfold State.ReadOff at *
  rw [h] at g
  exact g

theorem State.Marked.readOff {s t : State} (h : s.Marked t) : s.ReadOff t := by
  unfold State.ReadOff
  have mem := h.mem
  have panel := h.panel
  rw [mem, panel]
  exact h

theorem countDouble_readOff (s : State) (g : Nat) : s.ReadOff (s.countDouble g) :=
  State.ReadOff.trans (t := { s with mem.dedCnt := sat32 s.mem.dedCnt 1, mem.dedLoc := some (g / 768, g % 768) }) rfl
    (raise_mild_marked (.inl rfl)).readOff

/-- The charge of the plot row before is kept at the first row of the next (R28). -/
def State.rowCharged (s : State) (row : Nat) : State := if 0 < row ∧ row % s.plotH = 0 then s.latchCharge else s

theorem rowCharged_readOff (s : State) (row : Nat) : s.ReadOff (s.rowCharged row) := by
  unfold State.rowCharged
  split
  · have frame := latchCharge_eq s
    unfold State.ReadOff
    generalize s.latchCharge = t at frame ⊢
    rw [frame]
  · exact State.ReadOff.refl s

theorem rowReads_readOff (s : State) (row : Nat) : s.ReadOff ((s.rowCharged row).rowReads row).1 := by
  have counted (t : State) (q : Nat → Bool) : t.ReadOff (t.countMended q) := rfl
  have each (t : State) (l : List Nat) : t.ReadOff (l.foldl State.countDouble t) :=
    foldl_related State.ReadOff State.ReadOff.refl (fun h g => h.trans g) _ countDouble_readOff l t
  exact (rowCharged_readOff s row).trans ((counted _ _).trans (each _ _))

/-- What the reads of a slot's row leave of the state before it. -/
structure State.FoundBy (s : State) (i : RowInput) (u : State) : Prop where
  now : u.now = max s.now (s.slotTime s.scan.slot)
  pixels : u.mem.pixels = (s.flipBits i.flips).mem.pixels
  flips : u.mem.flips = (s.flipBits i.flips).mem.flips
  ledger : u.mem.ledger = s.mem.ledger
  ageWait : u.mem.ageWait = s.mem.ageWait
  stale : u.mem.stale = s.mem.stale
  brgPerr : u.mem.brgPerr = s.mem.brgPerr
  banks : u.mem.banks = s.mem.banks
  strap : u.strap = s.strap
  scan : u.scan = s.scan
  drills : u.drills = s.drills
  alm : u.alm = s.alm
  pgh : u.pgh = s.pgh
  window : u.rw = s.rw
  deliveryAt : u.rtc.deliveryAt = s.rtc.deliveryAt
  st : u.pwr.st = s.pwr.st
  acted : u.seq.acted = s.seq.acted
  stage : u.up.stage = s.up.stage
  injecting : u.flt.injecting = s.flt.injecting

theorem rowFound_foundBy (s : State) (i : RowInput) : s.FoundBy i (s.rowFound i) := by
  rw [rowFound_eq]
  exact ⟨rfl, rfl, rfl, rfl, rfl, rfl, rfl, rfl, rfl, rfl, rfl, rfl, rfl, rfl, rfl, rfl, rfl, rfl, rfl⟩

theorem State.ReadOff.found {s u : State} {i : RowInput} (off : (s.rowFound i).ReadOff u) : s.FoundBy i u := by
  have here := rowFound_foundBy s i
  generalize s.rowFound i = t at off here
  rw [off]
  exact ⟨here.now, here.pixels, here.flips, here.ledger, here.ageWait, here.stale, here.brgPerr, here.banks, here.strap, here.scan,
    here.drills, here.alm, here.pgh, here.window, here.deliveryAt, here.st, here.acted, here.stage, here.injecting⟩

/-! #### What is lost does not hang on more than the frame store -/

theorem lostGroups_store {s t : State} (pixels : t.mem.pixels = s.mem.pixels) (flips : t.mem.flips = s.mem.flips) (strap : t.strap = s.strap)
    (q : Nat → Bool) : t.lostGroups q = s.lostGroups q := by
  simp only [State.lostGroups, State.flipped, State.groupClass, State.groupStored, State.groupData, State.pixel, pixels, flips,
    groupInUse_congr strap]

theorem rowFound_lost (s : State) (i : RowInput) (q : Nat → Bool) : (s.rowFound i).lostGroups q = (s.flipBits i.flips).lostGroups q := by
  have only := flipBits_only s i.flips
  refine lostGroups_store ?_ ?_ ?_ q
  · rw [rowFound_eq]
  · rw [rowFound_eq]
  · rw [rowFound_eq, only]

/-- The groups that the row's reads give up. -/
theorem rowReads_lost {s : State} (none_ : s.flt.injecting = []) (row : Nat) :
    ((s.rowCharged row).rowReads row).2 = s.lostGroups (fun g => g / 768 == row) := by
  have off := rowCharged_readOff s row
  have quiet : (s.rowCharged row).held fltFsDouble = false := held_none (by rw [off]; exact none_) _
  have same : (s.rowCharged row).lostGroups (fun g => g / 768 == row) = s.lostGroups (fun g => g / 768 == row) :=
    lostGroups_store (by rw [off]) (by rw [off]) (by rw [off]) _
  rw [← same]
  unfold State.rowReads
  dsimp only
  rw [quiet]
  rfl

theorem latchRow_eq (s : State) (row : Nat) (i : RowInput) :
    s.latchRow row i = (if s.rowMisses i then ((s.rowCharged row).rowReads row).1.rowMissed row
      else ((s.rowCharged row).rowReads row).1.rowDelivered row i ((s.rowCharged row).rowReads row).2).releaseRow row := rfl

theorem rowFound_misses {s : State} (none_ : s.flt.injecting = []) (i : RowInput) : (s.rowFound i).rowMisses i = s.rowMisses i := by
  have quiet : (s.rowFound i).held fltBridge = false := held_none (by rw [rowFound_eq]; exact none_) _
  rw [State.rowMisses, State.rowMisses, quiet, held_none none_, rowFound_eq]
  rfl

/-! ### The locks of a row released (R154) -/

/-- The scrub's visit of the row that waited for its lock. -/
def State.rowScrubbed (s : State) (row : Nat) : State :=
  { s.scrubRows (fun r => s.mem.scrubWait.contains r && r == row) with mem.scrubWait := s.mem.scrubWait.filter (fun r => !(r == row)) }

theorem rowScrubbed_only (s : State) (row : Nat) : s.StoreOnly (s.rowScrubbed row) ∧ (s.rowScrubbed row).mem.pixels = s.mem.pixels := ⟨rfl, rfl⟩

theorem releaseRow_eq (s : State) (row : Nat) : s.releaseRow row = (s.rowScrubbed row).releaseAge (fun r => r == row) := rfl

theorem releaseRow_memory (s : State) (row : Nat) : s.releaseRow row = { s with mem := (s.releaseRow row).mem } := by
  rw [releaseRow_eq, releaseAge_eq]
  rfl

theorem releaseRow_idle {s : State} (idle : s.mem.ageWait = none) (row : Nat) : s.releaseRow row = s.rowScrubbed row := by
  rw [releaseRow_eq, releaseAge_none (by exact idle)]

/-- The words of a row whose visit waited. -/
theorem releaseRow_word {s : State} {a : AgeVisit} {row : Nat} (waits : s.mem.ageWait = some a) (listed : row ∈ a.rows) (small : row < s.rows)
    (pixels : swf unknownWord s.mem.pixels = true) (flips : swf 0 s.mem.flips = true)
    (whole : s.lostGroups (fun g => g / 768 == row) = []) (k : Nat) :
    sget unknownWord (s.releaseRow row).mem.pixels k = if k / 3072 = row ∧ k % 3072 < s.cols then
        pixelWord (a.apply (pixelOf (sget unknownWord s.mem.pixels k)))
      else sget unknownWord s.mem.pixels k := by
  have word := visitRows_word (s := s.rowScrubbed row) pixels (fun r => a.rows.contains r && r == row) a k
  have released : (s.releaseRow row).mem.pixels = ((s.rowScrubbed row).visitRows (fun r => a.rows.contains r && r == row) a).mem.pixels := by
    rw [releaseRow_eq, releaseAge_some (show (s.rowScrubbed row).mem.ageWait = some a from waits)]
  have kept (g : Nat) : g ∉ (s.rowScrubbed row).lostGroups (fun g => a.rows.contains (g / 768) && g / 768 == row) := by
    intro lost
    have lost := (mem_lostGroups_mend flips _ _ g).mp lost
    obtain ⟨bits, use, pass, cls⟩ := mem_lostGroups.mp lost
    have there : g ∈ s.lostGroups (fun g => g / 768 == row) := mem_lostGroups.mpr ⟨bits, use, (Bool.and_eq_true_iff.mp pass).2, cls⟩
    rw [whole] at there
    cases there
  rw [released, word]
  refine if_congr ?_ rfl rfl
  have rows : (s.rowScrubbed row).rows = s.rows := rfl
  have cols : (s.rowScrubbed row).cols = s.cols := rfl
  rw [rows, cols]
  have passes : (a.rows.contains (k / 3072) && k / 3072 == row) = true ↔ k / 3072 = row := by
    rw [Bool.and_eq_true, beq_iff_eq, List.contains_iff_mem]
    exact ⟨And.right, fun same => ⟨same ▸ listed, same⟩⟩
  constructor
  · rintro ⟨mine, -, col, -⟩
    exact ⟨passes.mp mine, col⟩
  · rintro ⟨mine, col⟩
    exact ⟨passes.mpr mine, by omega, col, kept _⟩

theorem releaseRow_wait {s : State} {a : AgeVisit} (waits : s.mem.ageWait = some a) (row : Nat) :
    (s.releaseRow row).mem.ageWait = some { a with rows := a.rows.filter (fun r => !(r == row)) } := by
  rw [releaseRow_eq, releaseAge_some (show (s.rowScrubbed row).mem.ageWait = some a from waits)]

/-! ### A row missed -/

/-- The row's latch where its codes are missing. -/
theorem slotLatched_missed {s : State} {i : RowInput} (none_ : s.flt.injecting = []) (past : 32 ≤ s.scan.slot) (misses : s.rowMisses i = true) :
    ∃ u, (s.rowFound i).ReadOff u ∧ s.slotLatched i = (u.rowMissed (s.scan.slot - 32)).releaseRow (s.scan.slot - 32) := by
  refine ⟨_, rowReads_readOff _ (s.scan.slot - 32), ?_⟩
  rw [State.slotLatched, if_neg (by omega), latchRow_eq, rowFound_misses none_, misses]
  rfl

theorem execRowLatch_of {s : State} (i : RowInput) (scans : s.scan.scanning = true) (inside : s.scan.slot < s.frameRows) :
    exec (.rowLatch i) s = .next (s.rowSlot i).meetHeld := by
  show Host.Outcome.next (if s.scan.scanning && decide (s.scan.slot < s.frameRows) then (s.rowSlot i).meetHeld else s) = _
  rw [scans, decide_eq_true inside]
  rfl

theorem agingPass_locked {s : State} {i : RowInput} {a : AgeVisit} (scans : s.scan.scanning = true) (past : 32 ≤ s.scan.slot)
    (inside : s.scan.slot < s.frameRows) (whole : i.bridgeFail = none) (none_ : s.flt.injecting = []) (misses : s.rowMisses i = true)
    (waits : s.mem.ageWait = some a) (listed : s.scan.slot - 32 ∈ a.rows) (ok : s.memoryOk = true) (small : s.scan.slot - 32 < s.rows)
    (sound : (s.flipBits i.flips).lostGroups (fun g => g / 768 == s.scan.slot - 32) = []) :
    ∃ t, exec (.rowLatch i) s = .next t
      ∧ t.mem.ageWait = some { a with rows := a.rows.filter (fun r => !(r == s.scan.slot - 32)) } ∧ ∀ k,
        sget unknownWord t.mem.pixels k = if k / 3072 = s.scan.slot - 32 ∧ k % 3072 < s.cols then
            pixelWord (a.apply (pixelOf (sget unknownWord (s.flipBits i.flips).mem.pixels k)))
          else sget unknownWord (s.flipBits i.flips).mem.pixels k := by
  refine ⟨_, execRowLatch_of i scans inside, ?_⟩
  have checked := rowSlot_checked none_ whole
  obtain ⟨u, off, latched⟩ := slotLatched_missed none_ past misses
  have idle : (s.slotLatched i).flt.injecting = [] := by
    rw [latched, releaseRow_memory]
    exact off.found.injecting.trans none_
  rw [meetHeld_none (by rw [checked.injecting]; exact idle), checked.mem]
  show (s.slotLatched i).mem.ageWait = _ ∧ ∀ k, sget unknownWord (s.slotLatched i).mem.pixels k = _
  rw [latched]
  obtain ⟨pixels, flips⟩ := flipBits_ok i.flips ok
  have there := off.found
  have wait : (u.rowMissed (s.scan.slot - 32)).mem.ageWait = some a := there.ageWait.trans waits
  refine ⟨releaseRow_wait wait _, fun k => ?_⟩
  have sameRows : (u.rowMissed (s.scan.slot - 32)).rows = s.rows := rows_congr there.strap
  have sameCols : (u.rowMissed (s.scan.slot - 32)).cols = s.cols := cols_congr there.strap
  have word := releaseRow_word wait listed (by rw [sameRows]; exact small) (by show swf _ u.mem.pixels = true; rw [there.pixels]; exact pixels)
    (by show swf _ u.mem.flips = true; rw [there.flips]; exact flips)
    ((lostGroups_store there.pixels there.flips (there.strap.trans (by rw [flipBits_only s i.flips])) _).trans sound) k
  rw [sameCols] at word
  refine word.trans ?_
  show (if _ then pixelWord (a.apply (pixelOf (sget unknownWord u.mem.pixels k))) else sget unknownWord u.mem.pixels k) = _
  rw [there.pixels]

/-- Settles O32: the tick's visits in the terms of the words before them, the locked row's at its latch. -/
theorem agingPass : Obligations.AgingPass := by
  refine ⟨fun s flips at_ clocked next => ⟨_, agingPass_tick s flips at_ clocked next, ?_⟩, ?_⟩
  · have only := flipBits_only (s.reach at_) flips
    have same : ((s.reach at_).flipBits flips).mem.pixels = (s.flipBits flips).mem.pixels :=
      congrArg MemState.pixels (flipBits_mem_congr (s := s) (t := s.reach at_) rfl flips)
    have fine (ok : s.memoryOk = true) := flipBits_ok (s := s.reach at_) flips ok
    obtain ⟨now, num, ledger⟩ := ageTick_counts only
    refine ⟨now, num, ledger, ?_⟩
    obtain ⟨-, -, -, hold, wait, -, -, defer, inHold, count, visit, -, -⟩ := tick_store only
    have sameHeld : (s.pgh.deferAge = true ∨ s.inHold = true ∨ s.aNow = 0) ↔ (((s.reach at_).flipBits flips).pgh.deferAge = true
        ∨ ((s.reach at_).flipBits flips).inHold = true ∨ ((s.reach at_).flipBits flips).aNow = 0) := by
      rw [defer, inHold, count]
      rfl
    by_cases held : s.pgh.deferAge = true ∨ s.inHold = true ∨ s.aNow = 0
    · rw [if_pos held]
      rw [ageTick_held (sameHeld.mp held)]
      obtain ⟨-, -, -, words, hold', wait'⟩ := ticked_held (s := (s.reach at_).flipBits flips)
      exact ⟨words.trans same, hold'.trans hold, wait'.trans wait⟩
    · rw [if_neg held]
      have runs := fun h => held (sameHeld.mpr h)
      refine ⟨?_, ?_, fun ok k => ?_⟩
      · rw [ageTick_runs runs]
        exact (aged_mem _).2.2.2.1
      · rw [ageTick_runs runs]
        exact (aged_mem _).2.2.2.2.1.trans (congrArg some visit)
      · obtain ⟨pixels, bits⟩ := fine ok
        refine (ageTick_words only pixels bits runs k).trans ?_
        refine ite_congr rfl (fun ages => congrArg pixelWord ?_) (fun _ => rfl)
        obtain ⟨-, -, idle, -⟩ := ages
        cases was : s.mem.holdAge with
        | none => exact apply_tick (a := (s.reach at_).passVisit) _ was
        | some h => exact apply_hold (a := (s.reach at_).passVisit) was idle
  · intro s i a scans past inside whole none_ misses waits listed ok row small sound
    exact agingPass_locked scans past inside whole none_ misses waits listed ok small sound

end Sys2Proof.Machine
end

section
/-! PROOFS. A delivered row: the words written back, and what else it changes (R83, R94, R99, R135, R136, R141, R152). -/

namespace Sys2Proof.Machine

/-! ### Maps -/

section
variable {α : Type} [DecidableEq α] (d : α)

/-- A listed entry reads as its rewriting. -/
theorem sget_smap_mem (f : Nat → α → α) {x : Nat × α} : ∀ {b : Nat} {m : SMap α}, swfFrom d b m = true → x ∈ m →
    sget d (smap d f m) x.1 = f x.1 x.2
  | _, [], _, listed => by cases listed
  | b, (k, v) :: m, ok, listed => by
    simp only [swfFrom, Bool.and_eq_true, decide_eq_true_eq] at ok
    rw [smap]
    rcases List.mem_cons.mp listed with rfl | listed
    · exact sget_scons_self d _ (swfFrom_smap d f ok.2)
    · have above := swfFrom_lt d ok.2 x listed
      rw [sget_scons_other d _ (by omega) (fun below => by omega)]
      exact sget_smap_mem f ok.2 listed

/-- An unlisted key stays so. -/
theorem sget_smap_unlisted (f : Nat → α → α) {m : SMap α} {k : Nat} (unlisted : ∀ x ∈ m, x.1 ≠ k) : sget d (smap d f m) k = d := by
  rcases sget_cases d (smap d f m) k with none_ | ⟨x, listed, key, -⟩
  · exact none_
  · obtain ⟨y, there, same⟩ := mem_smap listed
    rw [same] at key
    exact absurd key (unlisted y there)

theorem sget_unlisted {m : SMap α} {k : Nat} (unlisted : ∀ x ∈ m, x.1 ≠ k) : sget d m k = d := by
  rcases sget_cases d m k with none_ | ⟨x, listed, key, -⟩
  · exact none_
  · exact absurd key (unlisted x listed)

end

/-! ### Bits that flip in other groups -/

theorem pixelKey_row {row col : Nat} (small : col < 3072) : pixelKey row col / 3072 = row ∧ pixelKey row col % 3072 = col := by
  unfold pixelKey
  omega

/-- A group's words do not reach another's. -/
theorem putGroup_other {s : State} {g : Nat} (d : BitVec 80) {k : Nat} (ok : swf unknownWord s.mem.pixels = true)
    (other : g ≠ groupOf (k / 3072) (k % 3072)) : sget unknownWord (s.putGroup g d).mem.pixels k = sget unknownWord s.mem.pixels k := by
  have step (m : SMap PixelWord) (l : List Nat) (lanes : ∀ i ∈ l, i < 4) (fine : swf unknownWord m = true) :
      sget unknownWord (l.foldl (fun m i => sset unknownWord m (pixelKey (g / 768) (g % 768 * 4 + i)) ((d >>> (20 * i)).setWidth 20)) m) k
        = sget unknownWord m k := by
    induction l generalizing m with
    | nil => rfl
    | cons i l ih =>
      have lane := lanes i (List.mem_cons_self ..)
      refine (ih _ (fun j listed => lanes j (List.mem_cons_of_mem _ listed)) (swf_sset _ _ _ _ fine)).trans ?_
      refine sget_sset_other _ _ _ _ (fun same => other ?_) fine
      rw [same]
      unfold pixelKey groupOf
      omega
  exact step _ _ (fun i listed => List.mem_range.mp listed) ok

theorem storeGroup_other {s : State} {g : Nat} (w : BitVec 88) {k : Nat} (ok : swf unknownWord s.mem.pixels = true)
    (other : g ≠ groupOf (k / 3072) (k % 3072)) : sget unknownWord (s.storeGroup g w).mem.pixels k = sget unknownWord s.mem.pixels k := by
  unfold State.storeGroup
  dsimp only
  split
  · exact putGroup_other _ ok other
  · exact putGroup_other _ ok other
  · rfl

theorem flipBits_other (l : List BitFlip) {k : Nat} : ∀ {s : State}, swf unknownWord s.mem.pixels = true →
    (∀ f ∈ l, f.group ≠ groupOf (k / 3072) (k % 3072)) → sget unknownWord (s.flipBits l).mem.pixels k = sget unknownWord s.mem.pixels k := by
  induction l with
  | nil => exact fun _ _ => rfl
  | cons f l ih =>
    intro s ok others
    have first := others f (List.mem_cons_self ..)
    have stored := (storeGroup_rest s f.group (s.groupStored f.group ^^^ (1#88 <<< f.bit.val))).2.1 ok
    exact (ih stored (fun h listed => others h (List.mem_cons_of_mem _ listed))).trans (storeGroup_other _ ok first)

/-! ### The words of a scanned row -/

/-- The pixels whose write-back the bank's guard accepts (R94). -/
def State.rowAccepted (s : State) (row : Nat) (lost : List Nat) : List RowPixel :=
  if (s.refusedGroups row).isEmpty then s.rowPixels row lost
  else (s.rowPixels row lost).filter (fun p => !(s.refusedGroups row).contains (p.col / 4))

theorem mem_rowAccepted {s : State} {row : Nat} {lost : List Nat} {p : RowPixel} : p ∈ s.rowAccepted row lost ↔
    (∃ x ∈ s.mem.pixels, x.1 / 3072 = row ∧ x.1 % 3072 < s.cols ∧ s.scanPixel row lost (x.1 % 3072) x.2 = p)
      ∧ p.col / 4 ∉ s.refusedGroups row := by
  have scanned : p ∈ s.rowPixels row lost ↔
      ∃ x ∈ s.mem.pixels, x.1 / 3072 = row ∧ x.1 % 3072 < s.cols ∧ s.scanPixel row lost (x.1 % 3072) x.2 = p := by
    rw [State.rowPixels, List.mem_map]
    constructor
    · rintro ⟨x, kept, rfl⟩
      obtain ⟨listed, here⟩ := List.mem_filter.mp kept
      rw [Bool.and_eq_true, decide_eq_true_iff, decide_eq_true_iff] at here
      exact ⟨x, listed, here.1, here.2, rfl⟩
    · rintro ⟨x, listed, mine, used, rfl⟩
      exact ⟨x, List.mem_filter.mpr ⟨listed, by rw [decide_eq_true mine, decide_eq_true used]; rfl⟩, rfl⟩
  unfold State.rowAccepted
  split
  · rename_i none_
    rw [scanned, List.isEmpty_iff.mp none_]
    simp
  · rw [List.mem_filter, scanned, List.contains_eq_mem, Bool.not_eq_true', decide_eq_false_iff_not]

theorem scanPixel_col (s : State) (row : Nat) (lost : List Nat) (col : Nat) (w : PixelWord) : (s.scanPixel row lost col w).col = col := by
  unfold State.scanPixel
  dsimp only
  split
  · rfl
  · split
    · rfl
    · split
      · rfl
      · split <;> rfl

/-- The word that a delivered row leaves at a key. -/
def State.rowWord (s : State) (row : Nat) (lost : List Nat) (k : Nat) (w : PixelWord) : PixelWord :=
  match (s.rowAccepted row lost).find? (fun p => p.col == k % 3072) with
  | some p => if k / 3072 = row then p.after else w
  | none => w

/-- A listed pixel of the row, in use, is written as its scan leaves it, where its group passes the guard. -/
theorem rowWord_listed {s : State} (ok : swf unknownWord s.mem.pixels = true) (row : Nat) (lost : List Nat) {x : Nat × PixelWord} (listed : x ∈ s.mem.pixels) :
    s.rowWord row lost x.1 x.2 = if x.1 / 3072 = row ∧ x.1 % 3072 < s.cols ∧ x.1 % 3072 / 4 ∉ s.refusedGroups row then
        (s.scanPixel row lost (x.1 % 3072) x.2).after
      else x.2 := by
  unfold State.rowWord
  split
  · rename_i p found
    have there := List.mem_of_find?_eq_some found
    have col : p.col = x.1 % 3072 := by simpa using List.find?_some found
    obtain ⟨⟨y, listed', mine, used, rfl⟩, passes⟩ := mem_rowAccepted.mp there
    rw [scanPixel_col] at col passes
    by_cases here : x.1 / 3072 = row
    · have same : y.1 = x.1 := by omega
      have value : y.2 = x.2 := by rw [← sget_mem unknownWord ok listed', ← sget_mem unknownWord ok listed, same]
      rw [if_pos here, if_pos ⟨here, by omega, col ▸ passes⟩, same, value]
    · rw [if_neg here, if_neg (fun h => here h.1)]
  · rename_i none_
    rw [if_neg]
    rintro ⟨here, used, passes⟩
    have found := List.find?_eq_none.mp none_ (s.scanPixel row lost (x.1 % 3072) x.2)
      (mem_rowAccepted.mpr ⟨⟨x, listed, here, used, rfl⟩, by rw [scanPixel_col]; exact passes⟩)
    rw [scanPixel_col] at found
    exact found (by simp)

/-- What the scan leaves of a pixel that takes part. -/
theorem scanPixel_after {s : State} (takes : ∀ row col, s.takesPart row col = true) (row : Nat) (lost : List Nat) (col : Nat) (w : PixelWord) :
    (s.scanPixel row lost col w).after = if groupOf row col ∈ lost then unknownWord
      else if (pixelOf w).active = false then w
      else if s.scan.cancelAll = true then pixelWord (pixelCancel (pixelOf w))
      else pixelWord (s.pixelWrite row col (pixelOf w) (s.pixelStep row col (pixelOf w))) := by
  unfold State.scanPixel
  dsimp only
  rw [if_neg (by rw [takes]; exact fun h => h rfl)]
  by_cases gone : groupOf row col ∈ lost
  · rw [if_pos gone, if_pos (by rw [List.contains_eq_mem]; exact decide_eq_true gone)]
  · rw [if_neg gone, if_neg (by rw [List.contains_eq_mem, decide_eq_false gone]; decide)]
    cases active : (pixelOf w).active with
    | false => rw [if_pos (by decide), if_pos rfl]
    | true =>
      rw [if_neg (show ¬ ¬ true = true by decide), if_neg (show ¬ true = false by decide)]
      by_cases cancels : s.scan.cancelAll = true
      · rw [if_pos cancels, if_pos cancels]
      · rw [if_neg cancels, if_neg cancels]

theorem unknown_idle : (pixelOf unknownWord).active = false := by decide

theorem rowWords_word {s : State} (ok : swf unknownWord s.mem.pixels = true) (takes : ∀ row col, s.takesPart row col = true)
    (row : Nat) (lost : List Nat) (k : Nat) :
    sget unknownWord (smap unknownWord (s.rowWord row lost) s.mem.pixels) k
      = if k / 3072 = row ∧ k % 3072 < s.cols ∧ k % 3072 / 4 ∉ s.refusedGroups row then
          if groupOf row (k % 3072) ∈ lost then unknownWord
          else if (pixelOf (sget unknownWord s.mem.pixels k)).active = false then sget unknownWord s.mem.pixels k
          else if s.scan.cancelAll = true then pixelWord (pixelCancel (pixelOf (sget unknownWord s.mem.pixels k)))
          else pixelWord (s.pixelWrite row (k % 3072) (pixelOf (sget unknownWord s.mem.pixels k))
            (s.pixelStep row (k % 3072) (pixelOf (sget unknownWord s.mem.pixels k))))
        else sget unknownWord s.mem.pixels k := by
  by_cases listed : ∃ x ∈ s.mem.pixels, x.1 = k
  · obtain ⟨x, listed, rfl⟩ := listed
    rw [sget_smap_mem _ _ ok listed, sget_mem _ ok listed, rowWord_listed ok row lost listed, scanPixel_after takes]
  · have none_ : ∀ x ∈ s.mem.pixels, x.1 ≠ k := fun x there same => listed ⟨x, there, same⟩
    rw [sget_smap_unlisted _ _ none_, sget_unlisted _ none_, if_pos unknown_idle, ite_self, ite_self]

/-! ### What else a delivered row changes -/

/-- From s to t only what a delivered row does beside its words and codes changes: flipped bits, counts of corrections, the ledger,
pigeonholes' losses, charge, failed readbacks, the records of a fault's bit. -/
def State.Beside (s t : State) : Prop :=
  t = { s with
    mem := { s.mem with
      flips := t.mem.flips, secCnt := t.mem.secCnt, ledger := t.mem.ledger, ledgerFlip := t.mem.ledgerFlip, satFlag := t.mem.satFlag
      satCnt := t.mem.satCnt, satNow := t.mem.satNow, perrCnt := t.mem.perrCnt, perrFlag := t.mem.perrFlag }
    pgh := { s.pgh with tab := t.pgh.tab }, panel := { s.panel with qRun := t.panel.qRun }
    scan := { s.scan with rbFailed := t.scan.rbFailed }
    flt.sticky0 := t.flt.sticky0, flt.sticky1 := t.flt.sticky1, flt.first := t.flt.first, rtc.bak := t.rtc.bak
    acc.hwSet := t.acc.hwSet, pwr.attnHeld := t.pwr.attnHeld, link.attnFault := t.link.attnFault }

theorem State.Beside.refl (s : State) : s.Beside s := rfl

theorem State.Beside.trans {s t u : State} (h : s.Beside t) (g : t.Beside u) : s.Beside u := by
  unfold State.Beside at *
  rw [h] at g
  exact g

theorem State.Marked.beside {s t : State} (h : s.Marked t) : s.Beside t := by
  unfold State.Beside
  have mem := h.mem
  have panel := h.panel
  have scan := h.scan
  have pgh : t.pgh = s.pgh := by rw [h]
  rw [mem, panel, scan, pgh]
  exact h

theorem rewritten_beside (s : State) (q : Nat → Bool) : s.Beside (s.rewritten q) := rfl
theorem mend_beside (s : State) (q : Nat → Bool) : s.Beside (s.mend q) := rfl
theorem markCancelHit_beside (s : State) (row col : Nat) : s.Beside (s.markCancelHit row col) := rfl

theorem addCharge_beside (s : State) (l : List Charge) : s.Beside (s.addCharge l) := by
  unfold State.addCharge
  refine foldl_related State.Beside State.Beside.refl (fun h g => h.trans g) _ ?_ l s
  intro t c
  rfl

/-- The end of the ledger's part of a row: saturation and failed parity. -/
def State.ledgerEnd (s : State) (sat : Bool) (bad : Nat) : State :=
  let s2 := if sat then
      { s.hwSet 0xA00 1 with mem.satFlag := true, mem.satCnt := if s.mem.satNow then s.mem.satCnt else sat32 s.mem.satCnt 1, mem.satNow := true }
    else s
  if bad = 0 then s2
  else State.raise { s2.hwSet 0xA00 2 with mem.perrCnt := sat32 s2.mem.perrCnt bad, mem.perrFlag := true } fltLdgParity

theorem ledgerEnd_beside (s : State) (sat : Bool) (bad : Nat) : s.Beside (s.ledgerEnd sat bad) := by
  have parity (t : State) : t.Beside
      (State.raise { t.hwSet 0xA00 2 with mem.perrCnt := sat32 t.mem.perrCnt bad, mem.perrFlag := true } fltLdgParity) :=
    State.Beside.trans (t := { t.hwSet 0xA00 2 with mem.perrCnt := sat32 t.mem.perrCnt bad, mem.perrFlag := true }) rfl
      (raise_mild_marked (.inl rfl)).beside
  have filled : s.Beside (if sat then
      { s.hwSet 0xA00 1 with mem.satFlag := true, mem.satCnt := if s.mem.satNow then s.mem.satCnt else sat32 s.mem.satCnt 1, mem.satNow := true }
    else s) := by
    split <;> rfl
  unfold State.ledgerEnd
  dsimp only
  split
  · exact filled
  · exact filled.trans (parity _)

theorem ledgerRow_beside (s : State) (row : Nat) (codes : SMap (BitVec 3)) (q : Nat → Bool) : s.Beside (s.ledgerRow row codes q) := by
  have added (m : SMap LedgerWord) (fl : SMap (BitVec 17)) : s.Beside { s with mem.ledger := m, mem.ledgerFlip := fl } := rfl
  unfold State.ledgerRow State.freshCells
  exact (added _ _).trans (ledgerEnd_beside _ _ _)

theorem reread_beside (s : State) (row : Nat) (l : List RowPixel) (lost : List Nat) (flips : List BitFlip) :
    (s.flipBits flips).Beside (s.reread row l lost flips) := rfl

/-- The row's codes on the sources and its words written back, before anything else. -/
def State.rowPut (s : State) (row : Nat) (lost : List Nat) : State :=
  let scanned := s.rowPixels row lost
  let codes := rowCodes row scanned (lost.filter (fun g => s.takesPart row (g % 768 * 4)))
  { s.keepCodes with
    mem.pixels := smap unknownWord (s.rowWord row lost) s.mem.pixels, panel.srcFloat := false, panel.srcCodes := codes
    panel.zeroPass := zeroPasses s.panel.words.zp s.panel.srcFloat s.panel.srcCodes codes
    scan.lost := s.scan.lost ++ lost, mem.stale := sat32 s.mem.stale (s.refusedGroups row).length
    scan.completed := s.scan.completed + ((s.rowAccepted row lost).filter (fun (p : RowPixel) => p.done)).length }

theorem rowDelivered_beside (s : State) (row : Nat) (i : RowInput) (lost : List Nat) :
    ∃ v, (s.rowPut row lost).Beside v ∧ (v.flipBits i.lateFlips).Beside (s.rowDelivered row i lost) := by
  have hit (t : State) (l : List RowPixel) : t.Beside (l.foldl (fun (t : State) p => t.markCancelHit row p.col) t) :=
    foldl_related State.Beside State.Beside.refl (fun h g => h.trans g) _ (fun t p => markCancelHit_beside t row p.col) l t
  have written : (s.rowPut row lost).Beside ((s.rowPut row lost).rewritten
      (fun g => g / 768 == row && !(s.refusedGroups row).contains (g % 768) && s.takesPart row (g % 768 * 4))) := rewritten_beside _ _
  unfold State.rowDelivered
  dsimp only
  refine ⟨_, ?_, (reread_beside _ _ _ _ _).trans (raiseAll_marked ?_).beside⟩
  · exact ((written.trans (hit _ _)).trans (addCharge_beside _ _)).trans (ledgerRow_beside _ _ _ _)
  · intro n listed
    split at listed
    · cases listed
    · rw [List.mem_singleton.mp listed]
      exact .inl rfl

end Sys2Proof.Machine
end

section
/-! PROOFS. A row slot (R19, R20, R83, R93, R94, R106, R135, R136, R140, R141, R146, R164, R189): blanking, a row missed, a row delivered,
and a failure on the bridge. -/

namespace Sys2Proof.Machine

/-! ### What a latch leaves, however its row fared -/

/-- The parts of the state that a slot's claims speak of, but the words. -/
structure SlotFacts where
  now : Nat
  scanning : Bool
  missed : List Nat
  srcFloat : Bool
  brgPerr : Nat
  stale : Nat
  injecting : List (Nat × Nat)
  acted : BitVec 9
  deliveryAt : Option Nat
  st : PwrSt
  stage : Stage

def State.slotFacts (s : State) : SlotFacts :=
  ⟨s.now, s.scan.scanning, s.scan.missed, s.panel.srcFloat, s.mem.brgPerr, s.mem.stale, s.flt.injecting, s.seq.acted,
    s.rtc.deliveryAt, s.pwr.st, s.up.stage⟩

/-- What they are after a latch. -/
def State.latchFacts (s : State) (missed : List Nat) (float : Bool) (stale : Nat) : SlotFacts :=
  ⟨max s.now (s.slotTime s.scan.slot), s.scan.scanning, missed, float, s.mem.brgPerr, stale, s.flt.injecting, s.seq.acted,
    s.rtc.deliveryAt, s.pwr.st, s.up.stage⟩

theorem State.Beside.slotFacts {s t : State} (h : s.Beside t) : t.slotFacts = s.slotFacts := by
  rw [h]
  rfl

theorem State.StoreOnly.slotFacts {s t : State} (h : s.StoreOnly t) : t.slotFacts = s.slotFacts := by
  rw [h]
  rfl

/-- What the locks' release leaves of the memories. -/
theorem releaseRow_mem (s : State) (row : Nat) : (s.releaseRow row).mem.brgPerr = s.mem.brgPerr ∧ (s.releaseRow row).mem.stale = s.mem.stale
    ∧ (s.releaseRow row).mem.ledger = s.mem.ledger := by
  cases wait : s.mem.ageWait with
  | none => rw [releaseRow_idle wait]; exact ⟨rfl, rfl, rfl⟩
  | some a =>
    rw [releaseRow_eq, releaseAge_some (show (s.rowScrubbed row).mem.ageWait = some a from wait)]
    exact ⟨rfl, rfl, rfl⟩

theorem releaseRow_facts (s : State) (row : Nat) : (s.releaseRow row).slotFacts = s.slotFacts := by
  obtain ⟨perr, stale, -⟩ := releaseRow_mem s row
  have frame := releaseRow_memory s row
  unfold State.slotFacts
  rw [perr, stale, frame]

theorem releaseRow_pixels {s : State} (idle : s.mem.ageWait = none) (row : Nat) : (s.releaseRow row).mem.pixels = s.mem.pixels := by
  rw [releaseRow_idle idle]
  rfl

/-! #### By the kind of the slot -/

theorem slotLatched_blank {s : State} (i : RowInput) (blank : s.scan.slot < 32) : s.slotLatched i = (s.rowFound i).blanked := if_pos blank

theorem blank_facts {s : State} (i : RowInput) (blank : s.scan.slot < 32) :
    (s.slotLatched i).slotFacts = s.latchFacts s.scan.missed false s.mem.stale := by
  rw [slotLatched_blank i blank, rowFound_eq]
  rfl

theorem State.FoundBy.facts {s u : State} {i : RowInput} (h : s.FoundBy i u) :
    u.slotFacts = s.latchFacts s.scan.missed u.panel.srcFloat s.mem.stale := by
  unfold State.slotFacts State.latchFacts
  rw [h.now, h.scan, h.brgPerr, h.stale, h.injecting, h.acted, h.deliveryAt, h.st, h.stage]

theorem missed_facts {s : State} {i : RowInput} (none_ : s.flt.injecting = []) (past : 32 ≤ s.scan.slot) (misses : s.rowMisses i = true) :
    (s.slotLatched i).slotFacts = s.latchFacts (s.scan.missed ++ [s.scan.slot - 32]) true s.mem.stale := by
  obtain ⟨u, off, latched⟩ := slotLatched_missed none_ past misses
  have found := off.found
  rw [latched, releaseRow_facts]
  unfold State.slotFacts State.latchFacts
  show SlotFacts.mk u.now u.scan.scanning (u.scan.missed ++ [s.scan.slot - 32]) true u.mem.brgPerr u.mem.stale u.flt.injecting u.seq.acted
    u.rtc.deliveryAt u.pwr.st u.up.stage = _
  rw [found.now, found.scan, found.brgPerr, found.stale, found.injecting, found.acted, found.deliveryAt, found.st, found.stage]

/-- The row's latch where its codes came. -/
theorem slotLatched_delivered {s : State} {i : RowInput} (none_ : s.flt.injecting = []) (past : 32 ≤ s.scan.slot)
    (comes : s.rowMisses i = false) : ∃ u, (s.rowFound i).ReadOff u ∧ s.slotLatched i
      = (u.rowDelivered (s.scan.slot - 32) i ((s.flipBits i.flips).lostGroups (fun g => g / 768 == s.scan.slot - 32))).releaseRow (s.scan.slot - 32) := by
  have still : (s.rowFound i).flt.injecting = [] := (rowFound_foundBy s i).injecting.trans none_
  refine ⟨_, rowReads_readOff _ (s.scan.slot - 32), ?_⟩
  rw [State.slotLatched, if_neg (by omega), latchRow_eq, rowFound_misses none_, comes, rowReads_lost still, rowFound_lost]
  rfl

theorem State.ReadOff.refused {s u : State} {i : RowInput} (off : (s.rowFound i).ReadOff u) (none_ : s.flt.injecting = []) (row : Nat) :
    u.refusedGroups row = s.refusedGroups row := by
  have quiet : u.held fltStale = false := held_none (off.found.injecting.trans none_) _
  have slots : u.staleSlots row = s.staleSlots row := by
    unfold State.staleSlots
    rw [quiet, held_none none_]
    have found := off.found
    simp only [State.places, State.drillIs, found.drills, found.banks]
    rfl
  have found := off.found
  have frame := rowFound_eq s i
  unfold State.refusedGroups
  rw [slots]
  generalize s.rowFound i = t at off frame
  rw [off, frame]
  rfl

theorem delivered_facts {s : State} {i : RowInput} (none_ : s.flt.injecting = []) (past : 32 ≤ s.scan.slot) (comes : s.rowMisses i = false) :
    (s.slotLatched i).slotFacts = s.latchFacts s.scan.missed false (sat32 s.mem.stale (s.refusedGroups (s.scan.slot - 32)).length) := by
  obtain ⟨u, off, latched⟩ := slotLatched_delivered none_ past comes
  generalize (s.flipBits i.flips).lostGroups (fun g => g / 768 == s.scan.slot - 32) = lost at latched
  obtain ⟨v, before, after⟩ := rowDelivered_beside u (s.scan.slot - 32) i lost
  rw [latched, releaseRow_facts, after.slotFacts, (flipBits_only v i.lateFlips).slotFacts, before.slotFacts]
  have found := off.found
  show SlotFacts.mk u.now u.scan.scanning u.scan.missed false u.mem.brgPerr (sat32 u.mem.stale (u.refusedGroups (s.scan.slot - 32)).length)
    u.flt.injecting u.seq.acted u.rtc.deliveryAt u.pwr.st u.up.stage = _
  rw [off.refused none_, found.now, found.scan, found.brgPerr, found.stale, found.injecting, found.acted, found.deliveryAt, found.st, found.stage]
  rfl

/-! #### The words of a delivered row -/

/-- What a pixel's scan reads is as before the slot. -/
theorem State.ReadOff.scans {s u : State} {i : RowInput} (off : (s.rowFound i).ReadOff u) : u.cols = s.cols ∧ u.scan.cancelAll = s.scan.cancelAll
    ∧ u.pixelStep = s.pixelStep ∧ u.pixelWrite = s.pixelWrite := by
  have frame := rowFound_eq s i
  generalize s.rowFound i = t at off frame
  rw [off, frame]
  exact ⟨rfl, rfl, rfl, rfl⟩

theorem takesPart_undelivered {s : State} (none_ : s.rtc.deliveryAt = none) (row col : Nat) : s.takesPart row col = true := by
  have out : s.rowHeldOut = false := by rw [State.rowHeldOut, none_]
  rw [State.takesPart, out]
  rfl

theorem State.Beside.kept {s t : State} (h : s.Beside t) : t.mem.pixels = s.mem.pixels ∧ t.mem.ageWait = s.mem.ageWait := by
  rw [h]
  exact ⟨rfl, rfl⟩

theorem delivered_words {s : State} {i : RowInput} (none_ : s.flt.injecting = []) (past : 32 ≤ s.scan.slot) (comes : s.rowMisses i = false)
    (ok : s.memoryOk = true) (idle : s.mem.ageWait = none) (runs : s.rtc.deliveryAt = none) {k : Nat}
    (still : ∀ f ∈ i.lateFlips, f.group ≠ groupOf (k / 3072) (k % 3072)) :
    let row := s.scan.slot - 32
    let w := sget unknownWord (s.flipBits i.flips).mem.pixels k
    sget unknownWord (s.slotLatched i).mem.pixels k
      = if k / 3072 = row ∧ k % 3072 < s.cols ∧ k % 3072 / 4 ∉ s.refusedGroups row then
          if groupOf row (k % 3072) ∈ (s.flipBits i.flips).lostGroups (fun g => g / 768 == row) then unknownWord
          else if (pixelOf w).active = false then w
          else if s.scan.cancelAll = true then pixelWord (pixelCancel (pixelOf w))
          else pixelWord (s.pixelWrite row (k % 3072) (pixelOf w) (s.pixelStep row (k % 3072) (pixelOf w)))
        else w := by
  intro row w
  obtain ⟨u, off, latched⟩ := slotLatched_delivered none_ past comes
  have found := off.found
  obtain ⟨cols, cancels, step, write⟩ := off.scans
  have pixels : swf unknownWord u.mem.pixels = true := by rw [found.pixels]; exact (flipBits_ok i.flips ok).1
  have words := rowWords_word pixels (takesPart_undelivered (found.deliveryAt.trans runs)) row
    ((s.flipBits i.flips).lostGroups (fun g => g / 768 == row)) k
  rw [cols, cancels, step, write, off.refused none_, found.pixels] at words
  refine Eq.trans ?_ words
  rw [latched]
  show sget unknownWord (State.releaseRow _ row).mem.pixels k = _
  generalize (s.flipBits i.flips).lostGroups (fun g => g / 768 == row) = lost
  obtain ⟨v, before, after⟩ := rowDelivered_beside u row i lost
  obtain ⟨written, -⟩ := before.kept
  obtain ⟨kept, waits⟩ := after.kept
  have none_left : (u.rowDelivered row i lost).mem.ageWait = none := by
    rw [waits, flipBits_only v i.lateFlips]
    show v.mem.ageWait = none
    rw [before.kept.2]
    exact found.ageWait.trans idle
  have put : swf unknownWord (u.rowPut row lost).mem.pixels = true := swf_smap _ _ _ pixels
  rw [releaseRow_pixels none_left, kept, flipBits_other i.lateFlips (by rw [written]; exact put) still, written]
  show sget unknownWord (smap unknownWord (u.rowWord row lost) u.mem.pixels) k = _
  rw [found.pixels]

/-! ### The slot's end -/

theorem latched_facts {s : State} (i : RowInput) (none_ : s.flt.injecting = []) : ∃ float, (s.slotLatched i).slotFacts = s.latchFacts
    (if 32 ≤ s.scan.slot ∧ s.rowMisses i = true then s.scan.missed ++ [s.scan.slot - 32] else s.scan.missed) float
    (if s.scan.slot < 32 ∨ s.rowMisses i = true then s.mem.stale
      else sat32 s.mem.stale (s.refusedGroups (s.scan.slot - 32)).length) := by
  by_cases blank : s.scan.slot < 32
  · rw [if_neg (fun h => by omega), if_pos (.inl blank)]
    exact ⟨_, blank_facts i blank⟩
  · cases comes : s.rowMisses i with
    | true =>
      rw [if_pos ⟨by omega, rfl⟩, if_pos (.inr rfl)]
      exact ⟨_, missed_facts none_ (by omega) comes⟩
    | false =>
      rw [if_neg (fun h => Bool.false_ne_true h.2), if_neg (fun h => h.elim blank Bool.false_ne_true)]
      exact ⟨_, delivered_facts none_ (by omega) comes⟩

/-- A slot without a failure on the bridge ends in its latch, counted. -/
theorem rowSlot_whole {s : State} {i : RowInput} (none_ : s.flt.injecting = []) (whole : i.bridgeFail = none) :
    (s.rowSlot i).flt.injecting = [] ∧ (s.rowSlot i).now = (s.slotLatched i).now
      ∧ (s.rowSlot i).scan = { (s.slotLatched i).scan with slot := s.scan.slot + 1 } ∧ (s.rowSlot i).panel = (s.slotLatched i).panel
      ∧ (s.rowSlot i).mem = { (s.slotLatched i).mem with
        brgPerr := sat32 (s.slotLatched i).mem.brgPerr i.repeats, stale := sat32 (s.slotLatched i).mem.stale (s.dropped i.late) } := by
  have checked := rowSlot_checked none_ whole
  obtain ⟨float, facts⟩ := latched_facts i none_
  have injecting : (s.slotLatched i).flt.injecting = [] := (congrArg SlotFacts.injecting facts).trans none_
  exact ⟨checked.injecting.trans injecting, checked.now, checked.scan, checked.panel, checked.mem⟩

end Sys2Proof.Machine
end

section
/-! PROOFS. A failure of the bridge's traffic in a row slot (R20, R465), and the claim about row slots. -/

namespace Sys2Proof.Machine

/-! ### The bridge's fault raised -/

theorem releaseAge_brgPerr (s : State) (q : Nat → Bool) : (s.releaseAge q).mem.brgPerr = s.mem.brgPerr := by
  cases wait : s.mem.ageWait with
  | none => rw [releaseAge_none wait]
  | some a => rw [releaseAge_some wait]; rfl

theorem State.memKept.brgPerr {s t : State} (kept : s.memKept t) : t.mem.brgPerr = s.mem.brgPerr := by
  rcases kept with same | released
  · rw [same]
  · rw [released]
    exact releaseAge_brgPerr _ _

theorem State.Faulted.slot {s t : State} (h : s.Faulted t) : t.scan.slot = s.scan.slot ∧ t.scan.missed = s.scan.missed := by
  obtain ⟨u, marked, stopped⟩ := h
  rw [stopped.toSteered.slot, stopped.toSteered.missed, marked.scan]
  exact ⟨rfl, rfl⟩

/-- What a slot with a failure on the bridge leaves. -/
structure State.BridgeFailed (s t : State) : Prop where
  now : t.now = s.now
  slot : t.scan.slot = s.scan.slot
  missed : t.scan.missed = s.scan.missed
  brgPerr : t.mem.brgPerr = s.mem.brgPerr
  injecting : t.flt.injecting = s.flt.injecting
  raised : s.recording = true → t.sticky fltBridge = true

theorem raise_bridge {s : State} (stays : s.staysUp) : s.BridgeFailed (s.raise fltBridge) := by
  have faulted := raise_faulted fltBridge stays
  exact ⟨faulted.now, faulted.slot.1, faulted.slot.2, faulted.memKept.brgPerr, raise_injecting _ stays,
    fun records => raise_sticky (.inl (by decide)) (fun _ => records) stays⟩

/-- A bit that reads 1 stays when a note is raised. -/
theorem raise_mild_keeps {s : State} {n m : Nat} (mild : faultReaction n = .note ∨ faultReaction n = .ease) (set : s.sticky m = true) :
    (s.raise n).sticky m = true := by
  by_cases quiet : n < 96 ∧ s.recording = false
  · rw [State.raise, raiseAs_silent _ quiet.1 quiet.2]
    exact set
  · rw [raise_mild mild fun low => by simpa using fun h => quiet ⟨low, h⟩]
    exact setSticky_sticky_mono s n set

theorem State.BridgeFailed.noted {s t : State} (h : s.BridgeFailed t) : s.BridgeFailed (t.raise fltStale) := by
  have mild : faultReaction fltStale = .note ∨ faultReaction fltStale = .ease := .inl rfl
  have marked := raise_mild_marked (s := t) mild
  exact ⟨marked.now.trans h.now, by rw [marked.scan]; exact h.slot, by rw [marked.scan]; exact h.missed,
    by rw [marked.mem]; exact h.brgPerr, marked.injecting.trans h.injecting, fun records => raise_mild_keeps mild (h.raised records)⟩

theorem raiseAll_bridge {s : State} (drops : Nat) (stays : s.staysUp) : s.BridgeFailed (s.raiseAll (staleFault drops ++ [fltBridge])) := by
  have failed := raise_bridge stays
  unfold staleFault
  split
  · have sorted : ([fltStale] ++ [fltBridge]).mergeSort (· ≤ ·) = [fltBridge, fltStale] := by
      simp [List.mergeSort, fltStale, fltBridge, List.MergeSort.Internal.splitInTwo]
    rw [State.raiseAll, sorted]
    exact failed.noted
  · rw [List.nil_append, State.raiseAll, List.mergeSort_singleton]
    exact failed

/-- A slot with a failure on the bridge. -/
theorem rowSlot_failed {s : State} {i : RowInput} (none_ : s.flt.injecting = []) {b : Traffic} (fails : i.bridgeFail = some b)
    (stays : s.staysUp) :
    ((s.slotLatched i).slotCounted (s.scan.slot + 1) i.repeats (s.dropped i.late)).BridgeFailed (s.rowSlot i) := by
  obtain ⟨float, facts⟩ := latched_facts i none_
  rw [rowSlot_eq i none_, fails, if_pos (show (some b).isSome = true from rfl)]
  have up : ((s.slotLatched i).slotCounted (s.scan.slot + 1) i.repeats (s.dropped i.late)).staysUp := by
    have acted : (s.slotLatched i).seq.acted = s.seq.acted := congrArg SlotFacts.acted facts
    have delivery : (s.slotLatched i).rtc.deliveryAt = s.rtc.deliveryAt := congrArg SlotFacts.deliveryAt facts
    have st : (s.slotLatched i).pwr.st = s.pwr.st := congrArg SlotFacts.st facts
    show (!((s.slotLatched i).seq.acted == 0)) = true ∨ (s.slotLatched i).rtc.deliveryAt = none ∧ (s.slotLatched i).pwr.st ≠ .enterDormant
    rw [acted, delivery, st]
    exact stays
  generalize (s.slotLatched i).slotCounted (s.scan.slot + 1) i.repeats (s.dropped i.late) = u at up ⊢
  have checked := checkHeartbeats_checked u s.scan.slot i.heartbeats
  have failed := raiseAll_bridge (s.dropped i.late) (checked.staysUp up)
  exact ⟨failed.now.trans checked.now, by rw [failed.slot, checked.scan], by rw [failed.missed, checked.scan],
    by rw [failed.brgPerr, checked.mem], failed.injecting.trans checked.injecting,
    fun records => failed.raised (checked.recording.trans records)⟩

/-- Settles O31: a slot by its kind, with what its latch writes; its end are notes, or the bridge's fault. -/
theorem rowSlotRuns : Obligations.RowSlotRuns := by
  intro s i scans inside none_ row stored misses stale
  have runs := execRowLatch_of i scans inside
  obtain ⟨float, facts⟩ := latched_facts i none_
  have now : (s.slotLatched i).now = max s.now (s.slotTime s.scan.slot) := congrArg SlotFacts.now facts
  have perr : (s.slotLatched i).mem.brgPerr = s.mem.brgPerr := congrArg SlotFacts.brgPerr facts
  refine ⟨fun whole => ⟨_, runs, ?_⟩, fun b fails stays => ⟨_, runs, ?_⟩⟩
  · obtain ⟨injecting, ends, scan, panel, mem⟩ := rowSlot_whole none_ whole
    rw [meetHeld_none injecting]
    have scanning : (s.slotLatched i).scan.scanning = s.scan.scanning := congrArg SlotFacts.scanning facts
    have gone : (s.slotLatched i).mem.stale = stale := congrArg SlotFacts.stale facts
    refine ⟨ends.trans now, by rw [scan], by rw [scan]; exact scanning.trans scans, by rw [mem]; exact congrArg (sat32 · i.repeats) perr,
      by rw [mem]; exact congrArg (sat32 · (s.dropped i.late)) gone, ?_, ?_, ?_, ?_⟩
    · intro blank
      rw [mem, scan, panel, slotLatched_blank i blank, rowFound_eq]
      exact ⟨rfl, rfl, rfl, rfl, rfl⟩
    · intro past fails
      have missed := missed_facts none_ past fails
      rw [mem, scan, panel]
      refine ⟨fun idle => ?_, ?_, congrArg SlotFacts.missed missed, congrArg SlotFacts.srcFloat missed⟩
      · obtain ⟨u, off, latched⟩ := slotLatched_missed none_ past fails
        have waits : (u.rowMissed (s.scan.slot - 32)).mem.ageWait = none := off.found.ageWait.trans idle
        show (s.slotLatched i).mem.pixels = stored
        rw [latched, releaseRow_pixels waits]
        exact off.found.pixels
      · obtain ⟨u, off, latched⟩ := slotLatched_missed none_ past fails
        show (s.slotLatched i).mem.ledger = s.mem.ledger
        rw [latched, (releaseRow_mem _ _).2.2]
        exact off.found.ledger
    · intro past comes
      have delivered := delivered_facts none_ past comes
      rw [scan, panel]
      exact ⟨congrArg SlotFacts.missed delivered, congrArg SlotFacts.srcFloat delivered⟩
    · intro past comes ok idle undelivered lost r col small still
      obtain ⟨line, place⟩ := pixelKey_row (row := r) small
      have words := delivered_words none_ past comes ok idle undelivered (k := pixelKey r col) (by rw [line, place]; exact still)
      rw [line, place] at words
      rw [mem]
      refine words.trans ?_
      by_cases mine : r = row
      · rw [mine]
      · rw [if_neg (fun h => mine h.1), if_neg (fun h => mine h.1)]
  · have failed := rowSlot_failed none_ fails stays
    have injecting : (s.slotLatched i).flt.injecting = [] := (congrArg SlotFacts.injecting facts).trans none_
    have stage : (s.slotLatched i).up.stage = s.up.stage := congrArg SlotFacts.stage facts
    rw [meetHeld_none (failed.injecting.trans injecting)]
    refine ⟨failed.now.trans now, failed.slot, failed.brgPerr.trans (congrArg (sat32 · i.repeats) perr), fun records => failed.raised ?_,
      failed.missed.trans (congrArg SlotFacts.missed facts), fun past codes => ?_⟩
    · show (!([Stage.off, .held, .wait, .otpFail].contains (s.slotLatched i).up.stage)) = true
      rw [stage]
      exact records
    · show (i.bridgeFail == some .codes || _ || _ || _) = true
      rw [fails, codes]
      rfl

end Sys2Proof.Machine
end

section
/-! PROOFS. The start writer (R25, R83, R201, R205): the words of a started rectangle. -/

namespace Sys2Proof.Machine

/-! ### Rewriting the keys of a rising list -/

theorem mem_risingFrom {b : Nat} : ∀ {l : List Nat}, risingFrom b l = true → ∀ k ∈ l, b ≤ k
  | [], _, _, listed => by cases listed
  | j :: l, rising, k, listed => by
    simp only [risingFrom, Bool.and_eq_true, decide_eq_true_eq] at rising
    rcases List.mem_cons.mp listed with rfl | listed
    · exact rising.1
    · have := mem_risingFrom rising.2 k listed
      omega

section
variable {α : Type} [DecidableEq α] (d : α) (f : Nat → α → α)

theorem sget_low {b k : Nat} {m : SMap α} (ok : swfFrom d b m = true) (low : k < b) : sget d m k = d :=
  sget_below d (fun x listed => by have := swfFrom_lt d ok x listed; omega)

theorem sget_scons {j : Nat} (v : α) {m : SMap α} (ok : swfFrom d (j + 1) m = true) (k : Nat) :
    sget d (scons d j v m) k = if k = j then v else sget d m k := by
  split
  · rename_i same
    rw [same]
    exact sget_scons_self d v ok
  · rename_i other
    exact sget_scons_other d v other (fun below => sget_low d ok (by omega))

theorem sget_cons {j : Nat} (v : α) {m : SMap α} (ok : swfFrom d (j + 1) m = true) (k : Nat) :
    sget d ((j, v) :: m) k = if k = j then v else sget d m k := by
  rw [sget]
  split
  · rfl
  · split
    · exact (sget_low d ok (by omega)).symm
    · rfl

/-- The keys of the list read as their rewriting, the others as before. -/
theorem sget_sapplyFuel (k : Nat) : ∀ (n : Nat) {b : Nat} {m : SMap α} {ks : List Nat}, m.length + ks.length ≤ n → swfFrom d b m = true →
    risingFrom b ks = true → sget d (sapplyFuel d f n m ks) k = if k ∈ ks then f k (sget d m k) else sget d m k
  | 0, _, m, ks, fuel, _, _ => by
    rw [List.length_eq_zero_iff.mp (show ks.length = 0 by omega)]
    simp [sapplyFuel]
  | n + 1, _, m, [], _, _, _ => by cases m <;> simp [sapplyFuel]
  | n + 1, b, [], j :: ks, fuel, _, rising => by
    simp only [risingFrom, Bool.and_eq_true, decide_eq_true_eq] at rising
    simp only [List.length_nil, List.length_cons] at fuel
    have rest := sget_sapplyFuel k n (b := j + 1) (m := []) (ks := ks) (by simp only [List.length_nil]; omega) rfl rising.2
    rw [sapplyFuel, sget_scons d _ (swfFrom_sapplyFuel d f n rfl rising.2), rest]
    by_cases here : k = j
    · rw [if_pos here, if_pos (by rw [here]; exact List.mem_cons_self ..), here]
      rfl
    · rw [if_neg here]
      exact if_congr (by rw [List.mem_cons, or_iff_right here]) rfl rfl
  | n + 1, b, (i, v) :: m, j :: ks, fuel, ok, rising => by
    simp only [risingFrom, Bool.and_eq_true, decide_eq_true_eq] at rising
    simp only [swfFrom, Bool.and_eq_true, decide_eq_true_eq] at ok
    simp only [List.length_cons] at fuel
    simp only [sapplyFuel]
    split
    · rename_i below
      have later : risingFrom (i + 1) (j :: ks) = true := by
        simp only [risingFrom, Bool.and_eq_true, decide_eq_true_eq]
        exact ⟨by omega, rising.2⟩
      have rest := sget_sapplyFuel k n (by simp only [List.length_cons]; omega) ok.2 later
      rw [sget_cons d v (swfFrom_sapplyFuel d f n ok.2 later), sget_cons d v ok.2, rest]
      by_cases here : k = i
      · have unlisted : k ∉ j :: ks := fun there => by
          have := mem_risingFrom later k there
          omega
        rw [if_pos here, if_pos here, if_neg unlisted]
      · rw [if_neg here, if_neg here]
    · split
      · rename_i _ same
        subst same
        have rest := sget_sapplyFuel k n (by omega) ok.2 rising.2
        rw [sget_scons d _ (swfFrom_sapplyFuel d f n ok.2 rising.2), sget_cons d v ok.2, rest]
        by_cases here : k = i
        · rw [if_pos here, if_pos here, if_pos (by rw [here]; exact List.mem_cons_self ..), here]
        · rw [if_neg here, if_neg here]
          exact if_congr (by rw [List.mem_cons, or_iff_right here]) rfl rfl
      · have after : swfFrom d (j + 1) ((i, v) :: m) = true := by
          simp only [swfFrom, Bool.and_eq_true, decide_eq_true_eq]
          exact ⟨⟨by omega, ok.1.2⟩, ok.2⟩
        have rest := sget_sapplyFuel k n (by simp only [List.length_cons]; omega) after rising.2
        rw [sget_scons d _ (swfFrom_sapplyFuel d f n after rising.2), rest]
        by_cases here : k = j
        · rw [if_pos here, if_pos (by rw [here]; exact List.mem_cons_self ..), here, sget_low d after (by omega)]
        · rw [if_neg here]
          exact if_congr (by rw [List.mem_cons, or_iff_right here]) rfl rfl

theorem sget_sapply {m : SMap α} {ks : List Nat} (ok : swf d m = true) (rising : risingFrom 0 ks = true) (k : Nat) :
    sget d (sapply d f m ks) k = if k ∈ ks then f k (sget d m k) else sget d m k :=
  sget_sapplyFuel d f k _ le_rfl ok rising

end

/-! ### The words of a started rectangle -/

theorem mem_rectKeys (r : Rect) {row col : Nat} (small : col < 3072) : pixelKey row col ∈ r.keys ↔ r.has row col = true := by
  unfold Rect.keys Rect.has pixelKey
  simp only [List.mem_flatMap, List.mem_map, List.mem_range, Bool.and_eq_true, decide_eq_true_eq]
  constructor
  · rintro ⟨y, inRows, x, inCols, same⟩
    have split : r.row0 + y = row ∧ r.col0 + x = col := by omega
    omega
  · rintro ⟨⟨⟨above, below⟩, left⟩, right⟩
    exact ⟨row - r.row0, by omega, col - r.col0, by omega, by rw [Nat.add_sub_cancel' above, Nat.add_sub_cancel' left]⟩

/-- A start of a group that reads good. -/
theorem startPixel_good (restate : Bool) (pick : Pixel → Option (Nat × Nat)) (w : PixelWord) :
    startPixel restate false pick w = match pick (pixelOf w) with
      | none => w
      | some (t, m) => if (pixelOf w).active then w
        else pixelWord (if restate then pixelRestate t (pixelOf w) else pixelStart t m (pixelOf w)) := rfl

/-- The store after a start of a host unit, where no group is lost. -/
def State.unitWritten (s : State) (r : Rect) (p : Pgh) : SMap PixelWord :=
  sapply unknownWord (fun k w => startPixel p.restate false (p.pick (k / 3072) (k % 3072)) w) s.mem.pixels
    (r.keys.filter (fun k => !s.inWindow (k / 3072) (k % 3072)))

theorem lostGroups_nil {s : State} (sound : s.lostGroups (fun _ => true) = []) (q : Nat → Bool) : s.lostGroups q = [] := by
  refine List.eq_nil_iff_forall_not_mem.mpr fun g lost => ?_
  obtain ⟨bits, use, -, cls⟩ := mem_lostGroups.mp lost
  have there : g ∈ s.lostGroups (fun _ => true) := mem_lostGroups.mpr ⟨bits, use, rfl, cls⟩
  rw [sound] at there
  cases there

/-- A host unit's start writes its words and the counts of its reads, and loses no pixel. -/
theorem writeUnit_host {s : State} (sound : s.lostGroups (fun _ => true) = []) (p : Pgh) (r : Rect) :
    (s.writeUnit false p.restate r p.pick).2 = false
    ∧ ∃ m, (s.writeUnit false p.restate r p.pick).1 = { s with mem := m } ∧ m.pixels = s.unitWritten r p := by
  unfold State.writeUnit
  dsimp only
  rw [lostGroups_nil sound]
  exact ⟨rfl, _, rfl, rfl⟩

/-- The word that a start leaves of a pixel (R83, R205). -/
theorem unitWritten_word {s : State} (ok : swf unknownWord s.mem.pixels = true) (r : Rect) (p : Pgh) {row col : Nat} (small : col < 3072) :
    let w := sget unknownWord s.mem.pixels (pixelKey row col)
    sget unknownWord (s.unitWritten r p) (pixelKey row col)
      = if r.has row col = true ∧ s.inWindow row col = false ∧ (pixelOf w).active = false then
          match p.target row col with
          | none => w
          | some x => pixelWord (if p.restate then pixelRestate x (pixelOf w) else pixelStart x p.mode.val (pixelOf w))
        else w := by
  intro w
  obtain ⟨line, place⟩ := pixelKey_row (row := row) small
  have rising : risingFrom 0 (r.keys.filter (fun k => !s.inWindow (k / 3072) (k % 3072))) = true :=
    rising_of_pairwise (r.keys_sorted.filter _)
  have listed : pixelKey row col ∈ r.keys.filter (fun k => !s.inWindow (k / 3072) (k % 3072)) ↔
      r.has row col = true ∧ s.inWindow row col = false := by
    rw [List.mem_filter, mem_rectKeys r small, line, place, Bool.not_eq_true']
  rw [State.unitWritten, sget_sapply _ _ ok rising, line, place, startPixel_good]
  show (if _ then (match (p.target row col).map (fun t => (t, p.mode.val)) with
    | none => w
    | some (t, m) => if (pixelOf w).active then w
      else pixelWord (if p.restate then pixelRestate t (pixelOf w) else pixelStart t m (pixelOf w))) else w) = _
  by_cases met : r.has row col = true ∧ s.inWindow row col = false
  · rw [if_pos (listed.mpr met)]
    cases active : (pixelOf w).active with
    | false =>
      rw [if_pos ⟨met.1, met.2, rfl⟩]
      cases p.target row col <;> rfl
    | true =>
      rw [if_neg (fun h => Bool.false_ne_true h.2.2.symm)]
      cases p.target row col <;> rfl
  · rw [if_neg (fun h => met (listed.mp h)), if_neg (fun h => met ⟨h.1, h.2.1⟩)]

end Sys2Proof.Machine
end

section
/-! PROOFS. A start set with one pigeonhole (R201, R202, R205, R209 to R216): its start. -/

namespace Sys2Proof.Machine

/-! ### A table of one pigeonhole -/

section
variable {s : State} {n : Nat} {p : Pgh} (tab : s.pgh.tab = [(n, p)])
include tab

theorem only_entry : s.pgh_ n = p := by
  rw [State.pgh_, tab, sget, if_pos rfl]

theorem only_zero (other : n ≠ 0) : s.pgh_ 0 = Pgh.free := by
  rw [State.pgh_, tab, sget, if_neg (fun h => other h.symm), if_pos (by omega)]

theorem pghWhere_only (q : Nat → Pgh → Bool) : s.pghWhere q = if q n p then [n] else [] := by
  rw [State.pghWhere, tab]
  cases h : q n p <;> simp [h]

theorem setPgh_only {x : Pgh} (used : x ≠ Pgh.free) : (s.setPgh n x).pgh.tab = [(n, x)] := by
  show sset Pgh.free s.pgh.tab n x = _
  rw [tab, sset, if_pos rfl, scons, if_neg used]

theorem mapPgh_only {f : Nat → Pgh → Pgh} (used : f n p ≠ Pgh.free) : (s.mapPgh f).pgh.tab = [(n, f n p)] := by
  show smap Pgh.free f s.pgh.tab = _
  rw [tab, smap, smap, scons, if_neg used]

theorem mapPgh_fixed {f : Nat → Pgh → Pgh} (used : p ≠ Pgh.free) (fixed : f n p = p) : s.mapPgh f = s := by
  have same : smap Pgh.free f s.pgh.tab = s.pgh.tab := by rw [tab, smap, smap, fixed, scons, if_neg used]
  rw [State.mapPgh, same]

theorem committed_only (other : n ≠ 0) : s.committed = p.commitment := by
  rw [State.committed, tab, List.foldl_cons, List.foldl_nil, if_neg other, Nat.zero_add]

end

theorem host_not_hidden {n : Nat} (host : isHost n = true) : isHidden n = false ∧ n ≠ 0 := by
  unfold isHost at host
  rw [Bool.and_eq_true, decide_eq_true_iff, decide_eq_true_iff] at host
  exact ⟨decide_eq_false (by omega), by omega⟩

theorem state_ne_free {p : Pgh} (used : p.state ≠ .free) : p ≠ Pgh.free := by
  rintro rfl
  exact used rfl

/-! ### The start of the unit -/

/-- The counts of a first start (R218). -/
def State.latCounted (s : State) (first : Prop) [Decidable first] (since : Nat) : State :=
  if first then { s with pgh.lat := vmod s.pgh.lat (latBin since) (fun x => sat32 x 1) } else s

theorem latCounted_pgh (s : State) (first : Prop) [Decidable first] (since : Nat) :
    ∃ l, s.latCounted first since = { s with pgh.lat := l } := by
  unfold State.latCounted
  split
  · exact ⟨_, rfl⟩
  · exact ⟨s.pgh.lat, rfl⟩

theorem placePreempt_pgh (s : State) (n : Nat) (p : Pgh) : ∃ v, s.placePreempt n p = { s with pgh.sieve := v } := by
  unfold State.placePreempt
  dsimp only
  split
  · exact ⟨_, rfl⟩
  · split
    · exact ⟨_, rfl⟩
    · exact ⟨s.pgh.sieve, rfl⟩

/-- What a start set's one start leaves: words and the pigeonholes' record, with the entry as it then stands. -/
structure State.StartsOne (s : State) (n : Nat) (p : Pgh) (r : Rect) (t : State) (q : Pgh) : Prop where
  frame : t = { s with mem := t.mem, pgh := t.pgh }
  pixels : t.mem.pixels = s.unitWritten r p
  tab : t.pgh.tab = [(n, q)]
  restate : q.restate = p.restate
  state : if p.restate then q.state = .pending ∧ q.doneDue = true else q.state = .running

/-- The entry of a started restate. -/
def Pgh.restated (p : Pgh) : Pgh := { p with pixelLost := p.pixelLost || false, doneDue := true }

theorem startUnit_restate {s : State} {n : Nat} {p : Pgh} (tab : s.pgh.tab = [(n, p)]) (host : isHost n = true)
    (sound : s.lostGroups (fun _ => true) = []) (waits : p.state = .pending) (again : p.restate = true) (r : Rect) :
    s.StartsOne n p r (s.startUnit n r) p.restated := by
  obtain ⟨whole, m, written, pixels⟩ := writeUnit_host sound p r
  have used : p.restated ≠ Pgh.free := state_ne_free (by show p.state ≠ .free; rw [waits]; decide)
  have start : s.startUnit n r = (({ s with mem := m } : State).setPgh n p.restated).latCounted (isHost n ∧ p.state = .pending) p.since := by
    unfold State.startUnit
    dsimp only
    rw [only_entry tab, (host_not_hidden host).1, if_neg Bool.false_ne_true, written, whole, if_pos again]
    rfl
  have put := setPgh_only (s := { s with mem := m }) (x := p.restated) tab used
  obtain ⟨l, counted⟩ := latCounted_pgh (({ s with mem := m } : State).setPgh n p.restated) (isHost n ∧ p.state = .pending) p.since
  rw [start, counted]
  exact ⟨rfl, pixels, put, rfl, by rw [if_pos again]; exact ⟨waits, rfl⟩⟩

/-- The entry of a started update. -/
def State.started (s : State) (n : Nat) (p : Pgh) (r : Rect) (lost : Bool) : Pgh :=
  { p with
    pixelLost := p.pixelLost || lost
    units := p.units ++ [{ row0 := r.row0, height := r.height, commit := s.forecast n p r, frame := s.scan.frame
                           ceiling := s.forecastShares n p r, complete := false }]
    state := if p.split ∧ p.nextRow + r.height < p.height then PghSt.banding else .running
    nextRow := if p.split then p.nextRow + r.height else p.nextRow, bandH := if p.split then r.height else p.bandH }

/-- The window that a PREEMPT start takes, and the marks it leaves (R203). -/
def State.preempts (s : State) (n : Nat) (q : Pgh) (r : Rect) : State :=
  if q.preempt then (s.placePreempt n q).markPreempted n r else s

theorem preempts_pgh {s : State} {n : Nat} {q : Pgh} (tab : s.pgh.tab = [(n, q)]) (used : q ≠ Pgh.free) (r : Rect) :
    ∃ v, s.preempts n q r = { s with pgh.sieve := v } := by
  obtain ⟨v, placed⟩ := placePreempt_pgh s n q
  unfold State.preempts
  split
  · refine ⟨v, ?_⟩
    rw [placed, State.markPreempted]
    refine mapPgh_fixed (s := { s with pgh.sieve := v }) tab used ?_
    exact if_neg (fun h => h.1 rfl)
  · exact ⟨s.pgh.sieve, rfl⟩

theorem startUnit_update {s : State} {n : Nat} {p : Pgh} (tab : s.pgh.tab = [(n, p)]) (host : isHost n = true)
    (sound : s.lostGroups (fun _ => true) = []) (unsplit : p.split = false) (update : p.restate = false) (r : Rect) :
    ∃ q, s.StartsOne n p r (s.startUnit n r) q := by
  obtain ⟨whole, m, written, pixels⟩ := writeUnit_host sound p r
  have runs : (s.started n p r false).state = .running := by
    show (if p.split = true ∧ p.nextRow + r.height < p.height then PghSt.banding else .running) = .running
    rw [if_neg (fun h => by rw [unsplit] at h; exact Bool.false_ne_true h.1)]
  have used : s.started n p r false ≠ Pgh.free := state_ne_free (by rw [runs]; decide)
  have put := setPgh_only (s := { s with mem := m }) (x := s.started n p r false) tab used
  have start : s.startUnit n r = ((({ s with mem := m } : State).setPgh n (s.started n p r false)).preempts n (s.started n p r false) r).latCounted
      (isHost n ∧ p.state = .pending) p.since := by
    unfold State.startUnit
    dsimp only
    rw [only_entry tab, (host_not_hidden host).1, if_neg Bool.false_ne_true, written, whole, if_neg (by rw [update]; exact Bool.false_ne_true)]
    rfl
  obtain ⟨v, placed⟩ := preempts_pgh put used r
  rw [start, placed]
  obtain ⟨l, counted⟩ := latCounted_pgh ({ ({ s with mem := m } : State).setPgh n (s.started n p r false) with pgh.sieve := v })
    (isHost n ∧ p.state = .pending) p.since
  rw [counted]
  exact ⟨s.started n p r false, rfl, pixels, put, rfl, by rw [update]; exact runs⟩

end Sys2Proof.Machine
end

section
/-! PROOFS. The start set's walk with one pigeonhole (R202, R205, R209 to R216). -/

namespace Sys2Proof.Machine

/-! ### The parts of a start set -/

/-- With the budget taken, hidden units withdrawn and restates started. -/
def State.freed (s : State) : State := State.startFree (State.withdrawDue { s with pgh.budget := s.frameBudget s.workingBudget })

/-- Host units that may start for energy. -/
def State.candidates (s : State) (e : Int) : List Nat := s.pghWhere (fun n p => !p.restate && s.eligibleHost e n p)

/-- A candidate's latency counts this set, and one that exceeds E is split (R211, R213). -/
def State.counts (s : State) (e : Int) (n : Nat) (p : Pgh) : Pgh :=
  { p with since := p.since + 1, split := p.split || (p.state == .pending && decide (e < (s.forecast n p p.rect : Int))) }

def State.awaited (s : State) (e : Int) (cand : List Nat) : State := cand.foldl (fun (t : State) n => t.modPgh n (t.counts e n)) s

/-- The load and the directive's holds. -/
def State.loaded (s : State) (e : Int) (cand : List Nat) : State :=
  let p := cand.foldl (fun x n => x + s.forecast n (s.pgh_ n) (s.nextRect n (s.pgh_ n) e)) 0
  State.holds { s with pgh.loadPending := (s.pghWhere (fun n p => isHost n && p.waiting)).length } (loadOf s.committed p e)

def State.hiddenUnits (s : State) : List Nat := s.pghWhere (fun n p => s.eligibleHidden n p)

/-- The energy up to which units start whatever their priority (R212). -/
def startShare (e : Int) (c : Nat) : Int := max (tdiv (e * 7) 10 - c) (tdiv (e - c) 3)

def State.walk (s : State) (e : Int) (c : Nat) (units : List Nat) : Walk :=
  (((units.map (fun n => (n, s.pgh_ n))).mergeSort ranksBefore).map Prod.fst).foldl (Walk.visit e (startShare e c))
    { st := s, h := e - c, c := c, used := 0, started := [], ended := false }

/-- What has not started waits one set more. -/
def Walk.ends (w : Walk) (e : Int) (units : List Nat) : State :=
  let s6 := (w.st.ageWaiting (units.filter (fun n => !w.started.contains n))).mapPgh (fun n p =>
    if isHidden n ∧ p.state = .pending then { p with age := p.age + 1 } else p)
  { s6 with pgh.eavail := (e / 1000000).toNat, pgh.commit := w.c / 1000000, scan.startSetDone := true }

/-- The start set after pigeonhole 0. -/
def State.fixOpen (s : State) (e : Int) : State :=
  let cand := s.freed.candidates e
  let s3 := s.freed.awaited e cand
  let s4 := s3.loaded e cand
  (s4.walk e s3.committed (cand ++ s4.hiddenUnits)).ends e (cand ++ s4.hiddenUnits)

theorem fixStarts_eq (s : State) : s.fixStarts
    = s.startSetZero.fixOpen (s.startSetZero.openEnergy (s.startSetZero.frameBudget s.startSetZero.workingBudget)) := by
  unfold State.fixStarts State.fixOpen State.freed State.candidates State.awaited State.loaded State.hiddenUnits State.walk Walk.ends
    State.counts startShare
  dsimp only

/-! ### Each part with one pigeonhole -/

section
variable {s : State} {n : Nat} {p : Pgh} (tab : s.pgh.tab = [(n, p)]) (host : isHost n = true)
include tab host

theorem startSetZero_none : s.startSetZero = s := by
  refine if_neg (fun h => ?_)
  rw [only_zero tab (host_not_hidden host).2] at h
  exact absurd h.1 (by decide)

theorem hiddenUnits_none : s.hiddenUnits = [] := by
  have no : s.eligibleHidden n p = false := by
    unfold State.eligibleHidden
    dsimp only
    rw [(host_not_hidden host).1]
    rfl
  rw [State.hiddenUnits, pghWhere_only tab, no]
  rfl

theorem withdrawDue_none (used : p ≠ Pgh.free) : s.withdrawDue = s := by
  unfold State.withdrawDue State.withdraw
  refine mapPgh_fixed tab used (if_neg (fun h => ?_))
  rw [(host_not_hidden host).1] at h
  exact Bool.false_ne_true h.1

omit host in
theorem startFree_one (used : p ≠ Pgh.free) (area : p.rect.isEmpty = false) (may : s.eligibleUnit n p p.rect = true) :
    s.startFree = if p.restate then s.startUnit n p.rect else s := by
  have full : s.mapPgh (fun n p => if isHost n ∧ s.acceptedBefore p ∧ p.state = .pending ∧ p.rect.isEmpty then { p with doneDue := true } else p) = s :=
    mapPgh_fixed tab used (if_neg (fun h => by rw [area] at h; exact Bool.false_ne_true h.2.2.2))
  unfold State.startFree
  dsimp only
  rw [full, pghWhere_only tab, may, Bool.and_true]
  cases p.restate with
  | false => rfl
  | true =>
    show (if s.eligibleUnit n (s.pgh_ n) (s.pgh_ n).rect then s.startUnit n (s.pgh_ n).rect else s) = s.startUnit n p.rect
    rw [only_entry tab, may]
    rfl

theorem freedAt_one (used : p ≠ Pgh.free) (area : p.rect.isEmpty = false) (may : s.eligibleUnit n p p.rect = true) (b : Nat) :
    State.startFree (State.withdrawDue { s with pgh.budget := b })
      = if p.restate then State.startUnit { s with pgh.budget := b } n p.rect else { s with pgh.budget := b } := by
  have none_ := withdrawDue_none (s := { s with pgh.budget := b }) tab host used
  rw [none_]
  exact startFree_one (s := { s with pgh.budget := b }) tab used area may

theorem freed_one (used : p ≠ Pgh.free) (area : p.rect.isEmpty = false) (may : s.eligibleUnit n p p.rect = true) : ∃ b,
    s.freed = if p.restate then State.startUnit { s with pgh.budget := b } n p.rect else { s with pgh.budget := b } :=
  ⟨_, freedAt_one tab host used area may _⟩

end

theorem loaded_pgh (s : State) (e : Int) (cand : List Nat) : ∃ x, s.loaded e cand = { s with pgh := x } ∧ x.tab = s.pgh.tab ∧ x.sieve = s.pgh.sieve :=
  ⟨_, rfl, rfl, rfl⟩

/-- The end of a walk that started all it met. -/
theorem ends_one {w : Walk} {n : Nat} {q : Pgh} (tab : w.st.pgh.tab = [(n, q)]) (host : isHost n = true) (used : q ≠ Pgh.free) (e : Int)
    {units : List Nat} (all : units.filter (fun n => !w.started.contains n) = []) :
    ∃ x, w.ends e units = { w.st with pgh := x, scan.startSetDone := true } ∧ x.tab = [(n, q)] := by
  have none_ : w.st.mapPgh (fun n p => if isHidden n ∧ p.state = .pending then { p with age := p.age + 1 } else p) = w.st :=
    mapPgh_fixed tab used (if_neg (fun h => by rw [(host_not_hidden host).1] at h; exact Bool.false_ne_true h.1))
  unfold Walk.ends
  rw [all]
  show ∃ x, (let s6 := w.st.mapPgh (fun n p => if isHidden n ∧ p.state = .pending then { p with age := p.age + 1 } else p)
    ({ s6 with pgh.eavail := (e / 1000000).toNat, pgh.commit := w.c / 1000000, scan.startSetDone := true } : State)) = _ ∧ _
  rw [none_]
  exact ⟨_, rfl, tab⟩

/-! ### The walk's one start (R212) -/

theorem startShare_open {e : Int} (energy : 2 ≤ e) : 0 < startShare e 0 := by
  have share : 1 ≤ (e * 7).tdiv 10 := by
    rw [Int.tdiv_eq_ediv_of_nonneg (by omega)]
    omega
  refine lt_of_lt_of_le ?_ (le_max_left _ _)
  show 0 < (e * 7).tdiv 10 - ((0 : Nat) : Int)
  omega

/-- An open walk starts a unit that has its window, as nothing is committed. -/
theorem visit_starts {s : State} {e : Int} {n : Nat} (energy : 2 ≤ e)
    (room : ((s.pgh_ n).preempt && s.freeWindow.isNone && (s.ownWindow n false).isNone) = false) :
    ∃ h c u, Walk.visit e (startShare e 0) { st := s, h := e - (0 : Nat), c := 0, used := 0, started := [], ended := false } n
      = { st := s.startUnit n (s.nextRect n (s.pgh_ n) e), h := h, c := c, used := u, started := [n], ended := false } := by
  have share := startShare_open energy
  unfold Walk.visit
  dsimp only
  rw [if_neg (by decide), if_neg (show ¬ startShare e 0 ≤ ((0 : Nat) : Int) from not_le.mpr share), room, if_neg (by decide),
    if_pos (.inr ⟨rfl, rfl⟩)]
  exact ⟨_, _, _, rfl⟩

end Sys2Proof.Machine
end

section
/-! PROOFS. A start set with one pigeonhole that fits (R83, R201, R205, R212): the whole set, and what the drills' sweeps leave. -/

namespace Sys2Proof.Machine

/-! ### The set's starts -/

/-- What the set leaves: words and the pigeonholes' record, the set marked as done. -/
structure State.SetDone (s : State) (n : Nat) (p : Pgh) (t : State) (q : Pgh) : Prop where
  frame : t = { s with mem := t.mem, pgh := t.pgh, scan.startSetDone := true }
  pixels : t.mem.pixels = s.unitWritten p.rect p
  tab : t.pgh.tab = [(n, q)]
  state : if p.restate then q.state = .pending ∧ q.doneDue = true else q.state = .running

theorem State.StartsOne.used {s t : State} {n : Nat} {p q : Pgh} {r : Rect} (h : s.StartsOne n p r t q) : q ≠ Pgh.free := by
  have state := h.state
  refine state_ne_free (fun free => ?_)
  split at state
  · rw [state.1] at free
    cases free
  · rw [state] at free
    cases free

theorem walk_none (s : State) (e : Int) (c : Nat) : (s.walk e c []).st = s := by
  rw [State.walk, List.map_nil, List.mergeSort_nil]
  rfl

theorem walk_one (s : State) (e : Int) (c n : Nat) : s.walk e c [n]
    = Walk.visit e (startShare e c) { st := s, h := e - c, c := c, used := 0, started := [], ended := false } n := by
  rw [State.walk, List.map_singleton, List.mergeSort_singleton]
  rfl

/-- The set's end after a walk that has started all it met. -/
theorem ends_done {s : State} {w : Walk} {n : Nat} {p q : Pgh} (frame : w.st = { s with mem := w.st.mem, pgh := w.st.pgh })
    (pixels : w.st.mem.pixels = s.unitWritten p.rect p) (tab : w.st.pgh.tab = [(n, q)]) (host : isHost n = true) (used : q ≠ Pgh.free)
    (state : if p.restate then q.state = .pending ∧ q.doneDue = true else q.state = .running) (e : Int)
    {units : List Nat} (all : units.filter (fun n => !w.started.contains n) = []) : s.SetDone n p (w.ends e units) q := by
  obtain ⟨y, ended, endTab⟩ := ends_one tab host used e all
  rw [ended]
  refine ⟨?_, pixels, endTab, state⟩
  dsimp only
  rw [frame]

theorem fixOpen_of {s : State} {e : Int} {n : Nat} {q : Pgh} (host : isHost n = true) {l : List Nat} (cand : s.freed.candidates e = l)
    (tab : (s.freed.awaited e l).pgh.tab = [(n, q)]) : s.fixOpen e =
      (((s.freed.awaited e l).loaded e l).walk e (s.freed.awaited e l).committed l).ends e l := by
  obtain ⟨x, loaded, sameTab, -⟩ := loaded_pgh (s.freed.awaited e l) e l
  have hidden : ((s.freed.awaited e l).loaded e l).hiddenUnits = [] :=
    hiddenUnits_none (by rw [loaded]; exact sameTab.trans tab) host
  unfold State.fixOpen
  dsimp only
  rw [cand, hidden, List.append_nil]

theorem awaited_none (s : State) (e : Int) : s.awaited e [] = s := rfl

/-- An eligible update finds its window where it needs one (R203). -/
theorem eligible_room {s : State} {n : Nat} {p : Pgh} {r : Rect} (may : s.eligibleUnit n p r = true) (update : p.restate = false) :
    (p.preempt && s.freeWindow.isNone && (s.ownWindow n false).isNone) = false := by
  have last : (!p.preempt || p.restate || s.freeWindow.isSome || (s.ownWindow n false).isSome) = true :=
    (Bool.and_eq_true_iff.mp may).2
  rw [update, Bool.or_false] at last
  rw [← Option.not_isSome, ← Option.not_isSome]
  revert last
  cases p.preempt <;> cases s.freeWindow.isSome <;> cases (s.ownWindow n false).isSome <;> decide

theorem windows_of_sieve {s t : State} (sieve : t.pgh.sieve = s.pgh.sieve) : t.freeWindow = s.freeWindow
    ∧ ∀ n cancel, t.ownWindow n cancel = s.ownWindow n cancel := by
  unfold State.freeWindow State.ownWindow
  rw [sieve]
  exact ⟨rfl, fun _ _ => rfl⟩

section
variable {s : State} {n : Nat} {p : Pgh} (tab : s.pgh.tab = [(n, p)]) (host : isHost n = true)
  (sound : s.lostGroups (fun _ => true) = []) (waits : p.state = .pending) (area : p.rect.isEmpty = false)
  (may : s.eligibleUnit n p p.rect = true)
include tab host sound waits area may

/-- A restate starts before the walk, which finds nothing to start. -/
theorem fixOpen_restate (again : p.restate = true) (e : Int) : ∃ q, s.SetDone n p (s.fixOpen e) q := by
  obtain ⟨b, freed⟩ := freed_one tab host (pending_ne_free waits) area may
  rw [if_pos again] at freed
  have start := startUnit_restate (s := { s with pgh.budget := b }) tab host sound waits again p.rect
  rw [← freed] at start
  have none_ : s.freed.candidates e = [] := by
    rw [State.candidates, pghWhere_only start.tab, start.restate, again]
    rfl
  obtain ⟨x, loaded, sameTab, -⟩ := loaded_pgh s.freed e []
  have whole := fixOpen_of host none_ (by rw [awaited_none]; exact start.tab)
  rw [awaited_none] at whole
  have ran := walk_none (s.freed.loaded e []) e s.freed.committed
  rw [loaded] at ran
  have frame := start.frame
  rw [whole, loaded]
  refine ⟨p.restated, ends_done ?_ ?_ ?_ host start.used start.state e rfl⟩
  · rw [ran]
    generalize s.freed = u at frame
    rw [frame]
  · rw [ran]
    exact start.pixels
  · rw [ran]
    exact sameTab.trans start.tab

/-- An update starts in the walk. -/
theorem fixOpen_update (unsplit : p.split = false) (fresh : p.units = []) (update : p.restate = false) {e : Int} (energy : 2 ≤ e)
    (fits : (s.forecast n p p.rect : Int) ≤ e) : ∃ q, s.SetDone n p (s.fixOpen e) q := by
  obtain ⟨b, freed⟩ := freed_one tab host (pending_ne_free waits) area may
  rw [if_neg (by rw [update]; decide)] at freed
  have cand : s.freed.candidates e = [n] := by
    have eligible : ({ s with pgh.budget := b } : State).eligibleHost e n p = true := by
      rw [State.eligibleHost, State.nextRect, unsplit]
      exact may
    rw [freed, State.candidates, pghWhere_only (s := { s with pgh.budget := b }) tab, update, eligible]
    rfl
  obtain ⟨p3, hp3⟩ : ∃ x, x = ({ s with pgh.budget := b } : State).counts e n p := ⟨_, rfl⟩
  have state3 : p3.state = .pending := by rw [hp3]; exact waits
  have split3 : p3.split = false := by
    rw [hp3]
    show (p.split || (p.state == .pending && decide (e < (s.forecast n p p.rect : Int)))) = false
    rw [unsplit, decide_eq_false (not_lt.mpr fits), Bool.and_false]
    rfl
  have restate3 : p3.restate = p.restate := by rw [hp3]; rfl
  have rect3 : p3.rect = p.rect := by rw [hp3]; rfl
  have units3 : p3.units = [] := by rw [hp3]; exact fresh
  have counted : s.freed.awaited e [n] = ({ s with pgh.budget := b } : State).setPgh n p3 := by
    rw [freed, hp3]
    show ({ s with pgh.budget := b } : State).setPgh n (({ s with pgh.budget := b } : State).counts e n (s.pgh_ n)) = _
    rw [only_entry tab]
  have tab3 : (s.freed.awaited e [n]).pgh.tab = [(n, p3)] := by
    rw [counted]
    exact setPgh_only (s := { s with pgh.budget := b }) tab (pending_ne_free state3)
  have committed : (s.freed.awaited e [n]).committed = 0 := by
    rw [committed_only tab3 (host_not_hidden host).2, Pgh.commitment, units3]
    rfl
  obtain ⟨x, loaded, sameTab, sieve⟩ := loaded_pgh (s.freed.awaited e [n]) e [n]
  have whole := fixOpen_of host cand tab3
  rw [committed, walk_one] at whole
  have frame4 : ∃ y, (s.freed.awaited e [n]).loaded e [n] = { s with pgh := y } ∧ y.tab = [(n, p3)] ∧ y.sieve = s.pgh.sieve := by
    refine ⟨x, ?_, sameTab.trans tab3, ?_⟩
    · rw [loaded, counted]
      rfl
    · rw [sieve, counted]
      rfl
  obtain ⟨y, frame4, tab4, sieve4⟩ := frame4
  rw [frame4] at whole
  obtain ⟨free, own⟩ := windows_of_sieve (s := s) (t := { s with pgh := y }) sieve4
  have entry4 : ({ s with pgh := y } : State).pgh_ n = p3 := only_entry tab4
  have rect4 : ({ s with pgh := y } : State).nextRect n p3 e = p.rect := by
    rw [State.nextRect, split3, rect3]
    rfl
  have room : ((({ s with pgh := y } : State).pgh_ n).preempt && ({ s with pgh := y } : State).freeWindow.isNone
      && (({ s with pgh := y } : State).ownWindow n false).isNone) = false := by
    rw [entry4, free, own, hp3]
    exact eligible_room may update
  obtain ⟨h, c, u, visited⟩ := visit_starts (s := { s with pgh := y }) (n := n) energy room
  rw [visited, entry4, rect4] at whole
  obtain ⟨q, start⟩ := startUnit_update (s := { s with pgh := y }) tab4 host sound split3 (restate3.trans update) p.rect
  have started := start.frame
  have state := start.state
  rw [restate3] at state
  have written : ({ s with pgh := y } : State).unitWritten p.rect p3 = s.unitWritten p.rect p := by
    rw [hp3]
    rfl
  rw [whole]
  refine ⟨q, ends_done ?_ (start.pixels.trans written) start.tab host start.used state e ?_⟩
  · dsimp only
    generalize State.startUnit { s with pgh := y } n p.rect = t at started
    rw [started]
  · simp
end

end Sys2Proof.Machine
end

section
/-! PROOFS. A start set with one pigeonhole that fits: what follows its starts, and the claim (R28, R83, R201, R205, R212, R246). -/

namespace Sys2Proof.Machine

/-! ### The drills' sweeps (R246 to R249) -/

/-- From s to t only what the sweeps change does: drills, counts, corrected groups and the bits just set. -/
def State.Swept (s t : State) : Prop :=
  t = { s with
    drills := t.drills, mem := { s.mem with flips := t.mem.flips, secCnt := t.mem.secCnt }, ledger := t.ledger, acc.hwSet := t.acc.hwSet }

theorem State.Swept.refl (s : State) : s.Swept s := rfl

theorem State.Swept.trans {s t u : State} (h : s.Swept t) (g : t.Swept u) : s.Swept u := by
  unfold State.Swept at *
  rw [h] at g
  exact g

theorem modDrill_swept (s : State) (d : Nat) (f : Drill → Drill) : s.Swept (s.modDrill d f) := rfl

theorem mend_swept (s : State) (f : Nat → Bool) : s.Swept (s.mend f) := rfl

theorem hwSet_swept (s : State) (a n : Nat) : s.Swept (s.hwSet a n) := rfl

theorem offered_swept (s : State) (full now : Bool) (offers : List Offer) :
    s.Swept { (if full then s.hwSet 0xA00 4 else s) with ledger.deferFull := now, drills.offers := offers } := by
  cases full with
  | true => exact (hwSet_swept s 0xA00 4).trans rfl
  | false => rfl

theorem sweepDrill_swept (s : State) (comp : Bool) (d : Nat) : s.Swept (s.sweepDrill comp d) := by
  unfold State.sweepDrill
  dsimp only
  exact ((modDrill_swept s d _).trans (mend_swept _ _)).trans (offered_swept _ _ _ _)

theorem sweepAll_swept (s : State) : s.Swept s.sweepAll := by
  unfold State.sweepAll
  dsimp only
  split
  · exact State.Swept.refl s
  · refine foldl_related State.Swept State.Swept.refl (fun h g => h.trans g) _ (fun t d => ?_) _ s
    split
    · exact State.Swept.refl t
    · exact sweepDrill_swept t _ d

/-- Kept payloads settled: an entry's state stays. -/
theorem settleKept_one {s : State} {n : Nat} {q : Pgh} (tab : s.pgh.tab = [(n, q)]) (used : q.state ≠ .free) :
    ∃ q', s.settleKept.pgh.tab = [(n, q')] ∧ q'.state = q.state ∧ q'.doneDue = q.doneDue := by
  have same : (if q.freeWaits && !s.referred n then q.dropKept else q).state = q.state
      ∧ (if q.freeWaits && !s.referred n then q.dropKept else q).doneDue = q.doneDue := by
    split
    · unfold Pgh.dropKept
      split <;> exact ⟨rfl, rfl⟩
    · exact ⟨rfl, rfl⟩
  refine ⟨_, mapPgh_only tab (state_ne_free ?_), same⟩
  rw [same.1]
  exact used

/-! ### The set as a command -/

/-- The memories as the set finds them. -/
def State.setFound (s : State) (i : StartInput) : State :=
  ((s.reach (s.scan.boundaryAt + 10240)).flipBits i.flips).flipCells i.ledgerFlips

theorem setFound_eq (s : State) (i : StartInput) : ∃ m, s.setFound i = { s with now := max s.now (s.scan.boundaryAt + 10240), mem := m }
    ∧ m.pixels = (s.flipBits i.flips).mem.pixels ∧ m.flips = (s.flipBits i.flips).mem.flips := by
  have only := flipBits_only (s.reach (s.scan.boundaryAt + 10240)) i.flips
  have same := flipBits_mem_congr (s := s) (t := s.reach (s.scan.boundaryAt + 10240)) rfl i.flips
  unfold State.setFound
  rw [← same]
  generalize (s.reach (s.scan.boundaryAt + 10240)).flipBits i.flips = u at only
  have frame : u = { s with now := max s.now (s.scan.boundaryAt + 10240), mem := u.mem } := by
    rw [only]
    rfl
  unfold State.flipCells
  generalize List.foldl _ u.mem.ledgerFlip i.ledgerFlips = x
  refine ⟨{ u.mem with ledgerFlip := x }, ?_, rfl, rfl⟩
  rw [frame]

theorem startSet_eq {s : State} (i : StartInput) (scans : s.scan.scanning = true) (first : s.scan.startSetDone = false)
    (early : s.scan.slot ≤ 32) : s.startSet i
      = (((s.setFound i).fixStarts.lastDouble ((s.setFound i).lostGroups (fun _ => true))).settleKept).sweepAll :=
  if_pos ⟨scans, by rw [first]; decide, early⟩

theorem lastDouble_none (s : State) : s.lastDouble [] = s := rfl

/-- What R202 asks of an eligible unit, as its start uses it. -/
theorem eligibleUnit_parts {s : State} {n : Nat} {p : Pgh} {r : Rect} (may : s.eligibleUnit n p r = true) :
    isHost n = true ∧ p.rect.isEmpty = false := by
  unfold State.eligibleUnit at may
  simp only [Bool.and_eq_true, Bool.not_eq_true'] at may
  obtain ⟨⟨⟨⟨⟨⟨⟨⟨host, -⟩, -⟩, -⟩, area⟩, -⟩, -⟩, -⟩, -⟩ := may
  exact ⟨host, area⟩

/-- The starts of the set, whatever the one pigeonhole's letter. -/
theorem fixStarts_one {s : State} {n : Nat} {p : Pgh} (tab : s.pgh.tab = [(n, p)]) (sound : s.lostGroups (fun _ => true) = [])
    (waits : p.state = .pending) (unsplit : p.split = false) (fresh : p.units = [])
    (may : s.eligibleUnit n p p.rect = true) (energy : 2 ≤ s.openEnergy (s.frameBudget s.workingBudget))
    (fits : (s.forecast n p p.rect : Int) ≤ s.openEnergy (s.frameBudget s.workingBudget)) : ∃ q, s.SetDone n p s.fixStarts q := by
  obtain ⟨host, area⟩ := eligibleUnit_parts may
  rw [fixStarts_eq, startSetZero_none tab host]
  generalize s.openEnergy (s.frameBudget s.workingBudget) = e at energy fits
  cases restate : p.restate with
  | true => exact fixOpen_restate tab host sound waits area may restate e
  | false => exact fixOpen_update tab host sound waits area may unsplit fresh restate energy fits

/-- Settles O30: the one pigeonhole starts, a restate at once, an update in the walk; what follows keeps its state and the words. -/
theorem startSetStarts : Obligations.StartSetStarts := by
  intro s i n p ok scans first early sound tab waits unsplit fresh e may energy fits
  obtain ⟨m, found, pixels, flips⟩ := setFound_eq s i
  have runs := startSet_eq i scans first early
  have soundFound : (s.setFound i).lostGroups (fun _ => true) = [] := by
    refine (lostGroups_store ?_ ?_ ?_ _).trans sound
    · rw [found]; exact pixels
    · rw [found]; exact flips
    · rw [found, flipBits_only s i.flips]
  have rect : s.nextRect n p e = p.rect := by
    rw [State.nextRect, unsplit]
    rfl
  rw [State.eligibleHost, rect] at may
  rw [soundFound, lastDouble_none, found] at runs
  rw [found] at soundFound
  obtain ⟨q, set⟩ := fixStarts_one (s := { s with now := max s.now (s.scan.boundaryAt + 10240), mem := m }) tab soundFound waits unsplit
    fresh may energy fits
  obtain ⟨frame, words, tabSet, state⟩ := set
  have used : q.state ≠ .free := by
    split at state
    · rw [state.1]; decide
    · rw [state]; decide
  have swf0 : swf unknownWord m.pixels = true := by rw [pixels]; exact (flipBits_ok i.flips ok).1
  generalize State.fixStarts { s with now := max s.now (s.scan.boundaryAt + 10240), mem := m } = u at runs frame words tabSet
  obtain ⟨q', tabKept, sameState, sameDue⟩ := settleKept_one tabSet used
  have swept := sweepAll_swept u.settleKept
  refine ⟨_, congrArg Host.Outcome.next runs, ?_⟩
  generalize u.settleKept.sweepAll = t at swept
  have now : t.now = u.now := by rw [swept]; rfl
  have scan : t.scan = u.scan := by rw [swept]; rfl
  have entry : t.pgh_ n = q' := only_entry (by rw [swept]; exact tabKept)
  have stored : t.mem.pixels = u.mem.pixels := by rw [swept]; rfl
  rw [now, scan, entry, stored, words, sameState, sameDue, frame]
  refine ⟨rfl, rfl, rfl, state, fun row col small => ?_⟩
  have word := unitWritten_word (s := { s with now := max s.now (s.scan.boundaryAt + 10240), mem := m }) swf0 p.rect p (row := row) small
  refine word.trans ?_
  show (let w := sget unknownWord m.pixels (pixelKey row col)
    if p.rect.has row col = true ∧ s.inWindow row col = false ∧ (pixelOf w).active = false then _ else _) = _
  rw [pixels] <;> rfl

end Sys2Proof.Machine
end

section
/-! PROOFS. What a frame boundary leaves standing, and the end of the frame behind it (R28, R207, R219, R239, R250, R281). -/

namespace Sys2Proof.Machine

/-! ### What stands over a boundary's steps -/

/-- The parts of the state that a boundary's claims speak of, and those that its next steps read. -/
structure Standing where
  now : Nat
  pixels : SMap PixelWord
  cells : SMap LedgerWord
  otp : OtpState
  acc : AccessState
  up : UpState
  rtc : RtcState
  strap : StrapState
  words : TimingWords
  vcom : Vector VcomCh 8
  vcomEn : Word
  trim : Vector Int 8
  trimNow : Vector Int 8
  trimAt : Vector Nat 8
  trimWas : Vector Int 8
  acted : BitVec 9
  railStep : Nat
  run : PlanRun
  ctl : Word
  diode : Vector Diode 6
  wbud : Nat
  injecting : List (Nat × Nat)
  st : PwrSt
  change : Option Bool
  scan : ScanState
  image : Option (Array Byte)
  wordsDue : Bool
  drill : Vector Drill 14
  swap : Option Nat

/-- The scan's record without its grids and the records of the frame behind. -/
def ScanState.bare (c : ScanState) : ScanState :=
  { c with gridFrom := 0, auxGridFrom := 0, pwmFreeFrom := 0, cleanLast := false, cancelAll := false, rbFailed := 0 }

def State.standing (s : State) : Standing :=
  { now := s.now, pixels := s.mem.pixels, cells := s.mem.ledger, otp := s.otp, acc := { s.acc with hwSet := [] }
    up := { s.up with stores := Vector.replicate 16 Store.clear }, rtc := { s.rtc with quietAt := 0 }, strap := s.strap
    words := s.panel.words, vcom := s.panel.vcom, vcomEn := s.panel.vcomEn, trim := s.tree.trim, trimNow := s.tree.trimNow
    trimAt := s.tree.trimAt, trimWas := s.tree.trimWas, acted := s.seq.acted, railStep := s.seq.railStep, run := s.seq.run
    ctl := s.therm.ctl, diode := s.therm.diode, wbud := s.therm.wbudNow, injecting := s.flt.injecting, st := s.pwr.st
    change := s.pwr.change, scan := s.scan.bare, image := s.alm.image, wordsDue := s.alm.wordsDue, drill := s.drills.drill
    swap := s.drills.swap }

/-- Nothing of that changes from s to t. -/
def State.Stands (s t : State) : Prop := t.standing = s.standing

theorem State.Stands.refl (s : State) : s.Stands s := rfl
theorem State.Stands.trans {s t u : State} (h : s.Stands t) (g : t.Stands u) : s.Stands u := Eq.trans g h

theorem foldl_stands {α : Type} (f : State → α → State) (step : ∀ (t : State) (x : α), t.Stands (f t x)) (l : List α) (s : State) :
    s.Stands (l.foldl f s) :=
  foldl_related State.Stands State.Stands.refl (fun h g => h.trans g) f step l s

/-! #### A note raised -/

theorem State.Marked.stands {s t : State} (h : s.Marked t) (bak : t.rtc = s.rtc) : s.Stands t := by
  unfold State.Stands
  have rtc : ({ t.rtc with quietAt := 0 } : RtcState) = { s.rtc with quietAt := 0 } := by rw [bak]
  unfold State.standing
  rw [rtc, h]

/-- A fault of a low number whose reaction stops nothing. -/
def mildFault (n : Nat) : Prop := n < 64 ∧ (faultReaction n = .note ∨ faultReaction n = .ease)

theorem raise_stands (s : State) {n : Nat} (mild : mildFault n) : s.Stands (s.raise n) := by
  refine (raise_mild_marked mild.2).stands ?_
  by_cases quiet : n < 96 ∧ s.recording = false
  · rw [State.raise, raiseAs_silent _ quiet.1 quiet.2]
  · rw [raise_mild mild.2 fun low => by simpa using fun h => quiet ⟨low, h⟩]
    exact setSticky_rtc s mild.1

theorem raiseAll_stands (s : State) {l : List Nat} (mild : ∀ n ∈ l, mildFault n) : s.Stands (s.raiseAll l) := by
  have each (m : List Nat) (fine : ∀ n ∈ m, mildFault n) (t : State) : t.Stands (m.foldl State.raise t) := by
    induction m generalizing t with
    | nil => exact State.Stands.refl t
    | cons n m ih =>
      exact (raise_stands t (fine n (List.mem_cons_self ..))).trans (ih (fun k listed => fine k (List.mem_cons_of_mem _ listed)) _)
  exact each _ (fun n listed => mild n (List.mem_mergeSort.mp listed)) s

theorem redetect_stands (s : State) {n : Nat} (low : n < 64) (present : Bool) : s.Stands (s.redetect n present) := by
  refine (redetect_marked s n present).stands ?_
  unfold State.redetect
  split
  · exact setSticky_rtc s low
  · rfl

theorem attnArises_stands (s : State) (k : Nat) : s.Stands (s.attnArises k) := by
  unfold State.attnArises
  split <;> rfl

/-! ### The end of a frame -/

theorem freeGrids_stands (s : State) : s.Stands s.freeGrids := by
  unfold State.freeGrids
  split <;> rfl

theorem latchCharge_stands (s : State) : s.Stands s.latchCharge := by
  have frame := latchCharge_eq s
  generalize s.latchCharge = t at frame ⊢
  rw [frame]
  rfl

theorem frameEnergy_stands (s : State) : s.Stands s.frameEnergy :=
  (latchCharge_stands s).trans rfl

theorem mild_if {c : Prop} [Decidable c] {a : Nat} (mild : mildFault a) : ∀ n ∈ (if c then [a] else []), mildFault n := by
  intro n listed
  split at listed
  · rw [List.mem_singleton.mp listed]
    exact mild
  · cases listed

theorem mild_unless {c : Prop} [Decidable c] {a : Nat} (mild : mildFault a) : ∀ n ∈ (if c then [] else [a]), mildFault n := by
  intro n listed
  split at listed
  · cases listed
  · rw [List.mem_singleton.mp listed]
    exact mild

theorem mild_append {l m : List Nat} (first : ∀ n ∈ l, mildFault n) (second : ∀ n ∈ m, mildFault n) : ∀ n ∈ l ++ m, mildFault n :=
  fun n listed => (List.mem_append.mp listed).elim (first n) (second n)

theorem residualChecks_stands (s : State) : s.Stands s.residualChecks := by
  unfold State.residualChecks
  split
  · exact State.Stands.refl s
  · dsimp only
    refine State.Stands.trans ?_ (raiseAll_stands _ (mild_append (mild_unless ⟨by decide, by decide⟩) (mild_if ⟨by decide, by decide⟩)))
    rfl

/-! #### Completion, pigeonhole 0, readback and hidden units -/

theorem State.pghOnly.stands {s t : State} (h : s.pghOnly t) (acc : ({ t.acc with hwSet := [] } : AccessState) = { s.acc with hwSet := [] }) :
    s.Stands t := by
  unfold State.Stands State.standing
  rw [acc, h]

theorem reachDone_stands (s : State) (n : Nat) : s.Stands (s.reachDone n) := by
  unfold State.reachDone
  dsimp only
  split <;> rfl

theorem placeCancel_stands (s : State) (n : Nat) : s.Stands (s.placeCancel n) := by
  unfold State.placeCancel
  dsimp only
  split <;> rfl

theorem placeCancels_stands (s : State) : s.Stands s.placeCancels := by
  unfold State.placeCancels
  refine foldl_stands _ (fun t n => ?_) _ s
  split
  · exact placeCancel_stands t n
  · exact State.Stands.refl t

theorem freeHidden_stands (s : State) : s.Stands s.freeHidden :=
  State.Stands.trans (foldl_stands (fun (t : State) n => t.setPgh n Pgh.free) (fun _ _ => rfl) _ s) rfl

theorem complete_stands (s : State) : s.Stands s.complete := by
  unfold State.complete
  dsimp only
  have marked : s.Stands s.markLost.markComplete := rfl
  have settled (t : State) : t.Stands t.settleKept := rfl
  exact (((marked.trans (foldl_stands _ reachDone_stands _ _)).trans (freeHidden_stands _)).trans (settled _)).trans (placeCancels_stands _)

theorem flagRw_stands (s : State) (k : Nat) : s.Stands (s.flagRw k) := by
  unfold State.flagRw
  split
  · exact (attnArises_stands s 2).trans rfl
  · rfl

theorem zeroDone_stands (s : State) : s.Stands s.zeroDone := by
  have flagged : s.Stands (if s.rw.changeDue then { s.flagRw 0 with rw.changeDue := false } else s) := by
    split
    · exact (flagRw_stands s 0).trans rfl
    · exact State.Stands.refl s
  have drawn (t : State) : t.Stands (if s.rw.redraw.drawn then { t with rw.redraw.drawn := false, rw.rbDoneAt := some s.scan.frame } else t) := by
    split <;> rfl
  have rest (t : State) (b : Bool) : t.Stands (match ({ t with rtc.quietAt := s.now } : State).rw.waitingMap with
      | some m => State.fillZero { t with
          rtc.quietAt := s.now, rw.waitingMap := none, rw.redraw := { t.rw.redraw with filled := b, waiting := false } } m
      | none => { t with rtc.quietAt := s.now }) := by
    split <;> rfl
  unfold State.zeroDone
  exact (flagged.trans (drawn _)).trans (rest _ _)

theorem State.Drew.stands {s t : State} (h : s.Drew t) : s.Stands t := by
  rw [h]
  rfl

theorem readbackBoundary_stands (s : State) : s.Stands s.readbackBoundary := by
  unfold State.readbackBoundary
  split
  · dsimp only
    have counted (r d : Nat) (a : Option Word) : s.Stands (State.raise { s.flagRw 2 with
        rw.rbFrames := sat16 s.rw.rbFrames 1, rw.rbLast := s.readbackCount, rw.rbRun := r, rw.rbDoneAt := a, free := d } fltRwReadback) :=
      ((flagRw_stands s 2).trans rfl).trans (raise_stands _ ⟨by decide, by decide⟩)
    have stuck (t : State) (p : Prop) [Decidable p] : t.Stands (if p then State.raise { t with rw.stuck := true } fltRwStuck else t) := by
      split
      · exact State.Stands.trans (t := { t with rw.stuck := true }) rfl (raise_stands _ ⟨by decide, by decide⟩)
      · exact State.Stands.refl t
    have again (t : State) : t.Stands (if t.rw.stuck then t else State.typesetFor { t with rw.rbRedraws := sat16 t.rw.rbRedraws 1 } true) := by
      split
      · exact State.Stands.refl t
      · exact State.Stands.trans (t := { t with rw.rbRedraws := sat16 t.rw.rbRedraws 1 }) rfl (typesetFor_drew _ true).stands
    exact ((counted _ _ _).trans (stuck _ _)).trans (again _)
  · exact State.Stands.refl s

theorem fillHidden_stands (s : State) (o : Offer) : s.Stands (s.fillHidden o) := by
  unfold State.fillHidden
  split <;> rfl

theorem fillAll_stands (s : State) : s.Stands s.fillAll :=
  State.Stands.trans (t := { s with drills.offers := [] }) rfl (foldl_stands _ fillHidden_stands _ _)

/-- The frame behind has ended: of what stands only the list of lost groups is emptied. -/
def Standing.frameEnded (x : Standing) : Standing := { x with scan := { x.scan with lost := [] } }

theorem endFrame_standing (s : State) : s.endFrame.standing = s.standing.frameEnded := by
  have priced : s.Stands s.frameEnergy.residualChecks := (frameEnergy_stands s).trans (residualChecks_stands _)
  have over_ (t : State) (b : Bool) : ({ t with scan.cleanLast := b, scan.cancelAll := false, scan.lost := [] } : State).standing
      = t.standing.frameEnded := rfl
  have zero (t : State) (p : Prop) [Decidable p] : t.Stands (if p then t.zeroDone else t) := by
    split
    · exact zeroDone_stands t
    · exact State.Stands.refl t
  unfold State.endFrame
  dsimp only
  split
  · exact congrArg Standing.frameEnded priced
  · have filled := (readbackBoundary_stands _).trans (fillAll_stands
      (State.readbackBoundary { (if (s.frameEnergy.residualChecks.pgh_ 0).state = .running ∧ (s.frameEnergy.residualChecks.complete.pgh_ 0).state = .done then
        s.frameEnergy.residualChecks.complete.zeroDone else s.frameEnergy.residualChecks.complete) with
        scan.cleanLast := s.frameClean, scan.cancelAll := false, scan.lost := [] }))
    refine Eq.trans filled ?_
    rw [over_]
    exact congrArg Standing.frameEnded ((priced.trans (complete_stands _)).trans (zero _ _))

end Sys2Proof.Machine
end

section
/-! PROOFS. Field trims and the drills' steps at a boundary (R119, R144 to R148, R157, R309, R327). -/

namespace Sys2Proof.Machine

/-! ### Field trims of the rails -/

theorem applyTrims_standing (s : State) : s.applyTrims.standing = { s.standing with trimNow := s.applyTrims.tree.trimNow } := rfl

/-- A raised rail takes its trim, the others keep theirs (R309, R327). -/
theorem applyTrims_trim (s : State) {k : Nat} (small : k < 8) : vget s.applyTrims.tree.trimNow k
    = if s.enabled k = false then vget s.tree.trimNow k else s.trimTaken k := by
  have mapped : vget s.applyTrims.tree.trimNow k
      = if (s.enabled k && !(vget s.tree.trimNow k == s.trimTaken k)) = true then s.trimTaken k else vget s.tree.trimNow k :=
    vget_vmapIdx _ _ small
  rw [mapped]
  cases s.enabled k with
  | false => rfl
  | true =>
    rw [Bool.true_and, if_neg (show ¬ true = false by decide)]
    by_cases same : vget s.tree.trimNow k = s.trimTaken k
    · rw [same, ite_self]
    · rw [if_pos (by rw [Bool.not_eq_true', beq_eq_false_iff_ne]; exact same)]

/-! ### The drills' steps -/

/-- From s to t only the drills change of what stands, and every ACTIVE drill stays so. -/
structure State.Drilled (s t : State) : Prop where
  standing : t.standing = { s.standing with drill := t.drills.drill }
  active : ∀ i, i < 14 → (vget s.drills.drill i).role = .active → (vget t.drills.drill i).role = .active

theorem State.Drilled.refl (s : State) : s.Drilled s := ⟨rfl, fun _ _ h => h⟩

theorem State.Drilled.trans {s t u : State} (h : s.Drilled t) (g : t.Drilled u) : s.Drilled u :=
  ⟨by rw [g.standing, h.standing], fun i small up => g.active i small (h.active i small up)⟩

theorem mapDrills_drilled (s : State) {f : Nat → Drill → Drill} (keeps : ∀ i d, d.role = .active → (f i d).role = .active) :
    s.Drilled (s.mapDrills f) := by
  refine ⟨rfl, fun i small up => ?_⟩
  show (vget (vmapIdx f s.drills.drill) i).role = .active
  rw [vget_vmapIdx _ _ small]
  exact keeps _ _ up

theorem beginTest_drilled (s : State) {i : Nat} (idle : (vget s.drills.drill i).role ≠ .active) (r : DrillRole) (t : Nat) :
    s.Drilled (s.beginTest i r t) := by
  refine ⟨rfl, fun j small up => ?_⟩
  have other : j ≠ i := fun same => idle (same ▸ up)
  refine Eq.trans ?_ up
  exact congrArg Drill.role (vget_vmod_other _ _ other)

theorem beginTest_role (s : State) {i j : Nat} (small : j < 14) (held : (vget s.drills.drill j).role = .quarantined) (t : Nat) :
    (vget (s.beginTest i .quarantined t).drills.drill j).role = .quarantined := by
  by_cases same : j = i
  · rw [← same]
    exact congrArg Drill.role (vget_vmod_self _ _ small)
  · exact (congrArg Drill.role (vget_vmod_other _ _ same)).trans held

/-- Quarantined drills that begin their test again take no slot away. -/
theorem restartTests_drilled (s : State) : s.Drilled s.restartTests := by
  have each (l : List Nat) (t : State) (held : ∀ i ∈ l, i < 14 ∧ (vget t.drills.drill i).role = .quarantined) :
      t.Drilled (l.foldl (fun (t : State) i => t.beginTest i .quarantined t.now) t) := by
    induction l generalizing t with
    | nil => exact State.Drilled.refl t
    | cons i l ih =>
      obtain ⟨-, here⟩ := held i (List.mem_cons_self ..)
      refine (beginTest_drilled t (by rw [here]; decide) _ _).trans (ih _ (fun j listed => ?_))
      obtain ⟨small, there⟩ := held j (List.mem_cons_of_mem _ listed)
      exact ⟨small, beginTest_role t small there _⟩
  refine each _ s (fun i listed => ?_)
  obtain ⟨listed, -⟩ := List.mem_filter.mp listed
  obtain ⟨small, role⟩ := List.mem_filter.mp listed
  exact ⟨List.mem_range.mp small, eq_of_beq role⟩

theorem active_if {p : Prop} [Decidable p] {d e : Drill} (up : d.role = .active) (new : e.role = .active) :
    (if p then e else d).role = .active := by
  split
  · exact new
  · exact up

theorem giveSlots_drilled (s : State) (l : List Nat) : s.Drilled (s.giveSlots l) :=
  mapDrills_drilled s (fun _ _ up => active_if up rfl)

theorem doGrow_drilled (s : State) : s.Drilled s.doGrow := by
  unfold State.doGrow
  dsimp only
  split
  · exact State.Drilled.refl s
  · exact (mapDrills_drilled s (fun _ _ up => active_if up rfl)).trans (giveSlots_drilled _ _)

theorem giveBanks_drilled (s : State) (bump : Bool) : s.Drilled (s.giveBanks bump) :=
  ⟨rfl, fun _ small up => (giveBanks_drill s bump small).1.trans up⟩

theorem sumTo_le {f g : Nat → Nat} : ∀ {n : Nat}, (∀ i, i < n → f i ≤ g i) → sumTo n f ≤ sumTo n g
  | 0, _ => le_rfl
  | n + 1, below => by
    have rest := sumTo_le (n := n) (fun i small => below i (by omega))
    have last := below n (by omega)
    have split (h : Nat → Nat) : sumTo (n + 1) h = sumTo n h + h n := by
      rw [sumTo, List.range_succ, List.foldl_append]
      rfl
    rw [split, split]
    omega

theorem State.Drilled.aNow {s t : State} (h : s.Drilled t) : s.aNow ≤ t.aNow := by
  unfold State.aNow State.drillCount
  refine sumTo_le (fun i small => ?_)
  unfold State.drillIs
  by_cases up : (vget s.drills.drill i).role = .active
  · rw [up, h.active i small up]
  · rw [if_neg (by rw [beq_iff_eq]; exact up)]
    exact Nat.zero_le _

theorem aNow_le (s : State) : s.aNow ≤ 14 := by
  unfold State.aNow State.drillCount
  have most : sumTo 14 (fun i => if s.drillIs i .active then 1 else 0) ≤ sumTo 14 (fun _ => 1) := by
    refine sumTo_le (fun i _ => ?_)
    split
    · exact le_rfl
    · exact Nat.zero_le _
  have all : sumTo 14 (fun _ => 1) = 14 := by decide
  rw [all] at most
  exact most

/-- With no drill dead and no test waiting the boundary's steps take no slot away, and raise nothing (R144, R148). -/
theorem drillBoundary_drilled {s : State} (keeps : s.drillsKeep = true) : s.Drilled s.drillBoundary := by
  obtain ⟨sound, idle⟩ := Bool.and_eq_true_iff.mp keeps
  have none_ : s.drills.swap = none := Option.isNone_iff_eq_none.mp idle
  have dead : (List.range 14).filter (fun i => (vget s.drills.drill i).fenced) = [] := by
    rw [List.filter_eq_nil_iff]
    intro i listed up
    rw [Bool.not_eq_true'] at sound
    have all := List.any_eq_false.mp sound i listed
    exact all up
  have noSwap : s.swapTo = none := by rw [State.swapTo, none_]
  have swapped : s.doSwap = s := by rw [State.doSwap, noSwap, none_]; rfl
  have grown : s.Drilled s.restartTests.doGrow := (restartTests_drilled s).trans (doGrow_drilled _)
  have given := grown.trans (giveBanks_drilled s.restartTests.doGrow true)
  unfold State.drillBoundary
  dsimp only
  rw [dead, List.foldl_nil, swapped]
  split
  · exact grown
  · rw [if_neg]
    · exact given
    · rw [decide_eq_false (not_lt.mpr given.aNow), Bool.false_and]
      decide

end Sys2Proof.Machine
end

section
/-! PROOFS. Between two frames, and the thermal step at a boundary (R28, R229 to R238). -/

namespace Sys2Proof.Machine

/-! ### Between the frames -/

/-- The frame behind ended, trims taken, the scan to start. -/
def State.frameClosed (s : State) : State :=
  { s.freeGrids.endFrame.applyTrims with scan.scanning := false, scan.startDue := some s.freeGrids.endFrame.applyTrims.now }

theorem betweenFrames_eq (s : State) : s.betweenFrames = s.frameClosed.drillBoundary := rfl

theorem frameClosed_standing (s : State) : s.frameClosed.standing = { s.standing with
    scan := { s.scan.bare with lost := [], scanning := false, startDue := some s.now }, trimNow := s.frameClosed.tree.trimNow } := by
  have ended : s.freeGrids.endFrame.standing = s.standing.frameEnded := by
    rw [endFrame_standing, freeGrids_stands s]
  have now : s.freeGrids.endFrame.now = s.now := congrArg Standing.now ended
  have scan : s.freeGrids.endFrame.scan.bare = { s.scan.bare with lost := [] } := congrArg Standing.scan ended
  have closed : s.frameClosed.standing = { s.freeGrids.endFrame.standing with
      scan := { s.freeGrids.endFrame.scan.bare with scanning := false, startDue := some s.freeGrids.endFrame.now }
      trimNow := s.frameClosed.tree.trimNow } := rfl
  rw [closed, scan, now, ended]
  rfl

/-- What stands between the frames. -/
structure State.Between (s t : State) : Prop where
  standing : t.standing = { s.standing with
    scan := { s.scan.bare with lost := [], scanning := false, startDue := some s.now }, trimNow := t.tree.trimNow
    drill := t.drills.drill }
  trim : ∀ k, k < 8 → vget t.tree.trimNow k = if s.enabled k = false then vget s.tree.trimNow k
    else if vget s.tree.trimAt k < s.now then vget s.tree.trim k else vget s.tree.trimWas k
  count : s.aNow ≤ t.aNow

theorem betweenFrames_between {s : State} (keeps : s.drillsKeep = true) : s.Between s.betweenFrames := by
  have closed := frameClosed_standing s
  have drill : s.frameClosed.drills.drill = s.drills.drill := congrArg Standing.drill closed
  have swap : s.frameClosed.drills.swap = s.drills.swap := congrArg Standing.swap closed
  have kept : s.frameClosed.drillsKeep = true := by
    unfold State.drillsKeep State.anyFenced at *
    rw [drill, swap]
    exact keeps
  have drilled := drillBoundary_drilled kept
  have ended : s.freeGrids.endFrame.standing = s.standing.frameEnded := by
    rw [endFrame_standing, freeGrids_stands s]
  rw [betweenFrames_eq]
  have trims : s.frameClosed.drillBoundary.tree.trimNow = s.freeGrids.endFrame.applyTrims.tree.trimNow :=
    congrArg Standing.trimNow drilled.standing
  refine ⟨?_, fun k small => ?_, ?_⟩
  · rw [drilled.standing, closed]
    have same : s.frameClosed.drillBoundary.tree.trimNow = s.frameClosed.tree.trimNow := congrArg Standing.trimNow drilled.standing
    rw [same]
  · have acted : s.freeGrids.endFrame.seq.acted = s.seq.acted := congrArg Standing.acted ended
    have now : s.freeGrids.endFrame.now = s.now := congrArg Standing.now ended
    have at_ : s.freeGrids.endFrame.tree.trimAt = s.tree.trimAt := congrArg Standing.trimAt ended
    have trim : s.freeGrids.endFrame.tree.trim = s.tree.trim := congrArg Standing.trim ended
    have was : s.freeGrids.endFrame.tree.trimWas = s.tree.trimWas := congrArg Standing.trimWas ended
    have inUse : s.freeGrids.endFrame.tree.trimNow = s.tree.trimNow := congrArg Standing.trimNow ended
    rw [trims, applyTrims_trim _ small, State.enabled, State.enabled, acted, State.trimTaken, now, at_, trim, was, inUse]
  · have counted : s.frameClosed.aNow = s.aNow := by
      unfold State.aNow State.drillCount State.drillIs
      rw [drill]
    rw [← counted]
    exact drilled.aNow

/-! ### The thermal step -/

theorem easeChanged_stands (s : State) : s.Stands s.easeChanged := (attnArises_stands s 1).trans rfl

/-- With no die hot the conditions raise nothing that stops (R235). -/
theorem checkConditions_stands {s : State} (cool : s.dieAtLeast 2000 = false) (none_ : s.flt.injecting = []) (b : Bool) :
    s.Stands (s.checkConditions b) := by
  have off : (s.dieAtLeast 2000 || s.injected fltDieHot) = false := by rw [cool, injected_none none_]; rfl
  have changed (t : State) (p : Bool) : t.Stands (if p then t.easeChanged else t) := by
    split
    · exact easeChanged_stands t
    · exact State.Stands.refl t
  unfold State.checkConditions
  dsimp only
  rw [off]
  refine State.Stands.trans ?_ (redetect_stands _ (by decide) _)
  refine State.Stands.trans ?_ (redetect_stands _ (by decide) _)
  refine State.Stands.trans ?_ (redetect_stands _ (by decide) _)
  refine State.Stands.trans ?_ (redetect_stands _ (by decide) _)
  refine State.Stands.trans ?_ (raiseAll_stands _ (mild_append (mild_append (mild_append ?_ (mild_if ⟨by decide, by decide⟩))
    (mild_if ⟨by decide, by decide⟩)) (mild_if ⟨by decide, by decide⟩)))
  · refine State.Stands.trans ?_ (changed _ _)
    rfl
  · intro n listed
    cases listed

end Sys2Proof.Machine
end

section
/-! PROOFS. The next frame begins (R28, R103, R119, R127 to R130, R138, R234). -/

namespace Sys2Proof.Machine

theorem stepPlots_stands (s : State) (h : Nat) (e : Nat → Nat) : s.Stands (s.stepPlots h e) := rfl
theorem findBands_stands (s : State) : s.Stands s.findBands := rfl

theorem startModel_stands (s : State) : s.Stands s.startModel := by
  unfold State.startModel
  refine State.Stands.trans ?_ (findBands_stands _)
  rfl

/-- The thermal step changes nothing that stands. -/
theorem thermStep_stands {s : State} (cool : s.dieAtLeast 2000 = false) (none_ : s.flt.injecting = []) (h : Nat) : s.Stands (s.thermStep h) := by
  have checked (t : State) (from_ : s.Stands t) : s.Stands (t.checkConditions true) := by
    have diode : t.therm.diode = s.therm.diode := congrArg Standing.diode from_
    have injecting : t.flt.injecting = [] := (congrArg Standing.injecting from_).trans none_
    refine from_.trans (checkConditions_stands ?_ injecting true)
    unfold State.dieAtLeast at *
    rw [diode]
    exact cool
  have taken : s.Stands (if s.alm.thermalDue then { s with alm.thermal := s.alm.image, alm.thermalDue := false } else s) := by
    split <;> rfl
  unfold State.thermStep
  dsimp only
  generalize (if s.alm.thermalDue then { s with alm.thermal := s.alm.image, alm.thermalDue := false } else s) = t at taken ⊢
  split
  · exact checked _ ((taken.trans (stepPlots_stands _ _ _)).trans (findBands_stands _))
  · split
    · exact checked _ (taken.trans (startModel_stands t))
    · exact taken

theorem thermBoundary_standing {s : State} (cool : s.dieAtLeast 2000 = false) (none_ : s.flt.injecting = []) (h : Nat) :
    (s.thermBoundary h).standing = { s.standing with wbud := s.therm.ctl.toNat % 65536 } := by
  have stepped := thermStep_stands cool none_ h
  have ctl : (s.thermStep h).therm.ctl = s.therm.ctl := congrArg Standing.ctl stepped
  have taken : (s.thermBoundary h).standing = { (s.thermStep h).standing with wbud := (s.thermStep h).therm.ctl.toNat % 65536 } := rfl
  rw [taken, ctl, stepped]

/-! ### The frame itself -/

/-- The scan's record as the frame begins. -/
def State.begunScan (s : State) : ScanState :=
  { s.scan.bare with
    slow := s.comingRow.scan.slow, scanning := true, startDue := none, rowT := s.comingRow.scan.rowT
    frame := if s.scan.fresh then s.scan.frame else s.scan.frame + 1
    fresh := false, boundaryAt := s.now, slot := 0, startSetDone := false, firstFrame := false, missed := [], completed := 0 }

/-- RUN or slow scan. -/
def PwrSt.scans (x : PwrSt) : Prop := x = .run ∨ x = .slow

theorem takeWords_eq (s : State) : s.takeWords = { s with panel.words := s.comingRow.panel.words, alm.wordsDue := false } := by
  have words : s.comingRow.panel.words = if s.alm.wordsDue then timingOf s.alm.image s.frameRows else s.panel.words := rfl
  rw [words]
  unfold State.takeWords
  cases due : s.alm.wordsDue with
  | true => rfl
  | false =>
    rw [if_neg Bool.false_ne_true, if_neg Bool.false_ne_true, ← due]

theorem comingSlow_eq (s : State) : s.comingRow.scan.slow = match s.pwr.change with
    | some b => if s.seqIdle then b else s.scan.slow
    | none => s.scan.slow := rfl

/-- A change of rate waits for an idle sequencer (R353). -/
theorem changeRate_eq {s : State} (runs : s.pwr.st.scans) : ∃ st ch, st.scans ∧
    s.changeRate = { s with pwr.change := ch, pwr.st := st, scan.slow := s.comingRow.scan.slow } := by
  rw [comingSlow_eq]
  unfold State.changeRate
  cases change : s.pwr.change with
  | none =>
    refine ⟨s.pwr.st, none, runs, ?_⟩
    dsimp only
    rw [← change]
  | some b =>
    dsimp only
    split
    · refine ⟨if b then .slow else .run, none, ?_, rfl⟩
      cases b
      · exact .inl rfl
      · exact .inr rfl
    · refine ⟨s.pwr.st, some b, runs, ?_⟩
      rw [← change]

theorem endReturn_none {s : State} (runs : s.pwr.st.scans) : s.endReturn = s :=
  if_neg (fun h => by rcases runs with x | x <;> rw [x] at h <;> cases h)

/-- The frame begun, before VCOM's and the thermal steps. -/
def State.frameBegun (s : State) : State := s.takeWords.changeRate.endReturn.beginFrame

theorem frameBegun_standing {s : State} (runs : s.pwr.st.scans) : ∃ st ch, st.scans ∧ s.frameBegun.standing = { s.standing with
    words := s.comingRow.panel.words, wordsDue := false, st := st, change := ch, scan := s.begunScan } := by
  have taken := takeWords_eq s
  have slow : s.takeWords.comingRow.scan.slow = s.comingRow.scan.slow := by rw [taken]; rfl
  obtain ⟨st, ch, scans, changed⟩ := changeRate_eq (s := s.takeWords) (by rw [taken]; exact runs)
  refine ⟨st, ch, scans, ?_⟩
  unfold State.frameBegun
  rw [endReturn_none (by rw [changed]; exact scans), changed, slow, taken]
  rfl

end Sys2Proof.Machine
end

section
/-! PROOFS. A frame boundary begins the next frame (R28, R103, R119, R129, R130, R138, R234, R309, R327). -/

namespace Sys2Proof.Machine

/-! ### The row time to come (R103, R138, R353) -/

theorem comingRowT_eq (s : State) : s.comingRow.scan.rowT
    = if s.comingRow.scan.slow ∧ s.comingRow.panel.words.slowRowT ≠ 0 then s.comingRow.panel.words.slowRowT
      else s.comingRow.panel.words.rowT := rfl

theorem comingWords_eq (s : State) : s.comingRow.panel.words = if s.alm.wordsDue then timingOf s.alm.image s.frameRows else s.panel.words := rfl

/-- What stands between the frames has the row time to come as it was. -/
theorem State.Between.coming {s t : State} (h : s.Between t) : t.comingRow.panel.words = s.comingRow.panel.words
    ∧ t.comingRow.scan.slow = s.comingRow.scan.slow ∧ t.comingRow.scan.rowT = s.comingRow.scan.rowT := by
  have due : t.alm.wordsDue = s.alm.wordsDue := congrArg Standing.wordsDue h.standing
  have image : t.alm.image = s.alm.image := congrArg Standing.image h.standing
  have strap : t.strap = s.strap := congrArg Standing.strap h.standing
  have inForce : t.panel.words = s.panel.words := congrArg Standing.words h.standing
  have change : t.pwr.change = s.pwr.change := congrArg Standing.change h.standing
  have step : t.seq.railStep = s.seq.railStep := congrArg Standing.railStep h.standing
  have run : t.seq.run = s.seq.run := congrArg Standing.run h.standing
  have slowNow : t.scan.slow = s.scan.slow := congrArg (fun x => x.scan.slow) h.standing
  have words : t.comingRow.panel.words = s.comingRow.panel.words := by
    rw [comingWords_eq, comingWords_eq, due, image, inForce, State.frameRows, rows_congr strap]
    rfl
  have slow : t.comingRow.scan.slow = s.comingRow.scan.slow := by
    rw [comingSlow_eq, comingSlow_eq, change, State.seqIdle, step, run, slowNow]
    rfl
  exact ⟨words, slow, by rw [comingRowT_eq, comingRowT_eq, words, slow]⟩

/-- The row time in use that of the frame to come, R138 is met for any number of drills not below that before. -/
theorem shortFor_coming {s t : State} (span : s.spanKept = true) (words : t.panel.words = s.comingRow.panel.words)
    (rowT : t.scan.rowT = s.comingRow.scan.rowT) (strap : t.strap = s.strap) (more : s.aNow ≤ t.aNow) : t.shortFor t.aNow = false := by
  have most := aNow_le t
  have met := List.all_eq_true.mp span t.aNow (List.mem_range.mpr (by omega))
  rw [decide_eq_false (not_lt.mpr more), Bool.false_or, Bool.not_eq_true'] at met
  have cols : t.groupsInRow = s.groupsInRow := by simp only [State.groupsInRow, cols_congr strap]
  refine Eq.trans ?_ met
  have width : s.comingRow.groupsInRow = s.groupsInRow := rfl
  unfold State.shortFor State.rowTime State.readSpan
  rw [words, rowT, cols, width]

/-! ### The steps of a boundary that a frame follows -/

theorem drainBoundary_stands (s : State) : s.Stands s.drainBoundary := by
  unfold State.drainBoundary
  split
  · split <;> rfl
  · rfl

theorem reactBoundary_stands (s : State) : s.Stands s.reactBoundary := by
  unfold State.reactBoundary
  split
  · split <;> rfl
  · rfl

theorem firstRender_stands (s : State) : s.Stands s.firstRender := (firstRender_drew s).stands

/-- What ends the boundary's steps. -/
def State.frameSettled (s : State) : State :=
  State.firstRender { s.drainBoundary.reactBoundary.headlandBegin with rw.boundarySeen := true }

theorem frameSettled_stands (s : State) : s.Stands s.frameSettled := by
  have seen (t : State) : t.Stands { t.headlandBegin with rw.boundarySeen := true } := rfl
  exact (((drainBoundary_stands s).trans (reactBoundary_stands _)).trans (seen _)).trans (firstRender_stands _)

/-- The frame begun, with VCOM's codes and the thermal step. -/
def State.frameStepped (s : State) (h : Nat) : State := s.frameBegun.vcomBoundary.thermBoundary h

theorem nextFrame_eq {s : State} (due : s.betweenFrames.scan.startDue.isNone = false)
    (runs : (s.betweenFrames.frameStepped s.frameTime).scan.scanning = true) :
    s.nextFrame = s.betweenFrames.checkSpan (s.betweenFrames.frameStepped s.frameTime).frameSettled := by
  unfold State.nextFrame
  dsimp only
  rw [due, if_neg Bool.false_ne_true]
  refine if_neg (fun h => ?_)
  rw [Bool.not_eq_true'] at h
  exact Bool.false_ne_true (h.symm.trans runs)

theorem checkSpan_met {s t : State} (met : t.shortFor t.aNow = false) : s.checkSpan t = t := by
  unfold State.checkSpan
  rw [met, Bool.false_and, if_neg Bool.false_ne_true]

theorem aNow_drill {s t : State} (drill : t.drills.drill = s.drills.drill) : t.aNow = s.aNow := by
  unfold State.aNow State.drillCount State.drillIs
  rw [drill]

/-- What stands once the frame has begun, with VCOM's codes and the thermal step. -/
theorem frameStepped_standing {s : State} (cool : s.dieAtLeast 2000 = false) (none_ : s.flt.injecting = []) (runs : s.pwr.st.scans) (h : Nat) :
    ∃ st ch, st.scans ∧ (s.frameStepped h).standing = { s.standing with
      words := s.comingRow.panel.words, wordsDue := false, st := st, change := ch, scan := s.begunScan
      vcom := vmapIdx (fun i => vcomAtBoundary s.now s.comingRow.panel.words.vcomHalf (s.panel.vcomEn.getLsbD i)) s.panel.vcom
      wbud := s.therm.ctl.toNat % 65536 } := by
  obtain ⟨st, ch, scans, begun⟩ := frameBegun_standing runs
  refine ⟨st, ch, scans, ?_⟩
  have stepped : s.frameBegun.vcomBoundary.standing = { s.frameBegun.standing with
      vcom := vmapIdx (fun i => vcomAtBoundary s.frameBegun.now s.frameBegun.panel.words.vcomHalf (s.frameBegun.panel.vcomEn.getLsbD i))
        s.frameBegun.panel.vcom } := rfl
  have now : s.frameBegun.now = s.now := congrArg Standing.now begun
  have words : s.frameBegun.panel.words = s.comingRow.panel.words := congrArg Standing.words begun
  have en : s.frameBegun.panel.vcomEn = s.panel.vcomEn := congrArg Standing.vcomEn begun
  have vcom : s.frameBegun.panel.vcom = s.panel.vcom := congrArg Standing.vcom begun
  rw [now, words, en, vcom, begun] at stepped
  have diode : s.frameBegun.vcomBoundary.therm.diode = s.therm.diode := congrArg Standing.diode stepped
  have injecting : s.frameBegun.vcomBoundary.flt.injecting = [] := (congrArg Standing.injecting stepped).trans none_
  have ctl : s.frameBegun.vcomBoundary.therm.ctl = s.therm.ctl := congrArg Standing.ctl stepped
  have coolAt : s.frameBegun.vcomBoundary.dieAtLeast 2000 = false := by
    unfold State.dieAtLeast at *
    rw [diode]
    exact cool
  unfold State.frameStepped
  rw [thermBoundary_standing coolAt injecting h, ctl, stepped]

/-- VCOM's channels as the frame begins (R119). -/
def State.vcomTaken (s : State) : Vector VcomCh 8 :=
  vmapIdx (fun i => vcomAtBoundary s.now s.comingRow.panel.words.vcomHalf (s.panel.vcomEn.getLsbD i)) s.panel.vcom

theorem nextFrame_standing {s : State} (keeps : s.drillsKeep = true) (span : s.spanKept = true) (cool : s.dieAtLeast 2000 = false)
    (none_ : s.flt.injecting = []) (runs : s.pwr.st.scans) : ∃ st ch d, st.scans ∧ s.nextFrame.standing = { s.standing with
      trimNow := s.betweenFrames.tree.trimNow, drill := d, words := s.comingRow.panel.words, wordsDue := false, st := st, change := ch
      scan := { s.begunScan with lost := [] }, vcom := s.vcomTaken, wbud := s.therm.ctl.toNat % 65536 } := by
  have between := betweenFrames_between keeps
  obtain ⟨words, slow, rowT⟩ := between.coming
  generalize hs2 : s.betweenFrames = s2 at between words slow rowT
  have st2 : s2.pwr.st = s.pwr.st := congrArg Standing.st between.standing
  have diode2 : s2.therm.diode = s.therm.diode := congrArg Standing.diode between.standing
  have injecting2 : s2.flt.injecting = [] := (congrArg Standing.injecting between.standing).trans none_
  have cool2 : s2.dieAtLeast 2000 = false := by
    unfold State.dieAtLeast at *
    rw [diode2]
    exact cool
  obtain ⟨st, ch, scans, begun⟩ := frameStepped_standing cool2 injecting2 (by rw [st2]; exact runs) s.frameTime
  have now2 : s2.now = s.now := congrArg Standing.now between.standing
  have scan2 : s2.begunScan = { s.begunScan with lost := [] } := by
    have bare : s2.scan.bare = { s.scan.bare with lost := [], scanning := false, startDue := some s.now } := congrArg Standing.scan between.standing
    have fresh : s2.scan.fresh = s.scan.fresh :=
      (congrArg ScanState.fresh bare :)
    have frame : s2.scan.frame = s.scan.frame :=
      (congrArg ScanState.frame bare :)
    unfold State.begunScan
    rw [bare, slow, rowT, fresh, frame, now2]
  have vcom2 : vmapIdx (fun i => vcomAtBoundary s2.now s.comingRow.panel.words.vcomHalf (s2.panel.vcomEn.getLsbD i)) s2.panel.vcom = s.vcomTaken := by
    have en : s2.panel.vcomEn = s.panel.vcomEn := congrArg Standing.vcomEn between.standing
    have vcom : s2.panel.vcom = s.panel.vcom := congrArg Standing.vcom between.standing
    rw [now2, en, vcom]
    rfl
  have ctl2 : s2.therm.ctl = s.therm.ctl := congrArg Standing.ctl between.standing
  rw [words, scan2, vcom2, ctl2, between.standing] at begun
  have stands := Eq.trans (frameSettled_stands (s2.frameStepped s.frameTime)) begun
  have scanning : (s2.frameStepped s.frameTime).scan.scanning = true :=
    (show (s2.frameStepped s.frameTime).scan.bare.scanning = true from congrArg (fun x => x.scan.scanning) begun)
  have due : s2.scan.startDue.isNone = false := by
    have same : s2.scan.startDue = some s.now := (show s2.scan.bare.startDue = some s.now from congrArg (fun x => x.scan.startDue) between.standing)
    rw [same]
    rfl
  have whole := nextFrame_eq (s := s) (by rw [hs2]; exact due) (by rw [hs2]; exact scanning)
  rw [hs2] at whole
  have met : (s2.frameStepped s.frameTime).frameSettled.shortFor (s2.frameStepped s.frameTime).frameSettled.aNow = false := by
    refine shortFor_coming span (congrArg Standing.words stands) ?_ (congrArg Standing.strap stands) ?_
    · exact (show (s2.frameStepped s.frameTime).frameSettled.scan.bare.rowT = _ from congrArg (fun x => x.scan.rowT) stands)
    · rw [aNow_drill (s := s2) (congrArg Standing.drill stands)]
      exact between.count
  rw [whole, checkSpan_met met]
  exact ⟨st, ch, s2.drills.drill, scans, stands⟩

end Sys2Proof.Machine
end

section
/-! PROOFS. The command FRAME_BOUNDARY in RUN and slow scan. -/

namespace Sys2Proof.Machine

/-- A wake event changes nothing while the device scans (R351). -/
theorem wakeEvent_scans {s : State} (scans : s.pwr.st.scans) (w : WakeBy) : s.wakeEvent w = s := by
  unfold State.wakeEvent
  obtain st | st := scans <;> rw [st]

/-- So no level event does. -/
theorem attend_scans {s : State} (scans : s.pwr.st.scans) : s.attend = s := by
  unfold State.attend
  simp only [wakeEvent_scans scans, ite_self]

/-- No entry commits while the device scans (R349). -/
theorem commitDue_scans {s : State} (scans : s.pwr.st.scans) : s.commitDue = false := by
  unfold State.commitDue
  obtain st | st := scans <;> simp [st]

/-- The boundary of a device that scans, with nothing that ends its scan, begins the next frame. -/
theorem boundary_steady {s : State} {at_ : Nat} (scans : s.pwr.st.scans) (react : s.flt.react = none) (delivery : s.rtc.deliveryAt = none)
    (due : s.frameOver = true ∧ at_ = s.slotTime s.frameRows ∨ s.scan.scanning = false ∧ s.scan.startDue = some at_) :
    s.boundary = (s.reach at_).nextFrame := by
  have uncommitted : s.commitDue = false := commitDue_scans scans
  unfold State.boundary
  obtain ⟨ended, rfl⟩ | ⟨stopped, start⟩ := due
  · have reached : (s.reach (s.slotTime s.frameRows)).commitDue = false := commitDue_scans scans
    have unreacted : (s.reach (s.slotTime s.frameRows)).flt.react = none := react
    have undelivered : (s.reach (s.slotTime s.frameRows)).rtc.deliveryAt = none := delivery
    dsimp only
    rw [ended, if_pos rfl, reached, if_neg Bool.false_ne_true, unreacted, undelivered]
    rfl
  · have ended : s.frameOver = false := by
      unfold State.frameOver
      rw [stopped, Bool.false_and]
    rw [ended, if_neg Bool.false_ne_true, start, stopped, uncommitted]
    rfl

/-- What a steady device is not in (R349, R465, R439). -/
theorem steady_quiet {s : State} (steady : s.steady = true) :
    s.pwr.st.scans ∧ s.flt.react = none ∧ s.rtc.deliveryAt = none ∧ s.flt.injecting = [] := by
  simp only [State.steady, Bool.and_eq_true, Bool.or_eq_true, beq_iff_eq, Option.isNone_iff_eq_none, List.isEmpty_iff] at steady
  obtain ⟨⟨⟨⟨⟨⟨st, react⟩, -⟩, -⟩, delivery⟩, -⟩, injecting⟩ := steady
  exact ⟨st, react, delivery, injecting⟩

/-- Settles O29: what stands at a boundary is followed through the end of the frame behind, what lies between the frames and the
beginning of the next. -/
theorem frameBegins : Obligations.FrameBegins := by
  unfold Obligations.FrameBegins
  intro s at_ steady keeps span cool due
  obtain ⟨scans, react, delivery, injecting⟩ := steady_quiet steady
  have ran : exec .frameBoundary s = .next s.boundary.attend := rfl
  rw [ran, boundary_steady scans react delivery due]
  obtain ⟨st, change, d, scansOn, stands⟩ :=
    nextFrame_standing (s := s.reach at_) keeps span cool injecting scans
  have trims := (betweenFrames_between (s := s.reach at_) keeps).trim
  generalize (s.reach at_).betweenFrames.tree.trimNow = trimNow at stands trims
  generalize (s.reach at_).nextFrame = t at stands ⊢
  have pwr : t.pwr.st = st := congrArg Standing.st stands
  have now : t.now = max s.now at_ := congrArg Standing.now stands
  have scan : t.scan.bare = { (s.reach at_).begunScan with lost := [] } := congrArg Standing.scan stands
  have words : t.panel.words = s.comingRow.panel.words := congrArg Standing.words stands
  have rowT : t.scan.rowT = s.comingRow.scan.rowT := (congrArg ScanState.rowT scan :)
  have slow : t.scan.slow = s.comingRow.scan.slow := (congrArg ScanState.slow scan :)
  have vcom : t.panel.vcom = (s.reach at_).vcomTaken := congrArg Standing.vcom stands
  have rail : t.tree.trimNow = trimNow := congrArg Standing.trimNow stands
  have bak : ({ t.rtc with quietAt := 0 } : RtcState) = { s.rtc with quietAt := 0 } := congrArg Standing.rtc stands
  have up : ({ t.up with stores := Vector.replicate 16 Store.clear } : UpState)
      = { s.up with stores := Vector.replicate 16 Store.clear } := congrArg Standing.up stands
  have acc : ({ t.acc with hwSet := [] } : AccessState) = { s.acc with hwSet := [] } := congrArg Standing.acc stands
  refine ⟨t, by rw [attend_scans (by rw [pwr]; exact scansOn)], now, (congrArg ScanState.scanning scan :), ?_, (congrArg ScanState.slot scan :),
    (congrArg ScanState.startSetDone scan :), (congrArg ScanState.startDue scan :), (congrArg ScanState.missed scan :),
    (congrArg ScanState.lost scan :), (congrArg ScanState.completed scan :), (congrArg ScanState.frame scan :), ?_, ?_, ?_, ?_,
    congrArg Standing.wbud stands, congrArg Standing.pixels stands, congrArg Standing.cells stands, congrArg Standing.otp stands, ?_, ?_, ?_⟩
  · rw [now]
    exact (congrArg ScanState.boundaryAt scan :)
  · rw [rowT, slow, words]
    exact comingRowT_eq s
  · rw [words]
    exact comingWords_eq s
  · intro n listed
    rw [vcom, State.vcomTaken, vget_vmapIdx _ _ listed, now]
    rfl
  · intro k listed
    rw [rail, now]
    exact trims k listed
  · exact (congrArg (fun a : AccessState => { a with hwSet := t.acc.hwSet }) acc :)
  · exact (congrArg (fun a : UpState => { a with stores := t.up.stores }) up :)
  · exact (congrArg (fun a : RtcState => { a with quietAt := t.rtc.quietAt }) bak :)

end Sys2Proof.Machine
end
